-- ==== Sys2Proof/Word.lean ====
section
/-! DEFINITION. The word types of the AQM9640: 32-bit data words, bytes, the 4-bit unit tag and the 36-bit tagged
process word (R83, R139, R252). -/

namespace Sys2Proof

/-- A 32-bit data word, a register or an address. -/
abbrev Word := BitVec 32

/-- A byte. -/
abbrev Byte := BitVec 8

/-- The 4-bit unit tag of a process word (R139). -/
abbrev Tag := BitVec 4

/-- A 36-bit process word: 32 data bits and a unit tag (R252). -/
structure TWord where
  data : Word
  tag  : Tag
  deriving DecidableEq, Repr

/-- The tags of R139 by name. -/
abbrev Tag.raw : Tag := 0
abbrev Tag.count : Tag := 1
abbrev Tag.temp : Tag := 2
abbrev Tag.pres : Tag := 3
abbrev Tag.flow : Tag := 4
abbrev Tag.vol : Tag := 5
abbrev Tag.time : Tag := 6
abbrev Tag.power : Tag := 7
abbrev Tag.energy : Tag := 8
abbrev Tag.frac : Tag := 9
abbrev Tag.cond : Tag := 10
abbrev Tag.state : Tag := 11
abbrev Tag.handle : Tag := 12
abbrev Tag.curr : Tag := 13
abbrev Tag.reserved : Tag := 14
abbrev Tag.poison : Tag := 15

/-- A word with tag RAW. -/
abbrev TWord.ofWord (w : Word) : TWord := ⟨w, Tag.raw⟩

/-- Data 0 with tag RAW: what a wiped SRAM word and a reset register hold (R19, R95). -/
abbrev TWord.zero : TWord := ⟨0, Tag.raw⟩

/-- Data 0 with tag POISON: every POISON result (R140). -/
abbrev TWord.poison : TWord := ⟨0, Tag.poison⟩

/-- Whether a word carries POISON. -/
abbrev TWord.isPoison (t : TWord) : Bool := t.tag == Tag.poison

end Sys2Proof
end

