-- ==== Sys2Proof/Syntax.lean ====
section
/-! DEFINITION. The commands of the part: one constructor per row of spec/opcode_table.json, with the row's operands.
A bus write carries its master (R37); an event carries what happens outside the part. -/

namespace Sys2Proof

/-- The width of a bus access in bytes (R276). -/
inductive Size where
  | byte | half | word
  deriving DecidableEq, Repr

/-- The long-operation units of R126. -/
inductive LongUnit where
  | div | itp | seq | rep
  deriving DecidableEq, Repr

/-- One channel's input in one window (R322, R323): its modulator samples, in units of the code D and before any
exclusion, whether the modulator overloaded, the measured excitation current in nA and whether the excitation output
reached its current (R338). -/
structure ChanInput where
  samples    : List Int
  overload   : Bool
  exMeasured : Nat
  compliance : Bool
  deriving DecidableEq, Repr

/-- What one window of a measurement block sees: its channels, the two cold-junction sensors in µ°C before their factory
words, their self-checks (R336) and the deviation of the reference in ppm (R339). -/
structure BlockInput where
  chans   : List ChanInput
  cj0     : Int
  cj1     : Int
  cjFail0 : Bool
  cjFail1 : Bool
  refPpm  : Nat
  deriving DecidableEq, Repr

/-- A trip input, 0 to 15 a comparator and 16 to 23 a digital input, and what it has come to (R343-R347): the level of a
comparator's source in nV, or of a pin, positive for high, and for how many cycles a pin has held it. -/
structure TripInput where
  input : Fin 24
  level : Int
  held  : Nat
  deriving DecidableEq, Repr

/-- One march failure of a Whetstone region: word 0-63, bit 0-42, element 1-6 (R262, R272). -/
structure MarchFail where
  word : Fin 64
  bit  : Fin 43
  elem : Fin 7
  deriving DecidableEq, Repr

/-- A CAN FD frame on the bus (R576). -/
structure CanFrame where
  ide  : Bool
  fdf  : Bool
  brs  : Bool
  id   : BitVec 29
  dlc  : BitVec 4
  esi  : Bool
  rtr  : Bool
  data : List Byte
  deriving DecidableEq, Repr

/-- A Ledger NAND LUN: channel, chip enable, LUN (R441). -/
structure LunId where
  chan : Fin 4
  ce   : Fin 8
  lun  : Fin 4
  deriving DecidableEq, Repr

/-- What a target's parameter page reports (R442, R443): whether its CRC passes, the ONFI version in tenths, whether NV-DDR3 is
supported, the bytes of a page's data and spare areas, and the geometry. The spec gives no layout of the page (log entry 65). -/
structure TargetParams where
  crc    : Bool
  onfi   : Nat
  ddr3   : Bool
  data   : Nat
  spare  : Nat
  luns   : Nat
  pages  : Nat
  blocks : Nat
  deriving DecidableEq, Repr

/-- A page as a scan finds it (R445, R446, R452, R469): its block, its number in the block, the 32 bytes of its tag, whether data and tag
pass their ECC, and its four slots. -/
structure ScanPage where
  block : Nat
  page  : Nat
  tag   : List Byte
  good  : Bool
  slots : List (List Byte)
  deriving DecidableEq, Repr

/-- What FORMAT or MOUNT finds on the NAND (R443, R448, R452): the parameter page of each target present, by target 8c + t; blocks whose
spare area starts with another byte than 0xFF in their first or last page, with the two bytes; and pages that Ledger has not programmed
itself since the model's start, or that it has and that no longer pass. A block is numbered by target, LUN and block within the
LUN. -/
structure NandScan where
  params : List (Nat × TargetParams)
  marks  : List (Nat × Byte × Byte)
  found  : List ScanPage
  deriving DecidableEq, Repr

/-- The commands. -/
inductive Instr where
  -- register pages and the bus (R1-R16, R276-R289)
  | registerWrite (m : Fin 16) (sz : Size) (addr : Word) (w : TWord)
  | aliasWrite (m : Fin 16) (sz : Size) (addr : Word) (w : TWord)
  | gateAutoClose (page : Word)
  | matrixTimeout (m id : Fin 16) (addr : Word)
  | blockSoftrst (m : Fin 16) (page : Word)
  | blockResetDone (page : Word)
  | sramAliasWrite (m : Fin 16) (sz : Size) (addr : Word) (w : TWord)
  | tagViewWrite (m : Fin 16) (sz : Size) (addr : Word) (w : TWord)
  -- the tick (R40-R78)
  | tickBoundary
  | dropEnd
  | coreRelease
  | tickEn (m : Fin 16)
  | tickStop (m : Fin 16)
  | apply (m : Fin 16)
  | sourceLost
  | tickSvccommit (m : Fin 16) (w : Word)
  | tickNumLoRead (m : Fin 16)
  | tickBtsNsRead (m : Fin 16)
  -- the cores (R79-R237)
  | bundleIssue (k : Fin 9)
  | add (k : Fin 9) (u : Fin 2) (a : TWord)
  | sub (k : Fin 9) (u : Fin 2) (a : TWord)
  | adds (k : Fin 9) (u : Fin 2) (a : TWord)
  | subs (k : Fin 9) (u : Fin 2) (a : TWord)
  | and (k : Fin 9) (u : Fin 2) (a : TWord)
  | or (k : Fin 9) (u : Fin 2) (a : TWord)
  | xor (k : Fin 9) (u : Fin 2) (a : TWord)
  | shl (k : Fin 9) (u : Fin 2) (a : TWord)
  | shr (k : Fin 9) (u : Fin 2) (a : TWord)
  | sar (k : Fin 9) (u : Fin 2) (a : TWord)
  | rol (k : Fin 9) (u : Fin 2) (a : TWord)
  | min (k : Fin 9) (u : Fin 2) (a : TWord)
  | max (k : Fin 9) (u : Fin 2) (a : TWord)
  | ceq (k : Fin 9) (u : Fin 2) (a : TWord)
  | clt (k : Fin 9) (u : Fin 2) (a : TWord)
  | cltu (k : Fin 9) (u : Fin 2) (a : TWord)
  | tset (k : Fin 9) (a : TWord)
  | tchk (k : Fin 9) (a : TWord)
  | mulS (k : Fin 9) (a : TWord)
  | mulU (k : Fin 9) (a : TWord)
  | divS (k : Fin 9) (a : TWord)
  | divU (k : Fin 9) (a : TWord)
  | ldw (k : Fin 9) (a : TWord)
  | ldh (k : Fin 9) (a : TWord)
  | ldb (k : Fin 9) (a : TWord)
  | stw (k : Fin 9) (a : TWord)
  | sth (k : Fin 9) (a : TWord)
  | stb (k : Fin 9) (a : TWord)
  | jump (k : Fin 9) (a : TWord)
  | call (k : Fin 9) (a : TWord)
  | ret (k : Fin 9)
  | retx (k : Fin 9)
  | fence (k : Fin 9)
  | wft (k : Fin 8)
  | wfi
  | commit (k : Fin 8)
  | trap (k : Fin 9) (a : TWord)
  | lpBegin (k : Fin 9) (a : TWord)
  | lpPop (k : Fin 9)
  | repGo (k : Fin 9) (a : TWord)
  | itpX (k : Fin 9) (a : TWord)
  | seqEv (k : Fin 9) (a : TWord)
  | sysW (k : Fin 9) (a : TWord)
  | sysR (k : Fin 9)
  | modeChange (k : Fin 9)
  | fsave (k : Fin 9) (a : TWord)
  | frestore (k : Fin 9) (a : TWord)
  | evecWrite (k : Fin 9) (a : TWord)
  | evecLoadDone (k : Fin 9)
  | longOpComplete (k : Fin 9) (u : LongUnit)
  | heldAccessResponse (k : Fin 9)
  | interruptEntry
  | storeBufferDrain
  | btbload (m : Fin 16) (k : Fin 9)
  | btbLoadDone (k : Fin 9)
  | haltreq (m : Fin 16) (k : Fin 9) (b : Bool)
  | run (m : Fin 16) (k : Fin 9) (b : Bool)
  -- flash and Whetstone (R239-R275)
  | prog (m : Fin 16)
  | esect (m : Fin 16)
  | eplane (m : Fin 16)
  | blank (m : Fin 16)
  | flcOpDone (us : BitVec 20) (good : Bool)
  | whsRegionStart
  | whsRegionDone (fail : Option MarchFail)
  | whsRegionTimeout
  | fast (m : Fin 16)
  | fastPassDone (len : BitVec 20) (marchFail : Bool)
  | fsigLineRead
  -- DMA, Tally and mailboxes (R290-R313)
  | dmaGo (m : Fin 16) (e : Fin 2) (c : Fin 8)
  | dmaDescriptorRead (e : Fin 2) (c : Fin 8)
  | dmaBurst (e : Fin 2) (c : Fin 8)
  | dmaAbort (m : Fin 16) (e : Fin 2) (c : Fin 8)
  | tallyLineRise (n : Fin 512)
  | talSet (m : Fin 16) (i : Fin 16) (w : Word)
  | talPend (m : Fin 16) (i : Fin 16) (w : Word)
  | talEn (m : Fin 16) (i : Fin 16) (w : Word)
  | mbxMsg (m : Fin 16) (b : Fin 24) (i : Fin 8) (w : Word)
  | mbxPost (m : Fin 16) (b : Fin 24) (w : Word)
  | mbxRing (m : Fin 16) (b : Fin 24) (w : Word)
  | mbxDone (m : Fin 16) (b : Fin 24) (w : Word)
  | mbxDb (m : Fin 16) (b : Fin 24) (w : Word)
  -- measurement and trips (R315-R359)
  | meaConversion (b : Fin 24) (inp : BlockInput)
  | burnoutPulse (b : Fin 24) (i : Fin 8) (microvolts : Nat)
  | meaFactoryRead (b : Fin 24)
  | meaCrvdata (m : Fin 16) (b : Fin 24) (wd : Option Word)
  | meaWakeConversion (b : Fin 24) (inp : BlockInput)
  | tripCrossing (x : TripInput)
  | tripInputReturn (x : TripInput)
  | trpClear (m : Fin 16) (w : Word)
  | trpTest (m : Fin 16) (w : Word)
  | trpLock (m : Fin 16) (w : Word)
  -- outputs (R360-R402)
  | stagingWrite (m : Fin 16) (addr : Word) (w : TWord)
  | stokerDecision (p : Fin 3)
  | stokerFire (c : Fin 64)
  | stokerFireEnd (c : Fin 64)
  | stokerHoldExpiry
  | budgetTimeout
  | stkExtbud (m : Fin 16) (p : Fin 3) (w : Word)
  | stkAcc (m : Fin 16) (c : Fin 64) (w : Word)
  | zeroCrossing (p : Fin 3) (rising : Bool)
  | phaseLost (p : Fin 3)
  | motTurningPoint (g : Fin 8) (top : Bool)
  | peakEnd (x : Fin 48)
  | clampEnd (x : Fin 48)
  | gioInputEdge (n : Fin 64) (level : Bool)
  -- Yoke (R403-R440); a frame is its bytes 0 to 11 + LEN (R408)
  | mark (f : List Byte)
  | snap (f : List Byte)
  | rply (f : List Byte)
  | nak (f : List Byte)
  | mbox (f : List Byte)
  | state (f : List Byte)
  | echo (f : List Byte)
  | echoa (f : List Byte)
  | down (f : List Byte)
  | attreq (f : List Byte)
  | attacc (f : List Byte)
  | attref (f : List Byte)
  | cutack (f : List Byte)
  | ctrlDetach (f : List Byte)
  | cutend (f : List Byte)
  | takeover (freed : Bool)
  | tokenClaim
  | tokenConflict
  | linkUp
  | linkDown
  | rplyMiss
  | attach (m : Fin 16) (mode : BitVec 2)
  | detach (m : Fin 16)
  | handover (m : Fin 16)
  | attachTimeout
  | yokRelay (m : Fin 16)
  -- Ledger (R441-R480)
  | format (m : Fin 16) (scan : NandScan)
  | mount (m : Fin 16) (scan : NandScan)
  | flush (m : Fin 16)
  | seal (m : Fin 16)
  | prove (m : Fin 16)
  | read (m : Fin 16)
  | unmount (m : Fin 16)
  | stgwr (m : Fin 16)
  | stgrd (m : Fin 16)
  | stgerase (m : Fin 16)
  | ldgSqtail (m : Fin 16) (w : Word)
  | ldgSubmission
  | sealTimer (t : Fin 64)
  | sealSigned (t : Fin 64)
  | pageProgramDone (t : Fin 64) (pass : Bool)
  | blockEraseDone (blk : Nat) (pass : Bool)
  | lunTimeout (l : LunId)
  | ldgFmtdata (m : Fin 16) (wd : Option Word)
  | ldgSnextloRead (m : Fin 16)
  | ldgSdurloRead (m : Fin 16)
  | ldgCommandDone (worst : Option (Fin 73))
  -- Locksmith and update (R481-R530); a message is its bytes, header included (R500)
  | verify (m : Fin 16)
  | activate (m : Fin 16)
  | resume (m : Fin 16)
  | confirm (m : Fin 16)
  | reject (m : Fin 16)
  | quote (m : Fin 16)
  | hash (m : Fin 16)
  | random (m : Fin 16)
  | aead (m : Fin 16)
  | ecdh (m : Fin 16)
  | sign (m : Fin 16)
  | ukgen (m : Fin 16)
  | ukload (m : Fin 16)
  | incr (m : Fin 16)
  | dbgauth (m : Fin 16)
  | rootset (m : Fin 16)
  | idgen (m : Fin 16)
  | provdata (m : Fin 16)
  | lcstep (m : Fin 16)
  | revoke (m : Fin 16)
  | lksCommandDone
  | hello (msg : List Byte)
  | begin (msg : List Byte)
  | manifest (msg : List Byte)
  | block (msg : List Byte)
  | install (msg : List Byte)
  | servicePortVerify (msg : List Byte)
  | servicePortActivate (msg : List Byte)
  | status (msg : List Byte)
  | abort (msg : List Byte)
  | servicePortQuote (msg : List Byte)
  | sessionTimeout
  | activationSwitch
  | pauseTimeout
  | probationWarning
  | probationExpiry
  | tamper
  | coldTamperCheck (mismatch : Bool)
  | glitch
  | debugAccessExpiry
  -- clocks, reset, power and modes (R531-R567)
  | crystalReady
  | pllLock (j : Fin 2)
  | pllCfg (m : Fin 16) (j : Fin 2) (w : Word)
  | monitorWindow (i : Fin 4) (count : BitVec 12)
  | pllCoast (j : Fin 2)
  | clkSel (m : Fin 16) (w : Word)
  | clkDiv (m : Fin 16) (w : Word)
  | powerOnReset (xtsel : BitVec 2) (vbatLost : Bool) (prime : Bool)
  | brownOut (xtsel : BitVec 2)
  | pinReset
  | rstSoft (m : Fin 16) (w : Word)
  | rstDom (m : Fin 16) (i : Fin 3) (w : Word)
  | domainResetDone (d : Fin 97)
  | rstWdcfg (m : Fin 16) (w : Word)
  | rstWdkick (m : Fin 16) (w : Word)
  | watchdogWarning
  | watchdogExpiry
  | watchdogReset
  | domainPowerUp (m : Fin 16) (d : Fin 97)
  | powerGood (d : Fin 97)
  | powerGoodTimeout (d : Fin 97)
  | domainPowerDown (m : Fin 16) (d : Fin 97)
  | supplyWarning (low : BitVec 3)
  | coreSupplyLoss
  | vbatMeasure (mv : BitVec 12)
  | sysTempUpdate (t : Word)
  | modeReqRun (m : Fin 16)
  | modeReqWarm (m : Fin 16)
  | modeReqService (m : Fin 16)
  | modeReqSafe (m : Fin 16)
  | modeReqBanked (m : Fin 16)
  -- host and service interfaces (R568-R597)
  | ethFrameReceived (f : List Byte) (crcGood : Bool)
  | ethRxdata (m : Fin 16)
  | ethTxlen (m : Fin 16) (w : Word)
  | ethTxdata (m : Fin 16) (w : Word)
  | ethFrameSent
  | ethTsq3Read (m : Fin 16)
  | ethMdio (m : Fin 16) (w : Word)
  | mdioDone (data : BitVec 16)
  | set (m : Fin 16)
  | step (m : Fin 16)
  | ptpRate (m : Fin 16) (w : Word)
  | sync (m : Fin 16) (b : Bool)
  | ptpHoldExpiry
  | ptpNsRead (m : Fin 16)
  | pps
  | ptpCap
  | canFrameReceived (e : Fin 2) (f : CanFrame)
  | canRxdata (m : Fin 16) (e : Fin 2)
  | canTxdata (m : Fin 16) (e : Fin 2) (w : Word)
  | canFrameSent (e : Fin 2)
  | busOff (e : Fin 2)
  | busOffRecovery (e : Fin 2)
  | hspWrite (addr : Word) (ws : List Word)
  | hspRead (addr : Word) (n : Nat)
  | hspStatus
  | hspBadCommand (cmd : Byte)
  | hspCsRise (partialBits : Nat)
  | vbusConnect
  | info (msg : List Byte)
  | diagRead (msg : List Byte)
  | diagWrite (msg : List Byte)
  | extest (rstLow : Bool)
  | idcode
  | samplePreload (load : Bool) (cells : List Bool)
  | clamp (rstLow : Bool)
  | highz (rstLow : Bool)
  | bypass
  | dbgacc (reg : BitVec 72)
  | testLogicReset
  | dbgAuth (m : Fin 16) (w : Word)
  | locksmithBootComplete
  | rtcSecond
  | usbStandardRequest (setup : List Byte)
  | usbBusReset
  | usbSuspend
  | usbResume
  | vbusLoss
  deriving DecidableEq, Repr

end Sys2Proof
end

