-- ==== Sys2Proof/Machine/Map.lean ====
section
/-! DEFINITION. Sparse memories: a list of (key, value) pairs in one canonical form. Keys rise strictly, and no entry
equals what its unlisted key reads as. Every array of the part (registers, SRAM, curve memory, the cores' files) is held
this way, so that equal contents are equal data. -/

namespace Sys2Proof.Machine

/-- A sparse memory. -/
abbrev SMap (α : Type) := List (Nat × α)

/-- The value listed for a key, if any. -/
def smapFind {α : Type} : SMap α → Nat → Option α
  | [], _ => none
  | (k, v) :: rest, a => if a = k then some v else smapFind rest a

/-- The value at a key: the listed one, else what the unlisted key reads as. -/
def smapGet {α : Type} (d : Nat → α) (m : SMap α) (a : Nat) : α :=
  match smapFind m a with
  | some v => v
  | none => d a

/-- The map without a key. -/
def smapErase {α : Type} : SMap α → Nat → SMap α
  | [], _ => []
  | (k, v) :: rest, a => if a = k then smapErase rest a else (k, v) :: smapErase rest a

/-- The map with a value listed at a key. -/
def smapPut {α : Type} : SMap α → Nat → α → SMap α
  | [], a, x => [(a, x)]
  | (k, v) :: rest, a, x =>
    if a = k then (a, x) :: smapErase rest a
    else if a < k then (a, x) :: (k, v) :: smapErase rest a
    else (k, v) :: smapPut rest a x

/-- A write: writing what an unlisted key reads as removes the entry. -/
def smapSet {α : Type} [DecidableEq α] (d : Nat → α) (m : SMap α) (a : Nat) (x : α) : SMap α :=
  if x = d a then smapErase m a else smapPut m a x

/-- Whether every key of the map lies above a bound, keys rise and no entry equals its default. -/
def smapWfFrom {α : Type} [DecidableEq α] (d : Nat → α) : Nat → SMap α → Bool
  | _, [] => true
  | lo, (k, v) :: rest => decide (lo ≤ k) && decide (v ≠ d k) && smapWfFrom d (k + 1) rest

/-- The canonical form of a sparse memory. -/
def smapWf {α : Type} [DecidableEq α] (d : Nat → α) (m : SMap α) : Bool := smapWfFrom d 0 m

/-- Keep only the entries whose key satisfies a test: the others read as unlisted again. -/
def smapKeep {α : Type} (keep : Nat → Bool) : SMap α → SMap α
  | [] => []
  | (k, v) :: rest => if keep k then (k, v) :: smapKeep keep rest else smapKeep keep rest

end Sys2Proof.Machine
end

