-- ==== Sys2Proof/Machine/CoreParts.lean ====
section
/-! DEFINITION. The state of one core, Ozhan-C or Ozhan-S (R79-R213). -/

namespace Sys2Proof.Machine

/-- Why a core that runs issues nothing by itself (R111, R148, R198): in cu.wft, in cu.wfi, behind a fence that a trigger by
itself made, at a fence bundle that has not issued, or behind the long operations of some kinds in precise mode. -/
inductive Wait where
  | none | wft | wfi | fence | atFence
  | op (kinds : List Nat)
  deriving DecidableEq, Repr

/-- A fault with what its record and frame need (R189, R192, R234, R235); `sb` marks a BUS fault of the store buffer
(R210), `prec` one that is precise though its bundle has issued (R189, R205), whose record shows the bundle `fbun`. -/
structure CFault where
  code  : Nat
  lane  : Nat
  port  : Nat
  src   : Bool
  addr  : Nat
  info  : Nat
  resp  : Nat
  part  : Bool
  pc    : Nat
  opc   : Nat
  oinfo : Nat
  sb    : Bool
  prec  : Bool
  fbun  : BitVec 128
  deriving DecidableEq, Repr

/-- A fixed-latency operation in flight, or its replay record (R125, R194): a multiplication of a and b, or a load of the
address in a whose word is b. `ctl` is laid out as the record's control word (R201), `left` counts bundles and `again` is
set when a replay runs (R205). -/
structure Flight where
  load : Bool
  a    : TWord
  b    : TWord
  ctl  : Word
  left : Nat
  pc   : Nat
  lane : Nat
  port : Nat
  again : Bool
  deriving DecidableEq, Repr

/-- A long operation running, or its replay record (R126, R194): kind 0 div, 1 itp, 2 seq, 3 rep; `a` the trigger value,
`b` the divisor or handle, `c` the state or the rep control word; `uns` an unsigned division; `since` the cycle in which it
started and `spent` the cycles that the elements of a rep have taken (R166). -/
structure LongOp where
  kind : Nat
  a    : TWord
  b    : TWord
  c    : TWord
  uns  : Bool
  pc   : Nat
  lane : Nat
  port : Nat
  since : Nat
  spent : Nat
  deriving DecidableEq, Repr

/-- An access of a core that holds issue until its response (R137, R138, R198): `resp` a response forced from outside the
target, `done` whether its data has come, `fwd` the value of a load that a buffered store covers (R209), `wake` whether it waits for a
domain that it woke (R285). -/
structure Held where
  write : Bool
  size  : Nat
  addr  : Nat
  data  : TWord
  sx    : Bool
  pc    : Nat
  lane  : Nat
  port  : Nat
  resp  : Option Nat
  done  : Bool
  fwd   : Option TWord
  wake  : Bool
  deriving DecidableEq, Repr

/-- An entry of the Ozhan-S store buffer (R208): a word address, the bytes named by a mask, and whether it is the second
half of a split store. -/
structure StoreEnt where
  addr : Nat
  mask : Word
  data : Word
  half : Bool
  pc   : Nat
  lane : Nat
  port : Nat
  deriving DecidableEq, Repr

/-- The own-SRAM store of the bundle issued last and the cycle of its issue (R217, R218). -/
structure LastStore where
  cyc  : Nat
  bank : Nat
  pc   : Nat
  lane : Nat
  port : Nat
  deriving DecidableEq, Repr

/-- A core. `port` holds operand ports by destination ID and result ports by 128 + source ID; `sys` the stored sys
registers by number (R118, R191); `ds` a transfer target and the delay slots left, `dsAt` the cycle in which the transfer
issued (R176); `held` the access that holds issue and `fheld` those that entries moved into frames, by XSTAT.DEPTH, the newest
first (R198, R201); `btb` targets and their lock, the most recently used first; `queue` the first of the four lines of the line
queue and the last of them whose fetch has been counted (R173, R174), `retq` the first and last lines of the return line buffer (R204)
and `fetchAt` the line that the fetch port requests for a target not yet issued, with the cycle of the request; in prefetch-queue mode
`queue` counts bundles instead of lines, and holds the bundle issued last and the last one kept (R182);
`imprFirst` whether the first imprecise fault was recorded while an access was held, so before a BUS fault (R190);
`busf` a fault that waits for the next bundle, `sbf` one of the store buffer, with whether it was recorded behind such a fault (R210);
`recPend` the replay-pending bits of the frame (R201); `entAt` the cycle in which a long operation's fault entered (R185);
`lpCold` the loop levels whose buffer was emptied (R181), `busId` the ID of its next bus transaction (R628). -/
structure Core where
  g       : SMap TWord
  p       : BitVec 8
  port    : SMap TWord
  valid   : BitVec 128
  sys     : SMap TWord
  modeChg : Option (Nat × Bool)
  pc      : Nat
  ds      : Option (Nat × Nat)
  dsAt    : Nat
  rx      : Bool
  le      : Bool
  run     : Bool
  startPend : Bool
  dfHalt  : Bool
  safeHalt : Bool
  ovr     : Bool
  wait    : Wait
  fl      : List Flight
  long    : List LongOp
  held    : Option Held
  fheld   : List (Nat × Held)
  impr    : List CFault
  imprFirst : Bool
  busf    : Option CFault
  sbf     : Option (CFault × Bool)
  trapNo  : Option Nat
  shadow  : SMap TWord
  shValid : BitVec 128
  replay  : BitVec 128
  recFl   : List Flight
  recLong : List LongOp
  recPend : BitVec 128
  restart : Bool
  shstk   : List Bool
  evecNew : Option Nat
  btb     : List (Nat × Bool)
  queue   : Option (Nat × Nat)
  retq    : Option (Nat × Nat)
  fetchAt : Option (Nat × Nat)
  entAt   : Option Nat
  sbuf    : List StoreEnt
  last    : Option LastStore
  lpCold  : BitVec 2
  busId   : Nat
  deriving DecidableEq, Repr

/-- A core after a reset (R95): every register 0 RAW, result ports invalid, supervisor mode. -/
def Core.reset : Core :=
  { g := [], p := 1, port := [], valid := 0, sys := [], modeChg := none, pc := 0, ds := none, dsAt := 0, rx := false, le := false,
    run := false, startPend := false, dfHalt := false, safeHalt := false, ovr := false, wait := .none, fl := [], long := [],
    held := none, fheld := [], impr := [], imprFirst := false, busf := none, sbf := none, trapNo := none,
    shadow := [], shValid := 0, replay := 0, recFl := [], recLong := [], recPend := 0, restart := false, shstk := [], evecNew := none, btb := [],
    queue := none, retq := none, fetchAt := none, entAt := none, sbuf := [], last := none, lpCold := 0, busId := 0 }

end Sys2Proof.Machine
end

