-- ==== Sys2Proof/Machine/RegTable.lean ====
section
/-! DEFINITION. The register map: for every page its registers, transcribed from the register and field tables of the
chapters (offset, access masks, reset value, reserved codes), and the page list of R36. -/

namespace Sys2Proof.Machine

/-- The codes of a multi-bit field that are reserved (R14). -/
inductive Bad where
  | atLeast (n : Nat)
  | outside (lo hi : Nat)
  | equals (n : Nat)
  | offStep (lo hi step : Nat)
  deriving DecidableEq, Repr

/-- Whether a code is reserved. -/
def badCode : Bad → Nat → Bool
  | .atLeast n, v => decide (n ≤ v)
  | .outside lo hi, v => decide (v < lo) || decide (hi < v)
  | .equals n, v => decide (v = n)
  | .offStep lo hi st, v => decide (v < lo) || decide (hi < v) || decide (v % st ≠ 0)

/-- A field with reserved codes: bits hi to lo. -/
structure Chk where
  hi  : Nat
  lo  : Nat
  bad : Bad
  deriving DecidableEq, Repr

/-- A register, or an array of `count` registers `stride` bytes apart: which bits are RW, W1C and RWO (R11), the reset
value and the fields with reserved codes. Bits in no mask are RO or reserved for a bus write. -/
structure RegSpec where
  off    : Nat
  stride : Nat
  count  : Nat
  rw     : Nat
  w1c    : Nat
  rwo    : Nat
  reset  : Nat
  chk    : List Chk
  deriving DecidableEq, Repr

/-- The kinds of page (R22, R36): a block of several pages has one kind per page where their registers differ. -/
inductive Blk where
  | sys | clk | pwr | rst | tick | tal0 | tal1 | tal2 | tal3 | mbx0 | mbx1 | core | core8 | flc | whs | mtx | dma | mea | trp | stk0 | stk1 | mns | mot | vlv | gio | yok | ldg | nand | lks0 | lks1 | lks2 | lks3 | eth | ptp | can | hsp | svc | dbg
  deriving DecidableEq, Repr

/-- SYS (R560, R561). -/
def specsSys : List RegSpec :=
  [ ⟨0x008, 4, 1, 0, 0, 0, 0, []⟩
  , ⟨0x00C, 4, 1, 0, 0x40000000, 0, 0, []⟩
  , ⟨0x020, 4, 1, 0, 0, 0, 0, []⟩
  , ⟨0x040, 4, 1, 0, 0, 0, 0x00000606, []⟩
  , ⟨0x044, 4, 1, 7, 0, 0, 6, []⟩
  , ⟨0x048, 4, 1, 0, 0, 0, 0, []⟩
  , ⟨0x04C, 4, 1, 15, 0, 0, 0, []⟩
  , ⟨0x050, 4, 1, 1, 0, 0, 0, []⟩
  , ⟨0x054, 4, 1, 0, 0, 0, 0, []⟩
  , ⟨0x058, 4, 1, 0xFFFFFFFF, 0, 0, 0x0001C138, []⟩
  , ⟨0x05C, 4, 1, 0, 0x80000000, 0, 0, []⟩
  , ⟨0x060, 4, 1, 0xFFFFFFFF, 0, 0, 0, []⟩
  , ⟨0x064, 4, 1, 0, 0, 0, 0, []⟩
  , ⟨0x068, 4, 1, 0, 0, 0, 0, []⟩ ]

/-- CLK (R562, R563). -/
def specsClk : List RegSpec :=
  [ ⟨0x008, 4, 1, 0, 0, 0, 0, []⟩
  , ⟨0x00C, 4, 1, 0, 0x40000020, 0, 15, []⟩
  , ⟨0x020, 4, 1, 0, 15, 0, 0, []⟩
  , ⟨0x040, 4, 1, 3, 0, 0, 3, []⟩
  , ⟨0x044, 4, 1, 0x03330333, 0, 0, 0x00110000, [⟨25, 24, .atLeast 2⟩, ⟨21, 20, .atLeast 2⟩, ⟨17, 16, .atLeast 2⟩, ⟨9, 8, .atLeast 2⟩, ⟨5, 4, .atLeast 2⟩, ⟨1, 0, .atLeast 2⟩]⟩
  , ⟨0x048, 4, 2, 1, 0, 0, 1, []⟩
  , ⟨0x050, 4, 2, 0, 0, 0, 1, []⟩
  , ⟨0x058, 4, 1, 0, 0, 0x000000FF, 0x00000014, [⟨7, 0, .outside 1 255⟩]⟩
  , ⟨0x060, 4, 4, 0, 0, 0, 0, []⟩
  , ⟨0x070, 4, 3, 0xFFFFFFFF, 0, 0, 0, []⟩
  , ⟨0x07C, 4, 3, 0xFFFFFFFF, 0, 0, 0, []⟩
  , ⟨0x088, 4, 1, 0, 0, 0, 0, []⟩ ]

/-- PWR (R564, R565). -/
def specsPwr : List RegSpec :=
  [ ⟨0x008, 4, 1, 0, 0, 0, 0, []⟩
  , ⟨0x00C, 4, 1, 0, 0x40000000, 0, 0, []⟩
  , ⟨0x020, 4, 1, 0, 3, 0, 0, []⟩
  , ⟨0x040, 4, 1, 0xFFFFFFFF, 0, 0, 0x81FE0100, []⟩
  , ⟨0x04C, 4, 1, 0, 0, 0, 0x81FE0100, []⟩
  , ⟨0x044, 4, 1, 0xFFFFFFFF, 0, 0, 0x00000180, []⟩
  , ⟨0x050, 4, 1, 0, 0, 0, 0x00000180, []⟩
  , ⟨0x048, 4, 1, 0xFFFFFFFF, 0, 0, 0, []⟩
  , ⟨0x054, 4, 1, 0, 0, 0, 0, []⟩
  , ⟨0x058, 4, 1, 0xFFFFFFFF, 0, 0, 0xFFFFFE00, []⟩
  , ⟨0x05C, 4, 1, 0xFFFFFFFF, 0, 0, 0xFFFFFE7F, []⟩
  , ⟨0x060, 4, 1, 0xFFFFFFFF, 0, 0, 0xFFFFFFFF, []⟩
  , ⟨0x064, 4, 3, 0, 0xFFFFFFFF, 0, 0, []⟩
  , ⟨0x070, 4, 3, 0xFFFFFFFF, 0, 0, 0, []⟩
  , ⟨0x07C, 4, 1, 0, 0x80000000, 0, 0, []⟩
  , ⟨0x080, 4, 1, 0, 0, 0, 0, []⟩
  , ⟨0x084, 4, 1, 0, 0, 0, 0, []⟩ ]

/-- RST (R566). -/
def specsRst : List RegSpec :=
  [ ⟨0x008, 4, 1, 0, 0, 0, 0, []⟩
  , ⟨0x00C, 4, 1, 0, 0x40000000, 0, 0, []⟩
  , ⟨0x020, 4, 1, 0, 3, 0, 0, []⟩
  , ⟨0x040, 4, 1, 0, 0x0000007F, 0, 0, []⟩
  , ⟨0x044, 4, 1, 0, 0, 0, 0, []⟩
  , ⟨0x048, 4, 3, 0, 0, 0, 0, []⟩
  , ⟨0x054, 4, 1, 0, 0, 0x8000FFFF, 0, []⟩
  , ⟨0x058, 4, 1, 0, 0, 0, 0, []⟩
  , ⟨0x05C, 4, 1, 0, 0, 0, 0, []⟩
  , ⟨0x060, 4, 1, 0, 0x80000000, 0, 0, []⟩ ]

/-- TICK (R75, R76). A TICK_DROP or TICK_MAINSDIV outside the range that R75 states counts as a reserved code (DESIGN CHOICE, log
entry 122). -/
def specsTick : List RegSpec :=
  [ ⟨0x008, 4, 1, 3, 0, 0, 0, []⟩
  , ⟨0x00C, 4, 1, 0, 0x40000000, 0, 0, []⟩
  , ⟨0x020, 4, 1, 0, 0x0003FFFF, 0, 0, []⟩
  , ⟨0x040, 4, 1, 0x00000037, 0, 0, 0, [⟨5, 4, .atLeast 3⟩, ⟨2, 0, .atLeast 4⟩]⟩
  , ⟨0x044, 4, 1, 0x0007FFFF, 0, 0, 0x00009C40, [⟨18, 0, .offStep 10000 400000 125⟩]⟩
  , ⟨0x048, 4, 1, 0x00003FFF, 0, 0, 0x00000640, [⟨13, 0, .outside 64 16000⟩]⟩
  , ⟨0x04C, 4, 1, 0x0007FFFF, 0, 0, 0x00000C80, []⟩
  , ⟨0x050, 4, 1, 0x000003FF, 0, 0, 0x000000C8, [⟨9, 0, .outside 10 1000⟩]⟩
  , ⟨0x054, 4, 1, 0x0007FFFF, 0, 0, 0x00009470, []⟩
  , ⟨0x058, 4, 1, 0x0007FFFF, 0, 0, 0x0000A410, []⟩
  , ⟨0x05C, 4, 1, 0x000000FF, 0, 0, 4, []⟩
  , ⟨0x060, 4, 1, 0xFFFFFFFF, 0, 0, 0, []⟩
  , ⟨0x064, 4, 1, 0, 0, 0, 0, []⟩
  , ⟨0x068, 4, 1, 0, 0, 0, 0, []⟩
  , ⟨0x06C, 4, 1, 0, 0, 0, 0, []⟩
  , ⟨0x070, 4, 1, 0, 0, 0, 0, []⟩
  , ⟨0x074, 4, 1, 0, 0, 0, 0, []⟩
  , ⟨0x078, 4, 1, 0, 0, 0, 0x00000028, []⟩
  , ⟨0x07C, 4, 1, 0, 0, 0, 0, []⟩
  , ⟨0x080, 4, 1, 15, 0, 0, 3, [⟨3, 0, .outside 1 15⟩]⟩
  , ⟨0x084, 4, 1, 0x0007FFFF, 0, 0, 0x00000320, []⟩
  , ⟨0x088, 4, 1, 0x000000FF, 0, 0, 0, []⟩
  , ⟨0x08C, 4, 1, 0, 0, 0, 0, []⟩
  , ⟨0x090, 4, 1, 0, 0, 0, 0, []⟩
  , ⟨0x094, 4, 1, 0, 0, 0, 0, []⟩
  , ⟨0x098, 4, 1, 0, 0, 0, 0, []⟩
  , ⟨0x0A0, 4, 8, 0x0007FFFF, 0, 0, 0, []⟩
  , ⟨0x0C0, 4, 8, 0, 0, 0, 0, []⟩
  , ⟨0x0E0, 4, 8, 0x0007FFFF, 0, 0, 0, []⟩
  , ⟨0x100, 4, 8, 0, 0, 0, 0, []⟩
  , ⟨0x120, 4, 8, 0, 0, 0, 0, []⟩
  , ⟨0x140, 4, 8, 0x0003FC03, 0, 0, 0, []⟩
  , ⟨0x200, 4, 48, 0xFFFFFFFF, 0, 0, 0, []⟩ ]

/-- TAL page 0 (R312). -/
def specsTal0 : List RegSpec :=
  [ ⟨0x008, 4, 1, 0, 0, 0, 0, []⟩
  , ⟨0x00C, 4, 1, 0, 0x40000000, 0, 0, []⟩
  , ⟨0x020, 4, 1, 0, 1, 0, 0, []⟩
  , ⟨0x040, 4, 9, 0, 0, 0, 0, []⟩
  , ⟨0x080, 4, 1, 7, 0, 0, 0, []⟩
  , ⟨0x084, 4, 1, 0, 0x80000000, 0, 0, []⟩ ]

/-- TAL page 1 (R297, R302, R312): the EDGE, PRI and fixed ROUTE bits of the non-maskable sources are read-only. -/
def specsTal1 : List RegSpec :=
  [ ⟨0x040, 4, 1, 0x00FFFF00, 0, 0, 0x79080879, [⟨3, 0, .atLeast 11⟩, ⟨11, 8, .atLeast 11⟩, ⟨19, 16, .atLeast 11⟩, ⟨27, 24, .atLeast 11⟩]⟩
  , ⟨0x044, 4, 1, 0xFFFFFF00, 0, 0, 0x08080879, [⟨3, 0, .atLeast 11⟩, ⟨11, 8, .atLeast 11⟩, ⟨19, 16, .atLeast 11⟩, ⟨27, 24, .atLeast 11⟩]⟩
  , ⟨0x064, 4, 1, 0x00FFFFFF, 0, 0, 0x79080808, [⟨3, 0, .atLeast 11⟩, ⟨11, 8, .atLeast 11⟩, ⟨19, 16, .atLeast 11⟩, ⟨27, 24, .atLeast 11⟩]⟩
  , ⟨0x1B8, 4, 1, 0x0F0F0F0F, 0, 0, 0x78787878, [⟨3, 0, .atLeast 11⟩, ⟨11, 8, .atLeast 11⟩, ⟨19, 16, .atLeast 11⟩, ⟨27, 24, .atLeast 11⟩]⟩
  , ⟨0x1BC, 4, 1, 0x0F0F0F0F, 0, 0, 0x78787878, [⟨3, 0, .atLeast 11⟩, ⟨11, 8, .atLeast 11⟩, ⟨19, 16, .atLeast 11⟩, ⟨27, 24, .atLeast 11⟩]⟩
  , ⟨0x1C0, 4, 1, 0x0F0F0F0F, 0, 0, 0x78787878, [⟨3, 0, .atLeast 11⟩, ⟨11, 8, .atLeast 11⟩, ⟨19, 16, .atLeast 11⟩, ⟨27, 24, .atLeast 11⟩]⟩
  , ⟨0x1C4, 4, 1, 0x0F0F0F0F, 0, 0, 0x78787878, [⟨3, 0, .atLeast 11⟩, ⟨11, 8, .atLeast 11⟩, ⟨19, 16, .atLeast 11⟩, ⟨27, 24, .atLeast 11⟩]⟩
  , ⟨0x040, 4, 128, 0xFFFFFFFF, 0, 0, 0x08080808, [⟨3, 0, .atLeast 11⟩, ⟨11, 8, .atLeast 11⟩, ⟨19, 16, .atLeast 11⟩, ⟨27, 24, .atLeast 11⟩]⟩ ]

/-- TAL page 2 (R302, R312): the enables of the non-maskable sources are read-only. -/
def specsTal2 : List RegSpec :=
  [ ⟨0x040, 4, 1, 0xFFFFFFE6, 0, 0, 0x00000019, []⟩
  , ⟨0x044, 4, 1, 0xFFFFFF7F, 0, 0, 0x00000080, []⟩
  , ⟨0x06C, 4, 1, 0x00FFFFFF, 0, 0, 0xFF000000, []⟩
  , ⟨0x070, 4, 1, 0xFFFFFF00, 0, 0, 0x000000FF, []⟩
  , ⟨0x040, 4, 16, 0xFFFFFFFF, 0, 0, 0, []⟩
  , ⟨0x080, 4, 16, 0, 0, 0, 0, []⟩
  , ⟨0x0C0, 4, 16, 0, 0, 0, 0, []⟩
  , ⟨0x100, 4, 16, 0, 0, 0, 0, []⟩
  , ⟨0x140, 4, 16, 0xFFFFFFFF, 0, 0, 0, []⟩ ]

/-- TAL page 3 (R312). -/
def specsTal3 : List RegSpec :=
  [ ⟨0x040, 4, 1, 3, 0, 0, 0, []⟩
  , ⟨0x044, 4, 1, 0, 0, 0, 0, []⟩
  , ⟨0x080, 8, 32, 0, 0, 0, 0, []⟩
  , ⟨0x084, 8, 32, 0, 0, 0, 0, []⟩ ]

/-- MBX page 0 (R313). -/
def specsMbx0 : List RegSpec :=
  [ ⟨0x008, 4, 1, 0, 0, 0, 0, []⟩
  , ⟨0x00C, 4, 1, 0, 0x40000000, 0, 0, []⟩
  , ⟨0x020, 4, 1, 0, 0, 0, 0, []⟩
  , ⟨0x040, 64, 12, 0x0000001F, 0, 0, 8, [⟨3, 0, .atLeast 11⟩]⟩
  , ⟨0x044, 64, 12, 0, 0x60000000, 0, 0, []⟩
  , ⟨0x048, 64, 12, 0, 0, 0, 0, []⟩
  , ⟨0x04C, 64, 12, 0, 0, 0, 0, []⟩
  , ⟨0x050, 64, 12, 0, 0xFFFFFFFF, 0, 0, []⟩
  , ⟨0x054, 64, 12, 0xFFFFFFFF, 0, 0, 0xFFFFFFFF, []⟩
  , ⟨0x058, 64, 12, 0, 0, 0, 0, []⟩
  , ⟨0x060, 64, 12, 0xFFFFFFFF, 0, 0, 0, []⟩
  , ⟨0x064, 64, 12, 0xFFFFFFFF, 0, 0, 0, []⟩
  , ⟨0x068, 64, 12, 0xFFFFFFFF, 0, 0, 0, []⟩
  , ⟨0x06C, 64, 12, 0xFFFFFFFF, 0, 0, 0, []⟩
  , ⟨0x070, 64, 12, 0xFFFFFFFF, 0, 0, 0, []⟩
  , ⟨0x074, 64, 12, 0xFFFFFFFF, 0, 0, 0, []⟩
  , ⟨0x078, 64, 12, 0xFFFFFFFF, 0, 0, 0, []⟩
  , ⟨0x07C, 64, 12, 0xFFFFFFFF, 0, 0, 0, []⟩
  , ⟨0x340, 4, 1, 0, 0x00FFFFFF, 0, 0, []⟩ ]

/-- MBX page 1 (R313). -/
def specsMbx1 : List RegSpec :=
  [ ⟨0x040, 64, 12, 0x0000001F, 0, 0, 8, [⟨3, 0, .atLeast 11⟩]⟩
  , ⟨0x044, 64, 12, 0, 0x60000000, 0, 0, []⟩
  , ⟨0x048, 64, 12, 0, 0, 0, 0, []⟩
  , ⟨0x04C, 64, 12, 0, 0, 0, 0, []⟩
  , ⟨0x050, 64, 12, 0, 0xFFFFFFFF, 0, 0, []⟩
  , ⟨0x054, 64, 12, 0xFFFFFFFF, 0, 0, 0xFFFFFFFF, []⟩
  , ⟨0x058, 64, 12, 0, 0, 0, 0, []⟩
  , ⟨0x060, 64, 12, 0xFFFFFFFF, 0, 0, 0, []⟩
  , ⟨0x064, 64, 12, 0xFFFFFFFF, 0, 0, 0, []⟩
  , ⟨0x068, 64, 12, 0xFFFFFFFF, 0, 0, 0, []⟩
  , ⟨0x06C, 64, 12, 0xFFFFFFFF, 0, 0, 0, []⟩
  , ⟨0x070, 64, 12, 0xFFFFFFFF, 0, 0, 0, []⟩
  , ⟨0x074, 64, 12, 0xFFFFFFFF, 0, 0, 0, []⟩
  , ⟨0x078, 64, 12, 0xFFFFFFFF, 0, 0, 0, []⟩
  , ⟨0x07C, 64, 12, 0xFFFFFFFF, 0, 0, 0, []⟩ ]

/-- CORE k, Ozhan-C (R211, R212, R234, R235). -/
def specsCore : List RegSpec :=
  [ ⟨0x008, 4, 1, 0x0000007F, 0, 0, 8, []⟩
  , ⟨0x00C, 4, 1, 0, 0x40000100, 0, 8, []⟩
  , ⟨0x020, 4, 1, 0, 3, 0, 0, []⟩
  , ⟨0x040, 4, 1, 0xFFFFFFF0, 0, 0, 0, []⟩
  , ⟨0x044, 4, 1, 0, 0, 0, 0, []⟩
  , ⟨0x048, 4, 1, 0xFFFFFFF0, 0, 0, 0, []⟩
  , ⟨0x04C, 4, 1, 0, 0, 0, 0, []⟩
  , ⟨0x050, 4, 1, 0xFFFFFFFF, 0, 0, 0, []⟩
  , ⟨0x054, 4, 1, 0xFFFFFFFF, 0, 0, 0, []⟩
  , ⟨0x058, 4, 1, 0, 0, 0, 0, []⟩
  , ⟨0x05C, 4, 1, 0, 0, 0, 0, []⟩
  , ⟨0x100, 4, 1, 0, 0x80000000, 0, 0, []⟩
  , ⟨0x104, 4, 1, 0, 0, 0, 0, []⟩
  , ⟨0x108, 4, 1, 0, 0, 0, 0, []⟩
  , ⟨0x10C, 4, 1, 0, 0, 0, 0, []⟩
  , ⟨0x110, 4, 1, 0, 0, 0, 0, []⟩
  , ⟨0x114, 4, 1, 0, 0, 0, 0, []⟩
  , ⟨0x118, 4, 1, 0, 0, 0, 0, []⟩
  , ⟨0x11C, 4, 1, 0, 0, 0, 0, []⟩
  , ⟨0x120, 4, 4, 0, 0, 0, 0, []⟩
  , ⟨0x130, 4, 1, 0x0000FFFF, 0, 0, 0, []⟩
  , ⟨0x134, 4, 1, 0, 0x0173FFF8, 0, 0, []⟩
  , ⟨0x13C, 4, 1, 3, 0, 0, 0, []⟩ ]

/-- CORE 8, Ozhan-S. -/
def specsCore8 : List RegSpec :=
  [ ⟨0x008, 4, 1, 0x0000007F, 0, 0, 8, []⟩
  , ⟨0x00C, 4, 1, 0, 0x40000100, 0, 8, []⟩
  , ⟨0x020, 4, 1, 0, 3, 0, 0, []⟩
  , ⟨0x040, 4, 1, 0xFFFFFFF0, 0, 0, 0, []⟩
  , ⟨0x044, 4, 1, 0, 0, 0, 0, []⟩
  , ⟨0x048, 4, 1, 0xFFFFFFF0, 0, 0, 0, []⟩
  , ⟨0x04C, 4, 1, 0, 0, 0, 0, []⟩
  , ⟨0x050, 4, 1, 0xFFFFFFFF, 0, 0, 0, []⟩
  , ⟨0x054, 4, 1, 0xFFFFFFFF, 0, 0, 0, []⟩
  , ⟨0x058, 4, 1, 0, 0, 0, 0, []⟩
  , ⟨0x05C, 4, 1, 0, 0, 0, 0, []⟩
  , ⟨0x100, 4, 1, 0, 0x80000000, 0, 0, []⟩
  , ⟨0x104, 4, 1, 0, 0, 0, 0, []⟩
  , ⟨0x108, 4, 1, 0, 0, 0, 0, []⟩
  , ⟨0x10C, 4, 1, 0, 0, 0, 0, []⟩
  , ⟨0x110, 4, 1, 0, 0, 0, 0, []⟩
  , ⟨0x114, 4, 1, 0, 0, 0, 0, []⟩
  , ⟨0x118, 4, 1, 0, 0, 0, 0, []⟩
  , ⟨0x11C, 4, 1, 0, 0, 0, 0, []⟩
  , ⟨0x120, 4, 4, 0, 0, 0, 0, []⟩
  , ⟨0x130, 4, 1, 0x0000FFFF, 0, 0, 0, []⟩
  , ⟨0x134, 4, 1, 0, 0x0173FFF8, 0, 0, []⟩
  , ⟨0x13C, 4, 1, 1, 0, 0, 0, []⟩ ]

/-- FLC (R268, R270). -/
def specsFlc : List RegSpec :=
  [ ⟨0x008, 4, 1, 0, 0, 0, 0, []⟩
  , ⟨0x00C, 4, 1, 0, 0x40000000, 0, 0, []⟩
  , ⟨0x020, 4, 1, 0, 0x0000003F, 0, 0, []⟩
  , ⟨0x040, 4, 1, 7, 0, 0, 0, [⟨2, 0, .atLeast 5⟩]⟩
  , ⟨0x044, 4, 1, 0xFFFFFFFF, 0, 0, 0, []⟩
  , ⟨0x048, 4, 1, 0, 0, 0, 0, []⟩
  , ⟨0x04C, 4, 1, 0xFFFFFFFF, 0, 0, 0, []⟩
  , ⟨0x050, 4, 1, 0, 0, 0, 0, []⟩
  , ⟨0x100, 4, 32, 0xFFFFFFFF, 0, 0, 0, []⟩ ]

/-- WHS (R272, R273). -/
def specsWhs : List RegSpec :=
  [ ⟨0x008, 4, 1, 7, 0, 0, 0, []⟩
  , ⟨0x00C, 4, 1, 0, 0x40000000, 0, 0, []⟩
  , ⟨0x020, 4, 1, 0, 15, 0, 0, []⟩
  , ⟨0x040, 4, 1, 0x000003FF, 0, 0, 0x000003FF, []⟩
  , ⟨0x044, 4, 1, 0x000FFFFF, 0, 0, 0x00002EE0, []⟩
  , ⟨0x048, 4, 1, 0x0000FFFF, 0, 0, 0x00002000, [⟨15, 0, .outside 1 65535⟩]⟩
  , ⟨0x04C, 4, 1, 0, 0, 0, 0, []⟩
  , ⟨0x050, 4, 1, 0, 0, 0, 0, []⟩
  , ⟨0x054, 4, 1, 0, 0, 0, 0, []⟩
  , ⟨0x058, 4, 1, 0xFFFFFFFF, 0, 0, 0, []⟩
  , ⟨0x05C, 4, 1, 0, 0, 0, 0, []⟩
  , ⟨0x060, 4, 1, 0, 0, 0, 0, []⟩
  , ⟨0x064, 4, 1, 0x000003FF, 0, 0, 0x000000FF, []⟩
  , ⟨0x068, 4, 1, 0, 0, 0, 0, []⟩
  , ⟨0x06C, 4, 1, 0xFFFFFFFF, 0, 0, 0, []⟩
  , ⟨0x070, 4, 1, 0xFFFFFFFF, 0, 0, 0, []⟩
  , ⟨0x074, 4, 1, 0, 0, 0, 0, []⟩
  , ⟨0x078, 4, 1, 0, 0, 0, 0, []⟩
  , ⟨0x07C, 4, 1, 0x0000FFFF, 0, 0, 0x00000040, [⟨15, 0, .outside 1 65535⟩]⟩
  , ⟨0x080, 4, 1, 0, 0, 0, 0, []⟩
  , ⟨0x084, 4, 1, 0, 0, 0, 0, []⟩ ]

/-- MTX (R37, R310). -/
def specsMtx : List RegSpec :=
  [ ⟨0x008, 4, 1, 0, 0, 0, 0, []⟩
  , ⟨0x00C, 4, 1, 0, 0x40000000, 0, 0, []⟩
  , ⟨0x020, 4, 1, 0, 7, 0, 0, []⟩
  , ⟨0x040, 4, 1, 15, 0, 0, 12, []⟩
  , ⟨0x044, 4, 1, 15, 0, 0, 12, []⟩
  , ⟨0x048, 4, 1, 15, 0, 0, 12, []⟩
  , ⟨0x04C, 4, 1, 15, 0, 0, 12, []⟩
  , ⟨0x050, 4, 1, 15, 0, 0, 12, []⟩
  , ⟨0x054, 4, 1, 15, 0, 0, 12, []⟩
  , ⟨0x058, 4, 1, 15, 0, 0, 12, []⟩
  , ⟨0x05C, 4, 1, 15, 0, 0, 12, []⟩
  , ⟨0x060, 4, 1, 15, 0, 0, 10, []⟩
  , ⟨0x064, 4, 1, 15, 0, 0, 4, []⟩
  , ⟨0x068, 4, 1, 15, 0, 0, 4, []⟩
  , ⟨0x06C, 4, 1, 15, 0, 0, 14, []⟩
  , ⟨0x070, 4, 1, 15, 0, 0, 2, []⟩
  , ⟨0x074, 4, 1, 15, 0, 0, 8, []⟩
  , ⟨0x078, 4, 1, 15, 0, 0, 13, []⟩
  , ⟨0x07C, 4, 1, 15, 0, 0, 6, []⟩
  , ⟨0x080, 4, 1, 0x0000FFFF, 0, 0, 0x00000800, [⟨15, 0, .outside 16 65535⟩]⟩
  , ⟨0x084, 4, 1, 0, 0x80000000, 0, 0, []⟩
  , ⟨0x088, 4, 1, 0, 0, 0, 0, []⟩
  , ⟨0x08C, 4, 1, 0, 0x80000000, 0, 0, []⟩
  , ⟨0x090, 4, 1, 0, 0, 0, 0, []⟩
  , ⟨0x094, 4, 1, 0, 0x80000000, 0, 0, []⟩
  , ⟨0x098, 4, 1, 0, 0, 0, 0, []⟩
  , ⟨0x0A0, 4, 1, 0, 0, 0, 0, []⟩
  , ⟨0x0A4, 4, 1, 0, 0, 0, 0, []⟩ ]

/-- DMA (R311). -/
def specsDma : List RegSpec :=
  [ ⟨0x008, 4, 1, 1, 0, 0, 0, []⟩
  , ⟨0x00C, 4, 1, 0, 0x40000000, 0, 0, []⟩
  , ⟨0x020, 4, 1, 0, 0, 0, 0, []⟩
  , ⟨0x040, 4, 1, 0, 0x000000FF, 0, 0, []⟩
  , ⟨0x044, 4, 1, 0, 0x000000FF, 0, 0, []⟩
  , ⟨0x100, 32, 8, 0xFFFFFFE0, 0, 0, 0, []⟩
  , ⟨0x104, 32, 8, 7, 0, 0, 0, []⟩
  , ⟨0x108, 32, 8, 0, 0, 0, 0, []⟩
  , ⟨0x10C, 32, 8, 0, 0, 0, 0, []⟩
  , ⟨0x110, 32, 8, 0, 0, 0, 0, []⟩
  , ⟨0x114, 32, 8, 0x0000FFFF, 0, 0, 0, []⟩ ]

/-- MEA (R354, R355). -/
def specsMea : List RegSpec :=
  [ ⟨0x008, 4, 1, 5, 0, 0, 0, []⟩
  , ⟨0x00C, 4, 1, 0, 0x40000000, 0, 0, []⟩
  , ⟨0x020, 4, 1, 0, 0x0000001F, 0, 0, []⟩
  , ⟨0x040, 4, 2, 0, 0, 0, 0, []⟩
  , ⟨0x048, 4, 2, 0xFFFFFFFF, 0, 0, 0, []⟩
  , ⟨0x050, 4, 1, 0, 0, 0, 0, []⟩
  , ⟨0x054, 4, 1, 0x0000FFFF, 0, 0, 0x000001F4, [⟨15, 0, .outside 1 65535⟩]⟩
  , ⟨0x058, 4, 1, 0x00FF03FF, 0, 0, 0x00190110, [⟨9, 8, .atLeast 3⟩, ⟨7, 0, .outside 4 64⟩]⟩
  , ⟨0x05C, 4, 1, 0x800003FF, 0, 0, 0, []⟩
  , ⟨0x060, 4, 1, 0, 0, 0, 0, []⟩
  , ⟨0x064, 4, 1, 0x80FFFFFF, 0, 0, 0x00000064, [⟨15, 0, .outside 1 65535⟩]⟩
  , ⟨0x068, 4, 1, 0, 0, 0, 0, []⟩
  , ⟨0x100, 64, 8, 0x87FF077F, 0, 0, 0, [⟨23, 22, .atLeast 3⟩, ⟨21, 20, .atLeast 3⟩, ⟨19, 16, .equals 14⟩, ⟨6, 4, .atLeast 7⟩, ⟨3, 0, .atLeast 9⟩]⟩
  , ⟨0x104, 64, 8, 0xFFFFFFFF, 0, 0, 0, []⟩
  , ⟨0x108, 64, 8, 0xFFFFFFFF, 0, 0, 0x01000000, []⟩
  , ⟨0x10C, 64, 8, 0x83FF03FF, 0, 0, 0, []⟩
  , ⟨0x110, 64, 8, 0xFFFFFFFF, 0, 0, 0x80000000, []⟩
  , ⟨0x114, 64, 8, 0xFFFFFFFF, 0, 0, 0x7FFFFFFF, []⟩
  , ⟨0x118, 64, 8, 0, 0, 0, 0, []⟩
  , ⟨0x11C, 64, 8, 0, 0x00000FFE, 0, 0xF0010000, []⟩
  , ⟨0x120, 64, 8, 0, 0, 0, 0, []⟩
  , ⟨0x124, 64, 8, 0, 0, 0, 0, []⟩
  , ⟨0x128, 64, 8, 0, 0, 0, 0, []⟩
  , ⟨0x12C, 64, 8, 0xFFFFFFFF, 0, 0, 0, []⟩ ]

/-- TRP (R357, R358). -/
def specsTrp : List RegSpec :=
  [ ⟨0x008, 4, 1, 1, 0, 0, 0, []⟩
  , ⟨0x00C, 4, 1, 0, 0x40000000, 0, 0, []⟩
  , ⟨0x020, 4, 1, 0, 15, 0, 0, []⟩
  , ⟨0x040, 4, 16, 0x8FFFFFFF, 0, 0, 0, [⟨23, 16, .atLeast 192⟩]⟩
  , ⟨0x080, 4, 8, 0x0F00000F, 0, 0, 1, [⟨3, 2, .atLeast 3⟩]⟩
  , ⟨0x0A0, 4, 1, 0, 0, 0, 0, []⟩
  , ⟨0x0A4, 4, 1, 0, 0, 0, 0, []⟩
  , ⟨0x0A8, 4, 1, 0, 0, 0, 0, []⟩
  , ⟨0x0AC, 4, 1, 0, 0, 0, 0, []⟩
  , ⟨0x0B0, 4, 1, 0, 0, 1, 0, []⟩
  , ⟨0x0C0, 4, 16, 0, 0x80000000, 0, 0, []⟩
  , ⟨0x100, 4, 16, 0, 0, 0, 0, []⟩
  , ⟨0x140, 4, 16, 0, 0, 0, 0, []⟩
  , ⟨0x180, 4, 3, 0xFFFFFFFF, 0, 0, 0xFFFFFFFF, []⟩
  , ⟨0x18C, 4, 1, 0x00FFFFFF, 0, 0, 0x00FFFFFF, []⟩
  , ⟨0x190, 16, 15, 0xFFFFFFFF, 0, 0, 0, []⟩
  , ⟨0x194, 16, 15, 0xFFFFFFFF, 0, 0, 0, []⟩
  , ⟨0x198, 16, 15, 0xFFFFFFFF, 0, 0, 0, []⟩
  , ⟨0x19C, 16, 15, 0x00FFFFFF, 0, 0, 0, []⟩ ]

/-- STK page 0 (R395, R396). -/
def specsStk0 : List RegSpec :=
  [ ⟨0x008, 4, 1, 1, 0, 0, 0, []⟩
  , ⟨0x00C, 4, 1, 0, 0x40000000, 0, 0, []⟩
  , ⟨0x020, 4, 1, 0, 7, 0, 0, []⟩
  , ⟨0x040, 4, 3, 0x0000FFFF, 0, 0, 0, []⟩
  , ⟨0x050, 4, 3, 0x0000FFFF, 0, 0, 0x0000FFFF, []⟩
  , ⟨0x05C, 4, 1, 0x0000FFFF, 0, 0, 0, []⟩
  , ⟨0x060, 4, 3, 0x0000FFFF, 0, 0, 0, []⟩
  , ⟨0x070, 4, 3, 0xFFFFFFFF, 0, 0, 0, []⟩
  , ⟨0x080, 4, 3, 0x0000FFFF, 0, 0, 0x000008FC, []⟩
  , ⟨0x090, 4, 3, 0, 0, 0, 0, []⟩
  , ⟨0x0A0, 4, 3, 0, 0, 0, 0, []⟩
  , ⟨0x0B0, 4, 1, 0x0000FFFF, 0, 0, 0x000000C8, [⟨15, 0, .outside 50 2000⟩]⟩
  , ⟨0x0B4, 4, 1, 0x0000007F, 0, 0, 0x00000040, [⟨6, 0, .outside 1 64⟩]⟩
  , ⟨0x0B8, 4, 1, 0, 0, 0, 0, []⟩
  , ⟨0x0BC, 4, 1, 0xFFFF00FF, 0, 0, 0x012C0000, []⟩
  , ⟨0x100, 4, 64, 0xFFF003FF, 0, 0, 1, [⟨31, 28, .atLeast 9⟩, ⟨27, 26, .atLeast 3⟩, ⟨9, 0, .outside 1 630⟩]⟩
  , ⟨0x200, 4, 64, 0x3F3FFFFF, 0, 0, 0x0100020A, [⟨29, 24, .outside 1 63⟩, ⟨15, 8, .outside 2 255⟩, ⟨7, 0, .outside 1 255⟩]⟩
  , ⟨0x300, 4, 64, 0xFFFFFFFF, 0, 0, 0, []⟩ ]

/-- STK page 1 (R395). -/
def specsStk1 : List RegSpec :=
  [ ⟨0x040, 4, 64, 0, 0, 0, 0, []⟩
  , ⟨0x140, 4, 64, 0, 0, 0, 0, []⟩
  , ⟨0x240, 4, 64, 0, 0, 0, 0, []⟩
  , ⟨0x340, 4, 2, 0, 0, 0, 0, []⟩
  , ⟨0x348, 4, 2, 0, 0xFFFFFFFF, 0, 0, []⟩
  , ⟨0x350, 4, 2, 0, 0xFFFFFFFF, 0, 0, []⟩
  , ⟨0x358, 4, 2, 0, 0xFFFFFFFF, 0, 0, []⟩
  , ⟨0x360, 4, 2, 0, 0xFFFFFFFF, 0, 0, []⟩
  , ⟨0x368, 4, 2, 0xFFFFFFFF, 0, 0, 0, []⟩ ]

/-- MNS (R398). -/
def specsMns : List RegSpec :=
  [ ⟨0x008, 4, 1, 0, 0, 0, 0, []⟩
  , ⟨0x00C, 4, 1, 0, 0x40000000, 0, 0, []⟩
  , ⟨0x020, 4, 1, 0, 0x0000001F, 0, 0, []⟩
  , ⟨0x040, 4, 1, 0x00030377, 0, 0, 0x00020020, [⟨17, 16, .atLeast 3⟩, ⟨9, 8, .atLeast 3⟩, ⟨6, 4, .atLeast 4⟩]⟩
  , ⟨0x044, 4, 3, 0x0000FFFF, 0, 0, 0, []⟩
  , ⟨0x050, 4, 3, 0, 0, 0, 0, []⟩
  , ⟨0x05C, 4, 3, 0, 0, 0, 0, []⟩
  , ⟨0x068, 4, 3, 0, 0, 0, 0, []⟩
  , ⟨0x074, 4, 3, 0, 0, 0, 0, []⟩
  , ⟨0x080, 4, 1, 0, 0, 0, 0, []⟩
  , ⟨0x084, 4, 3, 0, 0, 0, 0, []⟩ ]

/-- MOT (R399). -/
def specsMot : List RegSpec :=
  [ ⟨0x008, 4, 1, 0, 0, 0, 0, []⟩
  , ⟨0x00C, 4, 1, 0, 0x40000000, 0, 0, []⟩
  , ⟨0x020, 4, 1, 0, 3, 0, 0, []⟩
  , ⟨0x040, 4, 1, 0xFF80003F, 0, 0, 0, [⟨31, 28, .atLeast 9⟩, ⟨25, 24, .atLeast 2⟩]⟩
  , ⟨0x044, 4, 1, 0x0000FFFF, 0, 0, 0x00002710, [⟨15, 0, .outside 200 65535⟩]⟩
  , ⟨0x048, 4, 1, 0x03FF03FF, 0, 0, 0x00500050, []⟩
  , ⟨0x04C, 4, 1, 0x000003FF, 0, 0, 0x00000028, []⟩
  , ⟨0x050, 4, 3, 0, 0, 0, 0, []⟩
  , ⟨0x05C, 4, 1, 0, 0, 0, 0, []⟩
  , ⟨0x060, 4, 3, 0, 0, 0, 0, []⟩
  , ⟨0x06C, 4, 1, 0, 0, 0, 0, []⟩
  , ⟨0x070, 4, 1, 0, 0, 0, 0, []⟩ ]

/-- VLV (R400). -/
def specsVlv : List RegSpec :=
  [ ⟨0x008, 4, 1, 0, 0, 0, 0, []⟩
  , ⟨0x00C, 4, 1, 0, 0x40000000, 0, 0, []⟩
  , ⟨0x020, 4, 1, 0, 1, 0, 0, []⟩
  , ⟨0x040, 4, 1, 0x0000FFFF, 0, 0, 0x00004E20, [⟨15, 0, .outside 400 65535⟩]⟩
  , ⟨0x080, 4, 24, 0xFE00FFFF, 0, 0, 0x0000FF80, [⟨31, 28, .atLeast 9⟩]⟩
  , ⟨0x100, 4, 24, 0xFFFF00FF, 0, 0, 0x07D00032, []⟩
  , ⟨0x180, 4, 24, 0, 0, 0, 0, []⟩
  , ⟨0x200, 4, 24, 0, 0, 0, 0, []⟩ ]

/-- GIO (R401). -/
def specsGio : List RegSpec :=
  [ ⟨0x008, 4, 1, 0, 0, 0, 0, []⟩
  , ⟨0x00C, 4, 1, 0, 0x40000000, 0, 0, []⟩
  , ⟨0x020, 4, 1, 0, 1, 0, 0, []⟩
  , ⟨0x040, 4, 2, 0, 0, 0, 0, []⟩
  , ⟨0x048, 4, 2, 0, 0, 0, 0, []⟩
  , ⟨0x050, 4, 2, 0, 0, 0, 0, []⟩
  , ⟨0x058, 4, 2, 0, 0, 0, 0, []⟩
  , ⟨0x060, 4, 2, 0, 0, 0, 0, []⟩
  , ⟨0x068, 4, 2, 0, 0, 0, 0, []⟩
  , ⟨0x080, 4, 64, 0xFFCF0001, 0, 0, 0x00200000, [⟨31, 28, .atLeast 9⟩, ⟨27, 26, .atLeast 3⟩, ⟨25, 24, .atLeast 3⟩, ⟨19, 16, .atLeast 7⟩]⟩
  , ⟨0x180, 4, 64, 0, 0, 0, 0, []⟩
  , ⟨0x280, 4, 16, 0x3BFEFFBF, 0, 0, 0, [⟨28, 27, .atLeast 3⟩, ⟨18, 17, .atLeast 3⟩, ⟨8, 7, .atLeast 3⟩]⟩
  , ⟨0x2C0, 4, 48, 0, 0, 0, 0, []⟩
  , ⟨0x380, 4, 4, 0x3BFEFFBF, 0, 0, 0, [⟨28, 27, .atLeast 3⟩, ⟨18, 17, .atLeast 3⟩, ⟨8, 7, .atLeast 3⟩]⟩
  , ⟨0x390, 4, 1, 0x000EFFBF, 0, 0, 0, [⟨18, 17, .atLeast 3⟩, ⟨8, 7, .atLeast 3⟩]⟩ ]

/-- YOK (R437, R438). A length above 65 536 in YOK_ATTL counts as a reserved code (DESIGN CHOICE, log entry 108). -/
def specsYok : List RegSpec :=
  [ ⟨0x008, 4, 1, 0x0000007D, 0, 0, 0, [⟨6, 5, .atLeast 2⟩]⟩
  , ⟨0x00C, 4, 1, 0, 0x40000000, 0, 0, []⟩
  , ⟨0x020, 4, 1, 0, 0x000000FF, 0, 0, []⟩
  , ⟨0x040, 4, 1, 0x000007FF, 0, 0, 0x00000543, [⟨7, 4, .outside 1 15⟩, ⟨3, 0, .outside 1 15⟩]⟩
  , ⟨0x044, 4, 1, 0, 0, 0, 0, []⟩
  , ⟨0x048, 4, 1, 0, 0, 0, 0x00000384, []⟩
  , ⟨0x04C, 4, 1, 0, 0, 0, 0, []⟩
  , ⟨0x050, 4, 2, 0, 0, 0, 0, []⟩
  , ⟨0x058, 4, 2, 0, 0, 0, 0, []⟩
  , ⟨0x060, 4, 1, 0, 0, 0, 0, []⟩
  , ⟨0x064, 4, 1, 0, 0, 0, 0, []⟩
  , ⟨0x068, 4, 1, 0xFFFFFFFF, 0, 0, 0, []⟩
  , ⟨0x06C, 4, 1, 0xFFFFFFFF, 0, 0, 0, []⟩
  , ⟨0x070, 4, 1, 0, 0, 0, 0, []⟩
  , ⟨0x074, 4, 2, 0, 0, 0, 0, []⟩
  , ⟨0x07C, 4, 2, 0, 0, 0, 0, []⟩
  , ⟨0x084, 4, 1, 0x00001FFF, 0, 0, 0x00000800, [⟨12, 0, .outside 1 4096⟩]⟩
  , ⟨0x088, 4, 1, 0x000FFFFF, 0, 0, 0x000186A0, [⟨19, 0, .outside 1 1048575⟩]⟩
  , ⟨0x08C, 4, 1, 0, 0, 0, 0, []⟩
  , ⟨0x090, 8, 8, 0xFFFFFFFC, 0, 0, 0, []⟩
  , ⟨0x094, 8, 8, 0x0001FFFF, 0, 0, 0, [⟨16, 0, .outside 0 65536⟩]⟩
  , ⟨0x0D0, 4, 6, 0, 0xFFFFFFFF, 0, 0, []⟩
  , ⟨0x0E8, 4, 1, 0, 0x80000000, 0, 0, []⟩
  , ⟨0x100, 4, 192, 0xFFFFFFFF, 0, 0, 0, []⟩ ]

/-- LDG (R476, R477). -/
def specsLdg : List RegSpec :=
  [ ⟨0x008, 4, 1, 1, 0, 0, 0, []⟩
  , ⟨0x00C, 4, 1, 0, 0x40000000, 0, 0, []⟩
  , ⟨0x020, 4, 1, 0, 0x0000007F, 0, 0, []⟩
  , ⟨0x040, 4, 1, 0x0000003F, 0, 0, 0, []⟩
  , ⟨0x044, 4, 1, 0, 0, 0, 0, []⟩
  , ⟨0x048, 4, 1, 0, 0, 0, 0, []⟩
  , ⟨0x04C, 4, 1, 0, 0, 0, 0, []⟩
  , ⟨0x050, 4, 1, 0, 0, 0, 0, []⟩
  , ⟨0x054, 4, 1, 0, 0, 0, 0, []⟩
  , ⟨0x058, 4, 1, 0, 0, 0, 0, []⟩
  , ⟨0x05C, 4, 1, 0x0000FFFF, 0, 0, 0x00004E20, [⟨15, 0, .outside 1 65535⟩]⟩
  , ⟨0x060, 4, 1, 0x0000007F, 0, 0, 0x00000038, [⟨6, 0, .outside 1 72⟩]⟩
  , ⟨0x064, 4, 1, 0x0000FFFF, 0, 0, 0x00000010, []⟩
  , ⟨0x068, 4, 1, 0x800007FF, 0, 0, 0, []⟩
  , ⟨0x06C, 4, 1, 0, 0, 0, 0, []⟩
  , ⟨0x070, 4, 1, 0xFFFFFFE0, 0, 0, 0, []⟩
  , ⟨0x074, 4, 1, 15, 0, 0, 4, [⟨3, 0, .outside 2 10⟩]⟩
  , ⟨0x078, 4, 1, 0x000003FF, 0, 0, 0, []⟩
  , ⟨0x07C, 4, 1, 0, 0, 0, 0, []⟩
  , ⟨0x080, 4, 1, 15, 0, 0, 0, [⟨3, 0, .outside 1 10⟩]⟩
  , ⟨0x084, 4, 4, 0xFFFFFFFF, 0, 0, 0, []⟩
  , ⟨0x094, 4, 1, 0, 0, 0, 0, []⟩
  , ⟨0x0A0, 4, 1, 0x0000003F, 0, 0, 0, []⟩
  , ⟨0x0A4, 4, 1, 0, 0, 0, 0, []⟩
  , ⟨0x0A8, 4, 1, 0, 0, 0, 0, []⟩
  , ⟨0x0AC, 4, 1, 0, 0, 0, 0xFFFFFFFF, []⟩
  , ⟨0x0B0, 4, 1, 0, 0, 0, 0xFFFFFFFF, []⟩
  , ⟨0x0B4, 4, 1, 0, 0, 0, 0, []⟩
  , ⟨0x0B8, 4, 1, 0, 0, 0, 0, []⟩
  , ⟨0x100, 4, 1, 0, 0, 0, 0xC000003C, []⟩
  , ⟨0x104, 4, 63, 0xC0000FFF, 0, 0, 0x0000003C, [⟨11, 0, .outside 1 3600⟩]⟩
  , ⟨0x200, 4, 1, 0, 0, 0, 0, []⟩
  , ⟨0x204, 4, 63, 0x000FFFFF, 0, 0, 0, []⟩ ]

/-- NAND channel (R479). -/
def specsNand : List RegSpec :=
  [ ⟨0x008, 4, 1, 0, 0, 0, 0, []⟩
  , ⟨0x00C, 4, 1, 0, 0x40000000, 0, 0, []⟩
  , ⟨0x020, 4, 1, 0, 0, 0, 0, []⟩
  , ⟨0x040, 4, 1, 0, 0, 0, 0, []⟩
  , ⟨0x044, 4, 8, 0, 0, 0, 0, []⟩
  , ⟨0x064, 4, 1, 0xFFFFFFFF, 0, 0, 0, []⟩
  , ⟨0x068, 4, 1, 0xFFFFFFFF, 0, 0, 0, []⟩
  , ⟨0x06C, 4, 1, 0x0000007F, 0, 0, 0, []⟩
  , ⟨0x070, 4, 1, 0xFFFFFFFF, 0, 0, 0, []⟩
  , ⟨0x074, 4, 1, 0xFFFFFFFF, 0, 0, 0, []⟩ ]

/-- LKS page 0 (R527, R528). -/
def specsLks0 : List RegSpec :=
  [ ⟨0x008, 4, 1, 0, 0, 0, 0, []⟩
  , ⟨0x00C, 4, 1, 0, 0x40000000, 0, 0, []⟩
  , ⟨0x020, 4, 1, 0, 0x0000007F, 0, 0, []⟩
  , ⟨0x040, 4, 1, 0x0000001F, 0, 0, 0, []⟩
  , ⟨0x044, 4, 4, 0xFFFFFFFF, 0, 0, 0, []⟩
  , ⟨0x054, 4, 1, 0, 0, 0, 0, []⟩
  , ⟨0x058, 4, 1, 0, 0, 0, 0, []⟩
  , ⟨0x05C, 4, 1, 0, 0x00000020, 0, 0, []⟩
  , ⟨0x060, 4, 1, 0x0000FFFF, 0, 0, 0x00000258, [⟨15, 0, .outside 1 65535⟩]⟩
  , ⟨0x064, 4, 1, 0, 0, 0, 0, []⟩
  , ⟨0x068, 4, 2, 0, 0, 0, 0, []⟩
  , ⟨0x070, 4, 8, 0, 0, 0, 0, []⟩
  , ⟨0x090, 4, 1, 0, 0, 0, 0, []⟩
  , ⟨0x094, 4, 1, 3, 0x00000010, 0, 0, [⟨1, 0, .atLeast 3⟩]⟩
  , ⟨0x098, 4, 1, 0xFFFFFFFF, 0, 0, 0, []⟩ ]

/-- LKS page 1 (R527): key slots, use-only. -/
def specsLks1 : List RegSpec :=
  [ ⟨0x040, 4, 128, 0, 0, 0, 0, []⟩
  , ⟨0x300, 4, 1, 0, 0, 0, 0, []⟩ ]

/-- LKS page 2 (R527). -/
def specsLks2 : List RegSpec :=
  [ ⟨0x040, 4, 4, 0, 0, 0, 0, []⟩
  , ⟨0x050, 4, 1, 0, 0, 0, 0, []⟩
  , ⟨0x054, 4, 1, 0, 0, 0, 0, []⟩ ]

/-- LKS page 3 (R527). -/
def specsLks3 : List RegSpec :=
  [ ⟨0x040, 4, 24, 0, 0, 0, 0, []⟩
  , ⟨0x0C0, 4, 12, 0, 0, 0, 0, []⟩ ]

/-- ETH (R591). -/
def specsEth : List RegSpec :=
  [ ⟨0x008, 4, 1, 3, 0, 0, 0, []⟩
  , ⟨0x00C, 4, 1, 0, 0x40000000, 0, 0, []⟩
  , ⟨0x020, 4, 1, 0, 3, 0, 0, []⟩
  , ⟨0x040, 4, 1, 0xFFFFFFFF, 0, 0, 0, []⟩
  , ⟨0x044, 4, 1, 0x0000FFFF, 0, 0, 0, []⟩
  , ⟨0x048, 4, 1, 0x00000033, 0, 0, 0x00000023, []⟩
  , ⟨0x04C, 4, 2, 0xFFFFFFFF, 0, 0, 0, []⟩
  , ⟨0x054, 4, 1, 0, 0, 0, 0, []⟩
  , ⟨0x058, 4, 1, 0, 0, 0, 0, []⟩
  , ⟨0x05C, 4, 1, 0x000007FF, 0, 0, 0, [⟨10, 0, .outside 14 1518⟩]⟩
  , ⟨0x060, 4, 1, 0, 0, 0, 0, []⟩
  , ⟨0x064, 4, 1, 0xFFFFFFFF, 0, 0, 0, []⟩
  , ⟨0x068, 4, 4, 0, 0, 0, 0, []⟩
  , ⟨0x078, 4, 1, 0x07FFFFFF, 0, 0, 0, []⟩
  , ⟨0x07C, 4, 1, 0xFFFFFFFF, 0, 0, 0, []⟩ ]

/-- PTP (R592). -/
def specsPtp : List RegSpec :=
  [ ⟨0x008, 4, 1, 15, 0, 0, 0, []⟩
  , ⟨0x00C, 4, 1, 0, 0x40000000, 0, 0, []⟩
  , ⟨0x020, 4, 1, 0, 0, 0, 0, []⟩
  , ⟨0x040, 4, 1, 0, 0, 0, 0, []⟩
  , ⟨0x044, 4, 1, 0, 0, 0, 0, []⟩
  , ⟨0x048, 4, 1, 0, 0, 0, 0, []⟩
  , ⟨0x04C, 4, 1, 0xFFFFFFFF, 0, 0, 0, []⟩
  , ⟨0x050, 4, 3, 0xFFFFFFFF, 0, 0, 0, []⟩
  , ⟨0x05C, 4, 1, 0xFFFFFFFF, 0, 0, 0, []⟩
  , ⟨0x060, 4, 1, 0x0000FFFF, 0, 0, 0, []⟩
  , ⟨0x064, 4, 1, 0x0000FFFF, 0, 0, 10, []⟩
  , ⟨0x068, 4, 3, 0, 0, 0, 0, []⟩ ]

/-- CAN (R593). -/
def specsCan : List RegSpec :=
  [ ⟨0x008, 4, 1, 15, 0, 0, 0, []⟩
  , ⟨0x00C, 4, 1, 0, 0x40000000, 0, 0, []⟩
  , ⟨0x020, 4, 1, 0, 3, 0, 0, []⟩
  , ⟨0x040, 4, 1, 0xFFFFFF7F, 0, 0, 0x03830E03, []⟩
  , ⟨0x044, 4, 1, 0xFFFFFF7F, 0, 0, 0x00030E03, []⟩
  , ⟨0x048, 4, 1, 0x00007F01, 0, 0, 0, []⟩
  , ⟨0x04C, 4, 1, 0, 0, 0, 0, []⟩
  , ⟨0x050, 4, 1, 0, 0, 0, 0, []⟩
  , ⟨0x054, 4, 1, 0, 0, 0, 0, []⟩
  , ⟨0x058, 4, 1, 0, 0, 0, 0, []⟩
  , ⟨0x100, 8, 32, 0xDFFFFFFF, 0, 0, 0, []⟩
  , ⟨0x104, 8, 32, 0x1FFFFFFF, 0, 0, 0, []⟩ ]

/-- HSP (R594). -/
def specsHsp : List RegSpec :=
  [ ⟨0x008, 4, 1, 3, 0, 0, 0, []⟩
  , ⟨0x00C, 4, 1, 0, 0x40000000, 0, 0, []⟩
  , ⟨0x020, 4, 1, 0, 7, 0, 0, []⟩
  , ⟨0x040, 4, 1, 0, 0, 0, 0, []⟩
  , ⟨0x044, 4, 1, 0, 0, 0, 0, []⟩
  , ⟨0x048, 4, 1, 1, 0, 0, 0, []⟩
  , ⟨0x04C, 4, 1, 0xFFFFFFFF, 0, 0, 0, []⟩ ]

/-- SVC (R595). -/
def specsSvc : List RegSpec :=
  [ ⟨0x008, 4, 1, 1, 0, 0, 1, []⟩
  , ⟨0x00C, 4, 1, 0, 0x40000000, 0, 0, []⟩
  , ⟨0x020, 4, 1, 0, 0, 0, 0, []⟩
  , ⟨0x040, 4, 1, 0, 0, 0, 0, []⟩
  , ⟨0x044, 4, 1, 0, 0, 0, 0, []⟩
  , ⟨0x048, 4, 1, 0, 0, 0, 0, []⟩
  , ⟨0x04C, 4, 1, 0xFFFFFFFF, 0, 0, 0, []⟩ ]

/-- DBG (R595). -/
def specsDbg : List RegSpec :=
  [ ⟨0x008, 4, 1, 0, 0, 0, 0, []⟩
  , ⟨0x00C, 4, 1, 0, 0x40000000, 0, 0, []⟩
  , ⟨0x020, 4, 1, 0, 1, 0, 0, []⟩
  , ⟨0x040, 4, 1, 0, 0, 0, 0, []⟩
  , ⟨0x044, 4, 1, 0, 0, 0, 0, []⟩
  , ⟨0x100, 4, 60, 0xFFFFFFFF, 0, 0, 0, []⟩ ]

/-- The registers of a kind of page. -/
def blkSpecs : Blk → List RegSpec
  | .sys => specsSys
  | .clk => specsClk
  | .pwr => specsPwr
  | .rst => specsRst
  | .tick => specsTick
  | .tal0 => specsTal0
  | .tal1 => specsTal1
  | .tal2 => specsTal2
  | .tal3 => specsTal3
  | .mbx0 => specsMbx0
  | .mbx1 => specsMbx1
  | .core => specsCore
  | .core8 => specsCore8
  | .flc => specsFlc
  | .whs => specsWhs
  | .mtx => specsMtx
  | .dma => specsDma
  | .mea => specsMea
  | .trp => specsTrp
  | .stk0 => specsStk0
  | .stk1 => specsStk1
  | .mns => specsMns
  | .mot => specsMot
  | .vlv => specsVlv
  | .gio => specsGio
  | .yok => specsYok
  | .ldg => specsLdg
  | .nand => specsNand
  | .lks0 => specsLks0
  | .lks1 => specsLks1
  | .lks2 => specsLks2
  | .lks3 => specsLks3
  | .eth => specsEth
  | .ptp => specsPtp
  | .can => specsCan
  | .hsp => specsHsp
  | .svc => specsSvc
  | .dbg => specsDbg

/-- ID[31:16] of a page (R22). -/
def blkType : Blk → Nat
  | .sys => 0x0001
  | .clk => 0x0002
  | .pwr => 0x0003
  | .rst => 0x0004
  | .tick => 0x0005
  | .tal0 => 0x0010
  | .tal1 => 0x0010
  | .tal2 => 0x0010
  | .tal3 => 0x0010
  | .mbx0 => 0x0011
  | .mbx1 => 0x0011
  | .core => 0x0020
  | .core8 => 0x0021
  | .flc => 0x0032
  | .whs => 0x0031
  | .mtx => 0x0030
  | .dma => 0x0033
  | .mea => 0x0040
  | .trp => 0x0041
  | .stk0 => 0x0050
  | .stk1 => 0x0050
  | .mns => 0x0051
  | .mot => 0x0052
  | .vlv => 0x0053
  | .gio => 0x0054
  | .yok => 0x0060
  | .ldg => 0x0070
  | .nand => 0x0071
  | .lks0 => 0x0080
  | .lks1 => 0x0080
  | .lks2 => 0x0080
  | .lks3 => 0x0080
  | .eth => 0x0090
  | .ptp => 0x0091
  | .can => 0x0092
  | .hsp => 0x0093
  | .svc => 0x0094
  | .dbg => 0x00A0

/-- CAPS of a page: as its chapter gives it, 0 where the chapter gives none (log entry 3). -/
def blkCaps : Blk → Nat
  | .mea => 0x4208
  | .trp => 0x100810
  | .yok => 0x208
  | .ldg => 0x44008
  | .lks0 => 0x808
  | .lks1 => 0x808
  | .lks2 => 0x808
  | .lks3 => 0x808
  | .sys | .clk | .pwr | .rst | .tick | .tal0 | .tal1 | .tal2 | .tal3 | .mbx0 | .mbx1 | .core | .core8 | .flc | .whs | .mtx | .dma | .stk0 | .stk1 | .mns | .mot | .vlv | .gio | .nand | .eth | .ptp | .can | .hsp | .svc | .dbg => 0

/-- The EV_PEND bits a page has (R8, R295 and the block chapters); the others are reserved. -/
def blkEvents : Blk → Nat
  | .sys => 0x7
  | .clk => 0x7
  | .pwr => 0x7
  | .rst => 0x7
  | .tick => 0x3FFFEFF
  | .mbx0 => 0x1
  | .core => 0x7F
  | .core8 => 0x7F
  | .mtx => 0x7
  | .dma => 0x3
  | .whs => 0x1F
  | .flc => 0xF
  | .mea => 0xFFF
  | .trp => 0xFFFF
  | .stk0 => 0xFF
  | .mns => 0xFF
  | .mot => 0x7
  | .vlv => 0x7
  | .gio => 0x7FFF
  | .yok => 0xFF
  | .ldg => 0xFF
  | .lks0 => 0x3FF
  | .eth => 0x1F
  | .ptp => 0x7
  | .can => 0x1F
  | .hsp => 0x1
  | .svc => 0x7
  | .dbg => 0x3
  | .tal0 | .tal1 | .tal2 | .tal3 | .mbx1 | .stk1 | .nand | .lks1 | .lks2 | .lks3 => 0

/-- The EV_EN bits that read 1 and ignore writes: the non-maskable sources (R302). -/
def blkEvFixed (b : Blk) : Nat :=
  if b = .clk then 1
  else if b = .lks0 then 0x300
  else if b = .tick then 0x80
  else if b = .trp then 0xFFFF
  else 0

/-- A register page: its kind, its ID[15:8] and its power domain. -/
structure PageInfo where
  blk  : Blk
  inst : Nat
  dom  : Nat
  deriving DecidableEq, Repr

/-- The page with number p, at 0x4000_0000 + 0x1000 p (R36, R22, R548); none where no page lies. -/
def pageInfo (p : Nat) : Option PageInfo :=
  if p = 0 then some ⟨.sys, 0, 23⟩
  else if p = 1 then some ⟨.clk, 0, 23⟩
  else if p = 2 then some ⟨.pwr, 0, 0⟩
  else if p = 3 then some ⟨.rst, 0, 0⟩
  else if p = 4 then some ⟨.tick, 0, 24⟩
  else if p = 8 then some ⟨.tal0, 0, 0⟩
  else if p = 9 then some ⟨.tal1, 1, 0⟩
  else if p = 10 then some ⟨.tal2, 2, 0⟩
  else if p = 11 then some ⟨.tal3, 3, 0⟩
  else if p = 12 then some ⟨.mbx0, 0, 0⟩
  else if p = 13 then some ⟨.mbx1, 1, 0⟩
  else if 0x10 ≤ p ∧ p < 0x18 then some ⟨.core, p - 0x10, p - 0x10 + 1⟩
  else if p = 0x18 then some ⟨.core8, 8, 9⟩
  else if p = 0x20 then some ⟨.mtx, 0, 32⟩
  else if p = 0x21 then some ⟨.whs, 0, 33⟩
  else if p = 0x22 then some ⟨.flc, 0, 21⟩
  else if p = 0x23 then some ⟨.dma, 0, 38⟩
  else if p = 0x24 then some ⟨.dma, 1, 39⟩
  else if p = 0x38 then some ⟨.trp, 0, 25⟩
  else if p = 0x40 then some ⟨.stk0, 0, 26⟩
  else if p = 0x41 then some ⟨.stk1, 1, 26⟩
  else if p = 0x42 then some ⟨.mns, 0, 26⟩
  else if 0x44 ≤ p ∧ p < 0x4C then some ⟨.mot, p - 0x44, 42 + (p - 0x44)⟩
  else if 0x4C ≤ p ∧ p < 0x4E then some ⟨.vlv, p - 0x4C, 50 + (p - 0x4C)⟩
  else if p = 0x4E then some ⟨.gio, 0, 27⟩
  else if p = 0x50 then some ⟨.yok, 0, 28⟩
  else if p = 0x60 then some ⟨.ldg, 0, 56⟩
  else if 0x61 ≤ p ∧ p < 0x65 then some ⟨.nand, p - 0x61, 52 + (p - 0x61)⟩
  else if p = 0x70 then some ⟨.lks0, 0, 22⟩
  else if p = 0x71 then some ⟨.lks1, 1, 22⟩
  else if p = 0x72 then some ⟨.lks2, 2, 22⟩
  else if p = 0x73 then some ⟨.lks3, 3, 22⟩
  else if p = 0x80 then some ⟨.eth, 0, 29⟩
  else if p = 0x81 then some ⟨.ptp, 0, 29⟩
  else if p = 0x82 then some ⟨.can, 0, 36⟩
  else if p = 0x83 then some ⟨.can, 1, 37⟩
  else if p = 0x84 then some ⟨.hsp, 0, 30⟩
  else if p = 0x85 then some ⟨.svc, 0, 31⟩
  else if p = 0x90 then some ⟨.dbg, 0, 34⟩
  else if 0xA0 ≤ p ∧ p < 0xB8 then some ⟨.mea, p - 0xA0, 57 + (p - 0xA0)⟩
  else none

/-- The first page of the block a page belongs to: the block's own bits of CTL, STAT and FAULT lie there (log entry 4). -/
def blockPage (p : Nat) : Nat :=
  if 8 ≤ p ∧ p < 12 then 8
  else if p = 13 then 12
  else if p = 0x41 then 0x40
  else if 0x70 ≤ p ∧ p < 0x74 then 0x70
  else p

/-- The pages of the block whose first page is p. -/
def blockPages (p : Nat) : List Nat :=
  if p = 8 then [8, 9, 10, 11]
  else if p = 12 then [12, 13]
  else if p = 0x40 then [0x40, 0x41]
  else if p = 0x70 then [0x70, 0x71, 0x72, 0x73]
  else [p]

/-- The first pages of all blocks. -/
def allBlocks : List Nat :=
  [0, 1, 2, 3, 4, 8, 12] ++ (List.range 9).map (0x10 + ·) ++ [0x20, 0x21, 0x22, 0x23, 0x24, 0x38, 0x40, 0x42]
    ++ (List.range 8).map (0x44 + ·) ++ [0x4C, 0x4D, 0x4E, 0x50, 0x60, 0x61, 0x62, 0x63, 0x64, 0x70, 0x80, 0x81, 0x82, 0x83,
      0x84, 0x85, 0x90] ++ (List.range 24).map (0xA0 + ·)

/-- The domain of a page, 0 where none lies. -/
def pageDom (p : Nat) : Nat :=
  match pageInfo p with
  | some i => i.dom
  | none => 0

/-- The spec that covers an offset: the first whose array holds it. -/
def findSpec : List RegSpec → Nat → Option RegSpec
  | [], _ => none
  | r :: rest, o =>
    if r.off ≤ o ∧ o < r.off + r.stride * r.count ∧ (o - r.off) % r.stride = 0 then some r else findSpec rest o

/-- The register of page p at a word offset below 0x400; none where the offset is unassigned. The event enables are RW
in the bits the page has and R302 does not fix. Every page has the header of R6: of a block's later pages CTL holds SOFTRST
alone, and STAT shows READY, RSVW and BUSY of the block (log entry 4). -/
def specAt (p off : Nat) : Option RegSpec :=
  match pageInfo p with
  | none => none
  | some i =>
    if off = 0x014 then
      some ⟨0x014, 4, 1, blkEvents i.blk ^^^ blkEvFixed i.blk, 0, 0, blkEvFixed i.blk, []⟩
    else if off = 0x018 then some ⟨0x018, 4, 1, 0, blkEvents i.blk, 0, 0, []⟩
    else if off = 0x000 then some ⟨0, 4, 1, 0, 0, 0, blkType i.blk * 0x10000 + i.inst * 0x100 + 1, []⟩
    else if off = 0x004 then some ⟨4, 4, 1, 0, 0, 0, blkCaps i.blk, []⟩
    else if off = 0x028 then some ⟨0x028, 4, 1, 0, 0, 0, i.dom, []⟩
    else if off = 0x024 then some ⟨0x024, 4, 1, 0, 0, 0, 0, []⟩
    else if off = 0x008 ∧ p ≠ blockPage p then some ⟨0x008, 4, 1, 0, 0, 0, 0, []⟩
    else if off = 0x00C ∧ p ≠ blockPage p then some ⟨0x00C, 4, 1, 0, 0x40000000, 0, 0, []⟩
    else findSpec (blkSpecs i.blk) off

/-- The reset value of the register at an address (R19, R20): the field tables' fixed values; 0 where no register lies. -/
def regReset (addr : Nat) : Word :=
  if addr < 0x40000000 then 0
  else
    match specAt ((addr - 0x40000000) / 0x1000) ((addr - 0x40000000) % 0x1000) with
    | some r => BitVec.ofNat 32 r.reset
    | none => 0

end Sys2Proof.Machine
end

