-- ==== Sys2Proof/Machine/Parts.lean ====
section
/-! DEFINITION. The parts of the state that belong to the system blocks: bus, tick, Tally, clocks, power, modes, DMA and
the host interfaces. -/

namespace Sys2Proof.Machine

/-- The operating modes (R552). -/
inductive Mode where
  | cold | reset | banked | warm | run | shadow | service | safe
  deriving DecidableEq, Repr

/-- The code of a mode (R552). -/
def Mode.code : Mode → Nat
  | .cold => 0 | .reset => 1 | .banked => 2 | .warm => 3 | .run => 4 | .shadow => 5 | .service => 6 | .safe => 7

/-- What the reset sequence, or the exit from BANKED that runs its steps, waits for (R544, R557). -/
inductive SeqWait where
  | idle | crystal | plls | boot
  deriving DecidableEq, Repr

/-- A bus response: the code of R16 and the data of a read. -/
structure Ans where
  code : Nat
  data : TWord
  deriving DecidableEq, Repr

/-- A bus request: of which master, with which matrix ID, reading or writing what. -/
structure Req where
  master : Nat
  id     : Nat
  write  : Bool
  size   : Size
  addr   : Nat
  data   : TWord
  deriving DecidableEq, Repr

/-- The tick generator's own state (R40-R78). `act` holds the active copies of the double-buffered registers (R55) by
register address; times are in c; `first` says that no tick precedes the next boundary, `had` that a boundary has occurred
since the page's reset. -/
structure Tick where
  running   : Bool
  stopReq   : Bool
  everOn    : Bool
  first     : Bool
  had       : Bool
  number    : BitVec 64
  boundary  : Nat
  next      : Nat
  act       : SMap Word
  inDrop    : Bool
  dropEnd   : Nat
  release   : Nat
  released  : Bool
  commits   : SMap Nat
  kerfSrc   : SMap Nat
  kerfDrop  : SMap Nat
  enter     : BitVec 8
  resume    : BitVec 8
  restart   : BitVec 8
  svcCommit : Bool
  inPhase   : Nat
  btsNs     : Nat
  btsSec    : Nat
  mainsLeft : Nat
  mainsLong : Nat
  mainsLen  : Nat
  mainsZc   : Option Nat
  deriving DecidableEq, Repr

/-- Mains sense of one phase (R366-R368): the last compensated crossing, the last rising and falling ones, the cycles in a
row that are good, and whether a half-cycle has begun since the lock. -/
structure Phase where
  last  : Option Nat
  rise  : Option Nat
  fall  : Option Nat
  good  : Nat
  begun : Bool
  deriving DecidableEq, Repr

/-- The output channels and what their blocks hold (R360-R402). Channel words are numbered: firing channel c is c, word u of
motor group m is 64 + 4m + u, valve v is 96 + v, GIO pin n is 144 + n and flow-counter clear k is 208 + k. `fresh` marks a
channel word whose committed copy an exit from SAFE cleared (1), or whose next word is checked in any case (2); `bad` a
rejected active word; `force` the settings in force (R631); `held` the outputs that trips hold, numbered as the bits of
TRP_MASK; `tripa` and `pga` the voltages at the TRIPA pins and at the PGA outputs in nV, `cmpIn` the comparators whose source has
crossed and not returned, `tapGone` those whose tap was lost when the trips were last looked at (R344, R352); `digLvl` the filtered
levels of the OTEMP pins; `armed` the channels that Stoker's last decision granted, `due` the grants yet to fire, each with its firing
instant and the end that it already has, and `offAt` the ends of the outputs that fire (R372); `vlvAt` the start
of a valve's peak, hold or release; `motBase` the cycle of the carrier's count 0, `motLat` when a carrier last took new values and `motEdge` since when its references had had their level then (R384); `inDue`
the driven pin levels that still pass their input filter, with the cycle at which they count (R391). -/
structure Outs where
  pend    : SMap TWord
  comm    : SMap TWord
  act     : SMap TWord
  fresh   : SMap Nat
  bad     : SMap Nat
  force   : SMap Word
  held    : BitVec 128
  tripa   : SMap Int
  pga     : SMap Int
  cmpIn   : BitVec 16
  tapGone : BitVec 16
  digLvl  : BitVec 8
  fireOn  : BitVec 64
  armed   : BitVec 64
  due     : SMap (List (Nat × Option Nat))
  offAt   : SMap Nat
  onrun   : SMap Nat
  offrun  : SMap Nat
  extWrote : Bool
  extSub  : Bool
  extCnt  : Nat
  holdSub : Bool
  missed  : BitVec 3
  phases  : List Phase
  motSet  : SMap Word
  motBase : SMap Nat
  motCmp  : SMap Nat
  motLat  : SMap Nat
  motEdge : SMap Nat
  vlvAt   : SMap Nat
  live    : BitVec 64
  inDue   : SMap (Nat × Bool)
  flow    : SMap Word
  glast   : BitVec 64
  deriving DecidableEq, Repr

/-- One channel's result of a window, waiting for the boundary's latch (R326-R335, R354): its word, cause, the causes
present as bits, D, X', the measured excitation and its event line. -/
structure MeaRes where
  word  : TWord
  cause : Nat
  seen  : Nat
  raw   : Int
  x     : Int
  ex    : Nat
  line  : Bool
  deriving DecidableEq, Repr

/-- A measurement block (R315-R343): the factory record it read and whether its check passed, the captured settings by
register address (none before the first capture), the windows of SETTLE left and the event line of each channel, the
curve memory, burnout voltages in µV of this window, and the results that wait for the boundary. -/
structure Mea where
  fact   : SMap Word
  calOk  : Bool
  cap    : Option (SMap Word)
  settle : SMap Nat
  lines  : BitVec 8
  curve  : SMap Word
  burn   : SMap Nat
  next   : Option (List MeaRes)
  nextCj : Int × Int
  nextRef : Word
  nextWin : Nat
  deriving DecidableEq, Repr

/-- Tally's latches (R298); `handed` marks the sources that have been handed to their route since they last became
pending; `traced` counts the trace entries of the cycle `traceAt`, and `stopped` says that an entry into SAFE stopped them (R304). -/
structure Tally where
  edge   : BitVec 512
  soft   : BitVec 512
  handed : BitVec 512
  traceAt : Nat
  traced : Nat
  stopped : Bool
  deriving DecidableEq, Repr

/-- Clock, power, reset and mode state that no register shows whole (R531-R567); `rtcAt` is the time of the RTC's last whole
second, `cause` the bit of the last whole-part reset, `bankAt` the time of the entry into BANKED, `wipes` the end of the wipe of an SRAM domain
that came up (R266); `wdPer` the period of the watchdog that runs (R547); `rcAt` and `rcSum` the cycle from which the trees have run on
their present source and what time had gained on the count of cycles until then (R541); `relAt` the
cycle in which the part's reset was released (R171); `xtalAt` when the crystal oscillator was enabled and `xtalSeen` whether a window of monitor 0 has passed since (R533). -/
structure Sys where
  mode      : Mode
  target    : Option Mode
  reqAt     : Nat
  wait      : SeqWait
  bankExit  : Bool
  safeAfter : Bool
  svcProf   : Word
  divs      : Word
  wdAt      : Nat
  xtalOn    : Bool
  powering  : List Nat
  downHeld  : List Nat
  domReset  : List Nat
  wdRunning : Bool
  wdExpired : Bool
  tempArmed : Bool
  rtcSec    : Word
  rtcAt     : Nat
  coldTamp  : Bool
  mesh2     : Bool
  ctrShadow : SMap Word
  cause     : Word
  wipes     : SMap Nat
  bankAt    : Nat
  wdPer     : Nat
  rcAt      : Nat
  rcSum     : Nat
  relAt     : Nat
  xtalAt    : Nat
  xtalSeen  : Bool
  deriving DecidableEq, Repr

/-- A PTP timestamp entry (R571): direction, messageType, sequenceId and time. -/
structure TsEntry where
  tx  : Bool
  msg : Nat
  seq : Nat
  ns  : Nat
  sec : Nat
  deriving DecidableEq, Repr

/-- The Ethernet controller's buffers (R569-R571): frames received with their timestamp flag, the words of the head frame
read, the bytes of the frame being written, the frames to send, the frame sent last, the end of a PAUSE (R568), the
timestamp queue and whether an MDIO operation runs. -/
structure Eth where
  rx     : List (List Byte)
  rxTs   : List Bool
  rxPos  : Nat
  tx     : List Byte
  txQ    : List (List Byte)
  sent   : List Byte
  hold   : Nat
  tsq    : List TsEntry
  mdio   : Bool
  deriving DecidableEq, Repr

/-- PTP time (R572): 48-bit seconds, nanoseconds and the 32-bit fraction of a nanosecond at time `at`, the cycle from
which the present rate has run, the end of the PTP_PPS pulse, and the time of the last write of PTP_RATE (R573). -/
structure Ptp where
  sec  : Nat
  ns   : Nat
  frac : Nat
  since : Nat
  ppsEnd : Nat
  rateAt : Nat
  deriving DecidableEq, Repr

/-- A CAN FD controller's buffers (R576): records are 20 words. -/
structure Can where
  rx     : List (List Word)
  rxPos  : Nat
  tx     : SMap (List Word)
  txPart : List Word
  deriving DecidableEq, Repr

/-- The host SPI transaction in progress (R578-R580): the bytes shifted out last, and its kind: 0 none, 1 write, 2 read, 3
another command; of a read the words that the host still shifts and the address of the word being read; and how many requests of earlier
transactions still wait, whose data is discarded. -/
structure Hsp where
  out  : List Byte
  kind : Nat
  left : Option (Nat × Nat)
  stale : Nat
  deriving DecidableEq, Repr

/-- The USB service port (R582-R584): its VBUS level, the state before a suspend, its configuration, the last diagnostic
response and the data of the last standard request, and a diagnostic message that waits for auto-wake with the words moved so
far. -/
structure Svc where
  vbus   : Bool
  prev   : Nat
  config : Nat
  out    : List Byte
  ctl    : List Byte
  diag   : List Byte
  got    : List Word
  deriving DecidableEq, Repr

/-- The JTAG port (R585-R589): the selected instruction, the boundary register's cells, whether it drives or floats the
pads, the identification or bypass register that is selected, and the debug access register. -/
structure Jtag where
  ir     : Nat
  cells  : List Bool
  drive  : Bool
  float  : Bool
  dr     : Word
  dbgacc : BitVec 72
  deriving DecidableEq, Repr

/-- One DMA channel's run (R290-R293): the descriptor words read, the bytes moved and whether a descriptor is loaded; of a burst
in progress the elements still to read, the ones read and not yet written, and the code that ended its reads (0 none); the
stage of the beat that waits for a domain to wake, with its address; and the stop, code and stage, whose word 5 waits so. -/
structure DmaCh where
  desc  : List Word
  moved : Nat
  live  : Bool
  burst : Bool
  left  : Nat
  buf   : List Word
  rerr  : Nat
  wait  : Option (Nat × Nat)
  stop  : Option (Nat × Nat)
  deriving DecidableEq, Repr

/-- The matrix (R38, R258, R259, R278, R282, R292): for each arbiter the last winner's number plus 1; the requests whose count has
reached MTX_TMO before their response, as master, ID and address; for each DMA engine and class the channel that won last, plus
1; and for each shared bank the processors that ask for it from the cycle named on, one of which it grants in each cycle (R220). -/
structure Mtx where
  winner  : SMap Nat
  late    : List (Nat × Nat × Nat)
  dmaLast : SMap Nat
  bankUse : SMap (Nat × List Nat)
  deriving DecidableEq, Repr

/-- The matrix after a reset: no winner yet. -/
def Mtx.reset : Mtx := { winner := [], late := [], dmaLast := [], bankUse := [] }

/-- Yoke's own state (R403-R440). `role` is coded as STAT.ROLE; `twin` says whether a twin is attached, `tokI` is the level
of YTOKI. `out` holds the frames sent in the present tick in the order of
the queue, `outAt` the cycle at which each entered it; `relAt` is the cycle of this tick at which a lead releases its token and enters
SAFE, and whether for a handover; `tokAt` is the cycle of which `tokI` is known; `mboxQ` the MBOX payloads that wait, `relayTx` and `relayRx` the
relay queues. `mark` and `rply` are the payloads of the last valid frames of the tick (empty: none), `sof` whether a MARK SOF
arrived for the next boundary, `markLen` the length that the last MARK carried, `noMark` and `noRply` the boundaries without a
valid one. `snaps` holds the checked snapshot segments, `snapOpen` whether they go to the drop areas as they arrive,
`resends` the resends asked for (shadow) or made (lead). `dig` is the own digest of the boundary before the last and `ownNo`
the NOCMP flag of the last own frame; `st` is the self-test's stage: 0 none, 1 running, 2 verdict formed. `takeDue`,
`safeDue`, `detachDue` and `joinDue` name what the next boundary brings. `attPh` is 0 none, 1 request, 2 bulk, 3 drain, 4 cut;
`pause` the pause of R431; `dirty` the marked region words, `bulk` those still to be sent for the first time, `flight` the
STATE frames sent by sequence, with their addresses and whether they were sent in the cut; `cutAt` the tick number of boundary A, `cutSent` the cut words sent and `cutAcks`
those acknowledged by tick; `got` the words received since ATTACC, `need` those of bulk, on a joining part `cutAt` the tick in which bulk ended; `gotTick` the tick number of the last STATE
frame with the words received in frames of that tick; `noCmp` counts the frames that still carry NOCMP after an attach. -/
structure Yok where
  role     : Nat
  token    : Bool
  twin     : Bool
  tokI     : Bool
  tokAt    : Nat
  prime    : Bool
  echoAt   : Option Nat
  out      : List (List Byte)
  outAt    : List Nat
  relAt    : Option (Nat × Bool)
  mboxQ    : List (List Byte)
  relayTx  : List Nat
  relayRx  : List Nat
  mark     : List Byte
  rply     : List Byte
  sof      : Bool
  markLen  : Nat
  noMark   : Nat
  noRply   : Nat
  snaps    : SMap (List Byte)
  snapOpen : Bool
  resends  : Nat
  noSnap   : Bool
  dropFail : Bool
  xbeyond  : Bool
  xcnt     : SMap Nat
  dig      : BitVec 64
  ownNo    : Bool
  st       : Nat
  twinV    : Option Bool
  fast     : Option Bool
  takeDue  : Bool
  safeDue  : Bool
  detachDue : Bool
  joinDue  : Bool
  joinAt   : Option Nat
  attPh    : Nat
  attCold  : Bool
  attTicks : Nat
  cutTicks : Nat
  pause    : Bool
  dirty    : SMap Nat
  bulk     : List Nat
  flight   : List (Nat × List Nat × Bool)
  seq      : Nat
  cutAt    : Nat
  cutSent  : Nat
  cutAcks  : SMap Nat
  got      : Nat
  need     : Nat
  gotTick  : Nat × Nat
  noCmp    : Nat
  deriving DecidableEq, Repr

/-- Yoke after a reset: alone, nothing sent or received. -/
def Yok.reset : Yok :=
  { role := 0, token := false, twin := false, tokI := false, tokAt := 0, prime := false, echoAt := none, out := [], outAt := [],
    relAt := none, mboxQ := [], relayTx := [],
    relayRx := [], mark := [], rply := [], sof := false, markLen := 0, noMark := 0, noRply := 0, snaps := [],
    snapOpen := false, resends := 0, noSnap := false, dropFail := false, xbeyond := false, xcnt := [], dig := 0, ownNo := true,
    st := 0, twinV := none, fast := none, takeDue := false, safeDue := false, detachDue := false, joinDue := false,
    joinAt := none, attPh := 0, attCold := false, attTicks := 0, cutTicks := 0, pause := false, dirty := [], bulk := [],
    flight := [], seq := 0, cutAt := 0, cutSent := 0, cutAcks := [], got := 0, need := 0, gotTick := (0, 0), noCmp := 0 }

/-- A segment that has closed and whose seal is being signed (R465, R466): its first leaf and sequence number, leaf hashes, first and last
stamped ticks, when its first record came, the reasons of its seal, and the hash of the seal before. -/
structure Segment where
  leaf  : Nat
  seq   : Nat
  hash  : List (List Byte)
  ticks : Nat × Nat
  since : Nat
  due   : Nat
  chain : List Byte
  deriving DecidableEq, Repr

/-- A page that is being programmed (R446, R468): the index of its block in the stream, the block, the page's number in it, the leaf
index that its tag names, and its four slots. -/
structure PageProg where
  idx   : Nat
  blk   : Nat
  page  : Nat
  first : Nat
  slots : List (List Byte)
  deriving DecidableEq, Repr

/-- One stream of Ledger (R449-R469): its next sequence number; the open leaf's index, records and first sequence number;
the hash of the leaf before; the slots that wait for their page; the segment since the last seal: its first leaf and
sequence number, leaf hashes and first and last stamped ticks, when its first record came and the seal reasons due; the
next seal's index and the hash of the last seal; the unsigned seal that waits for its signature, with its segment; the blocks held, oldest
first, with the index of the first of them and the pages used in the newest; the pages being programmed and the durable
slots, each with its block's index; the last durable sequence number; the seals written; whether the stream has reported
itself full. -/
structure LStream where
  next     : Nat
  leaf     : Nat
  recs     : List Byte
  first    : Nat
  prev     : List Byte
  page     : List (List Byte)
  segLeaf  : Nat
  segSeq   : Nat
  segHash  : List (List Byte)
  segTicks : Option (Nat × Nat)
  segAt    : Nat
  due      : Nat
  sealNo   : Nat
  sealHash : List Byte
  signing  : Option (List Byte)
  sealing  : Option Segment
  blocks   : List Nat
  baseIdx  : Nat
  used     : Nat
  progs    : List PageProg
  store    : List (Nat × List Byte)
  durable  : Option Nat
  seals    : Nat
  full     : Bool
  deriving DecidableEq, Repr

/-- A stream that holds nothing. -/
def LStream.empty : LStream :=
  { next := 0, leaf := 0, recs := [], first := 0, prev := List.replicate 48 0, page := [], segLeaf := 0, segSeq := 0,
    segHash := [], segTicks := none, segAt := 0, due := 0, sealNo := 0, sealHash := List.replicate 48 0, signing := none,
    sealing := none, blocks := [], baseIdx := 0, used := 0, progs := [], store := [], durable := none, seals := 0, full := false }

/-- The ONFI operations of the subset (R442). Set Features carries the data rate in MT/s, 0 for SDR timing mode 0. -/
inductive Onfi where
  | reset | syncReset | readId | paramPage | setFeatures (rate : Nat) | getFeatures | zqLong | zqShort | status | statusEnhanced
  | read | changeColumn | program | erase
  deriving DecidableEq, Repr

/-- What lies on the NAND targets (R445, R471), which no reset and no power-down changes: the pages programmed and not erased since, by
block × 65536 + page, with their four slots and bytes 0 to 2175 of the spare area; and the blocks that the part has retired, which
its volume stream names (R447, R451). -/
structure Nand where
  pages   : SMap (List (List Byte) × List Byte)
  retired : List Nat
  deriving DecidableEq, Repr

/-- Ledger's own state (R441-R480): format memory, its content as of the last submission accepted and whether it has changed
since; the streams; the free pool of (erase count, block), the retired blocks, those being erased and the one allocated
last; the erase counts of the blocks in use; the staging blocks; the array operations that wait on the LUNs, oldest first: of a stream's
page program, 64 for the running command, none for an erase, each with its block (R444); the last ONFI operations sent to each target
and LUN, newest first, and the data rate of the interface (R442); the command running (0 none), whether it waits for CTL.EN, what its
scan found, the ring's tail at its start and whether an UNMOUNT has begun
to seal; the stream as a running PROVE reads it when its block is to be erased (R480); whether an activation holds the ring (R506);
and the tick numbers and PTP times of the last 256 boundaries. -/
structure Ldg where
  fmt      : SMap Word
  fmtUsed  : SMap Word
  fmtNew   : Bool
  streams  : SMap LStream
  pool     : List (Nat × Nat)
  retired  : List Nat
  erasing  : List Nat
  lastBlk  : Nat
  counts   : SMap Nat
  stg      : List Nat
  lunq     : List (Option Nat × Nat)
  onfi     : List (Nat × Nat × Onfi)
  rate     : Nat
  op       : Nat
  waiting  : Bool
  scan     : Option NandScan
  tail     : Nat
  ending   : Bool
  proof    : Option LStream
  held     : Bool
  bts      : List (Nat × Nat × Nat)
  deriving DecidableEq, Repr

/-- Ledger after a reset: unmounted, its buffers empty. -/
def Ldg.reset : Ldg :=
  { fmt := [], fmtUsed := [], fmtNew := false, streams := [], pool := [], retired := [], erasing := [], lastBlk := 0, counts := [],
    stg := [], lunq := [], onfi := [], rate := 0, op := 0, waiting := false, scan := none, tail := 0, ending := false, proof := none,
    held := false, bts := [] }

/-- Locksmith's own state (R481-R530): the K slots by number, as key bytes; the index of the TRNG value that
LKS_CHAL shows (log entry 15), the command running with the challenge at its start and whether its token lies in
DBG_TOKBUF; the end of probation; whether the RESUME written came in a pause; whether signing has stopped (R525) and a glitch struck the command; the
plane before the switch and the one to switch to with the tick requested; the time of boundary S while a pause runs;
whether RESUME was written; the fallback of R513; recovery (R492); and the service-port session: open, phase, staged,
manifest bytes and stored blocks, with the last response and the time of the last message (R500); the boot entry that Locksmith
puts into EVEC (R196); and the identity-key operations requested, in order: a stream's seal by its number, 64 for a QUOTE, 65 for one
of the service port (R483), whose message waits; a switch that waits for its seals, with its plane and tick (R506); whether the switch of
boundary S is still to come, whether a fallback's record is to be written, and whether the command running is the RESUME that counts; how
many steps the mesh LFSR has taken, when it took the last, and whether TMESHI differed there (R523). -/
structure Lks where
  slots    : SMap (List Byte)
  op       : Nat
  chal     : Nat
  cmdChal  : Nat
  tokBuf   : Bool
  noSign   : Bool
  tampered : Bool
  glitched : Bool
  oldPlane : Nat
  switchTo : Option (Nat × Nat)
  pauseAt  : Option Nat
  resumeDue : Bool
  fallback : Bool
  recovery : Bool
  session  : Bool
  phase    : Nat
  staged   : Bool
  man      : List Byte
  stored   : List Nat
  resp     : List Byte
  dbgDone  : Nat
  probEnd  : Nat
  early    : Bool
  entry    : Nat
  msgAt    : Nat
  idq      : List Nat
  switchHold : Option (Nat × Nat)
  quoteQ   : Option (List Byte)
  atS      : Bool
  fellDue  : Bool
  ownResume : Bool
  meshN    : Nat
  meshAt   : Nat
  meshOff  : Bool
  deriving DecidableEq, Repr

/-- Locksmith with no slot loaded. -/
def Lks.reset : Lks :=
  { slots := [], op := 0, chal := 0, cmdChal := 0, tokBuf := false, noSign := false, tampered := false, glitched := false, oldPlane := 0,
    switchTo := none, pauseAt := none, resumeDue := false, fallback := false, recovery := false, session := false,
    phase := 0, staged := false, man := [], stored := [], resp := [], dbgDone := 0, probEnd := 0, early := false, entry := 0,
    msgAt := 0, idq := [], switchHold := none, quoteQ := none, atS := false, fellDue := false, ownResume := false,
    meshN := 0, meshAt := 0, meshOff := false }

/-- Whetstone's run (R260-R265): the region under test, its retries, when its save and the pass began; whether the fast
pass holds the region for a retest; the next flash line and the signature so far. -/
structure Whs where
  testing  : Bool
  retries  : Nat
  saved    : Nat
  passAt   : Nat
  retest   : Bool
  fline    : Nat
  fsum     : Word
  bad      : Bool
  deriving DecidableEq, Repr

/-- The flash controller's command in progress (R268, R269): its code (0 none), its target and the line it programs. -/
structure Flc where
  op   : Nat
  addr : Nat
  buf  : List Word
  deriving DecidableEq, Repr

/-- The flash controller with no command. -/
def Flc.reset : Flc := { op := 0, addr := 0, buf := [] }

/-- Whetstone after a reset. -/
def Whs.reset : Whs :=
  { testing := false, retries := 0, saved := 0, passAt := 0, retest := false, fline := 0, fsum := 0xFFFFFFFF, bad := false }

/-! ### The parts after a reset -/

/-- The tick generator after a reset. -/
def Tick.reset : Tick :=
  { running := false, stopReq := false, everOn := false, first := false, had := false, number := 0, boundary := 0, next := 0,
    act := [], inDrop := false, dropEnd := 0, release := 0, released := true, commits := [], kerfSrc := [], kerfDrop := [],
    enter := 0, resume := 0, restart := 0, svcCommit := false, inPhase := 0, btsNs := 0, btsSec := 0,
    mainsLeft := 0, mainsLong := 0, mainsLen := 0, mainsZc := none }

/-- A mains phase of which nothing is known. -/
def Phase.reset : Phase := { last := none, rise := none, fall := none, good := 0, begun := false }

/-- The outputs after a reset: every channel word 0 RAW and checked before it acts, every OTEMP input at its high level (log
entry 42). -/
def Outs.reset : Outs :=
  { pend := [], comm := [], act := [], fresh := [], bad := [], force := [], held := 0, tripa := [], pga := [], cmpIn := 0, tapGone := 0, digLvl := 0xFF, fireOn := 0,
    armed := 0, due := [], offAt := [], onrun := [], offrun := [], extWrote := false, extSub := false, extCnt := 0, holdSub := false,
    missed := 7, phases := List.replicate 3 Phase.reset, motSet := [], motBase := [], motCmp := [], motLat := [], motEdge := [], vlvAt := [], live := 0,
    inDue := [],
    flow := [], glast := 0 }

/-- A measurement block after its reset: two windows of SETTLE to come (R324). -/
def Mea.reset : Mea :=
  { fact := [], calOk := false, cap := none, settle := (List.range 8).map fun i => (i, 2), lines := 0, curve := [], burn := []
    next := none, nextCj := (0, 0), nextRef := 0, nextWin := 0 }

def Tally.reset : Tally := { edge := 0, soft := 0, handed := 0, traceAt := 0, traced := 0, stopped := false }
def Eth.reset : Eth :=
  { rx := [], rxTs := [], rxPos := 0, tx := [], txQ := [], sent := [], hold := 0, tsq := [], mdio := false }
def Ptp.reset : Ptp := { sec := 0, ns := 0, frac := 0, since := 0, ppsEnd := 0, rateAt := 0 }
def Can.reset : Can := { rx := [], rxPos := 0, tx := [], txPart := [] }
def Hsp.reset : Hsp := { out := [], kind := 0, left := none, stale := 0 }
def Svc.reset : Svc := { vbus := false, prev := 0, config := 0, out := [], ctl := [], diag := [], got := [] }
/-- The JTAG port: IDCODE is selected (R586). -/
def Jtag.reset : Jtag := { ir := 1, cells := [], drive := false, float := false, dr := 0x19640E77, dbgacc := 0 }

/-- Clock, power and mode state at the start of the reset sequence, with the CLK_DIV sets of reset (R562). -/
def Sys.reset : Sys :=
  { mode := .reset, target := none, reqAt := 0, wait := .idle, bankExit := false, safeAfter := false, svcProf := 0,
    divs := 0x00110000, wdAt := 0, xtalOn := true, powering := [], downHeld := [], domReset := [], wdRunning := false,
    wdExpired := false, tempArmed := true, rtcSec := 0, rtcAt := 0, coldTamp := false, mesh2 := false, ctrShadow := [], cause := 0,
    wipes := [], bankAt := 0, wdPer := 0, rcAt := 0, rcSum := 0, relAt := 0, xtalAt := 0, xtalSeen := false }

end Sys2Proof.Machine
end

