-- ==== Sys2Proof/Machine/State.lean ====
section
/-! DEFINITION. The state of the part as plain data, its outcomes that are no next state, and the state after reset. -/

namespace Sys2Proof.Machine

/-- What survives every loss of power (R267): both flash planes and config flash by 32-bit word, the number of wrong bits
of each 16-byte unit of flash and OTP, and OTP by 32-bit word. -/
structure Nv where
  flash : SMap Word
  unitErr : SMap Nat
  otp   : SMap Word
  deriving DecidableEq, Repr

/-- Everything else the part holds. `stuck` lists the SRAM words with a stuck cell (R262). -/
structure Vol where
  now       : Nat
  free      : Nat
  regs      : SMap Word
  rwoUsed   : SMap Word
  resetting : List Nat
  ans       : Ans
  sram      : SMap TWord
  sramErr   : SMap Nat
  stuck     : List Nat
  parked    : List Req
  mtx       : Mtx
  tick      : Tick
  tally     : Tally
  outs      : Outs
  mea       : SMap Mea
  sys       : Sys
  dma       : SMap DmaCh
  eth       : Eth
  ptp       : Ptp
  can       : List Can
  hsp       : Hsp
  svc       : Svc
  jtag      : Jtag
  cores     : List Core
  yok       : Yok
  ldg       : Ldg
  nand      : Nand
  lks       : Lks
  whs       : Whs
  flc       : Flc
  deriving DecidableEq, Repr

/-- The state of the part and the commands that wait. -/
structure State where
  pending : List Instr
  nv      : Nv
  vol     : Vol
  deriving DecidableEq, Repr

/-- Why a step faults. -/
inductive Fault where
  /-- Raised by no meaning: every command of this block has an effect. Safe. -/
  | none
  deriving DecidableEq, Repr

/-- Why a step is refused. -/
inductive Refusal where
  /-- Raised by Dispatch for a command whose meaning is not written yet. Safe. -/
  | notModelled (mnemonic : String)
  deriving DecidableEq, Repr

/-- The volatile part with every register, memory and unit at its reset value, in mode RESET (R19, R95). -/
def Vol.reset : Vol :=
  { now := 0, free := 0, regs := [], rwoUsed := [], resetting := [], ans := ⟨0, TWord.zero⟩, sram := [], sramErr := [],
    stuck := [], parked := [], mtx := Mtx.reset, tick := Tick.reset, tally := Tally.reset, outs := Outs.reset, mea := [], sys := Sys.reset, dma := [],
    eth := Eth.reset, ptp := Ptp.reset, can := [Can.reset, Can.reset], hsp := Hsp.reset, svc := Svc.reset,
    jtag := Jtag.reset, cores := List.replicate 9 Core.reset, yok := Yok.reset, ldg := Ldg.reset, nand := ⟨[], []⟩, lks := Lks.reset,
    whs := Whs.reset, flc := Flc.reset }

/-- The service core as Locksmith starts it (R490, R493). -/
def Core.booted : Core := { Core.reset with run := true }

/-- The part right after a power-on reset (R19, R490, R493, R544): the reset sequence has ended at step 7. OTP and flash are
unprogrammed, so the part is in BLANK (log entry 43): plane A is active and marked verified, the service core runs from its
offset 0 through its prefetch queue, the mode is SERVICE and RST_CAUSE names the power-on. LKS_CHAL shows the TRNG values 0
to 3. -/
def State.reset : State :=
  { pending := []
    nv := { flash := [], unitErr := [], otp := [] }
    vol := { Vol.reset with
      free := 4
      regs := [(0x40003040, 1), (0x40018008, 0x18), (0x4002200C, 1)]
      sys := { Sys.reset with mode := .service, cause := 1 }
      cores := List.replicate 8 Core.reset ++ [Core.booted] } }

end Sys2Proof.Machine
end

