-- ==== Sys2Proof/Machine/Ops.lean ====
section
/-! DEFINITION. The named operations on the register file and on events: fields, the uniform write rule (R4, R5, R11,
R13, R14), raising an event (R8), Tally's lines (R295) and pending sources (R298). -/

namespace Sys2Proof.Machine

/-- The address of the register at an offset of page p. -/
abbrev ra (p off : Nat) : Nat := 0x40000000 + p * 0x1000 + off

/-- Bits hi to lo of a word. -/
def fld (w : Word) (hi lo : Nat) : Nat := (w.toNat / 2 ^ lo) % 2 ^ (hi + 1 - lo)

/-- Bits hi to lo of a word as a two's complement number. -/
def sfld (w : Word) (hi lo : Nat) : Int :=
  let x := fld w hi lo
  if x < 2 ^ (hi - lo) then x else (x : Int) - (2 ^ (hi + 1 - lo) : Nat)

/-- A bit of a word. -/
abbrev bit (w : Word) (i : Nat) : Bool := w.getLsbD i

/-- A word with bits hi to lo replaced. -/
def putFld (w : Word) (hi lo x : Nat) : Word :=
  (w &&& ~~~(BitVec.ofNat 32 ((2 ^ (hi + 1 - lo) - 1) * 2 ^ lo))) |||
    BitVec.ofNat 32 ((x % 2 ^ (hi + 1 - lo)) * 2 ^ lo)

/-- A word from an integer, modulo 2^32. -/
abbrev wordOfInt (x : Int) : Word := BitVec.ofInt 32 x

/-- The word with one bit set. -/
abbrev bitWord (i : Nat) : Word := BitVec.ofNat 32 (2 ^ i)

/-- A number from a Bool. -/
abbrev b2n (b : Bool) : Nat := if b then 1 else 0

/-- The stored value of the register at an address. -/
def rg (v : Vol) (a : Nat) : Word := smapGet regReset v.regs a

/-- Store a register value. -/
def rgSet (v : Vol) (a : Nat) (w : Word) : Vol := { v with regs := smapSet regReset v.regs a w }

/-- A field of a register. -/
def rf (v : Vol) (a hi lo : Nat) : Nat := fld (rg v a) hi lo

/-- A bit of a register. -/
def rb (v : Vol) (a i : Nat) : Bool := bit (rg v a) i

/-- Set a field of a register. -/
def rfSet (v : Vol) (a hi lo x : Nat) : Vol := rgSet v a (putFld (rg v a) hi lo x)

/-- Set bits of a register. -/
def rgOr (v : Vol) (a : Nat) (m : Word) : Vol := rgSet v a (rg v a ||| m)

/-- Clear bits of a register. -/
def rgClr (v : Vol) (a : Nat) (m : Word) : Vol := rgSet v a (rg v a &&& ~~~m)

/-- Set or clear one bit of a register. -/
def rbSet (v : Vol) (a i : Nat) (b : Bool) : Vol := if b then rgOr v a (bitWord i) else rgClr v a (bitWord i)

/-- Count one occurrence in a register that wraps at 2^32. -/
def rgInc (v : Vol) (a : Nat) : Vol := rgSet v a (rg v a + 1)

/-- Count one occurrence in a saturating field of w bits at bit 0. -/
def rgIncSat (v : Vol) (a w : Nat) : Vol := if rf v a (w - 1) 0 = 2 ^ w - 1 then v else rgSet v a (rg v a + 1)

/-- A fresh index for a free value. -/
def nextFree (v : Vol) : Vol := { v with free := v.free + 1 }

-- page numbers (R36)
abbrev pSys : Nat := 0
abbrev pClk : Nat := 1
abbrev pPwr : Nat := 2
abbrev pRst : Nat := 3
abbrev pTick : Nat := 4
abbrev pTal : Nat := 8
abbrev pMbx : Nat := 12
abbrev pCore (k : Nat) : Nat := 0x10 + k
abbrev pMtx : Nat := 0x20
abbrev pWhs : Nat := 0x21
abbrev pFlc : Nat := 0x22
abbrev pDma (e : Nat) : Nat := 0x23 + e
abbrev pTrp : Nat := 0x38
abbrev pStk : Nat := 0x40
abbrev pMns : Nat := 0x42
abbrev pMot (m : Nat) : Nat := 0x44 + m
abbrev pVlv (b : Nat) : Nat := 0x4C + b
abbrev pGio : Nat := 0x4E
abbrev pYok : Nat := 0x50
abbrev pLdg : Nat := 0x60
abbrev pNand (c : Nat) : Nat := 0x61 + c
abbrev pLks : Nat := 0x70
abbrev pEth : Nat := 0x80
abbrev pPtp : Nat := 0x81
abbrev pCan (e : Nat) : Nat := 0x82 + e
abbrev pHsp : Nat := 0x84
abbrev pSvc : Nat := 0x85
abbrev pDbg : Nat := 0x90
abbrev pMea (b : Nat) : Nat := 0xA0 + b

/-- The addresses of a page's header registers (R6). -/
abbrev aCtl (p : Nat) : Nat := ra p 0x008
abbrev aStat (p : Nat) : Nat := ra p 0x00C
abbrev aEvEn (p : Nat) : Nat := ra p 0x014
abbrev aEvPend (p : Nat) : Nat := ra p 0x018
abbrev aFault (p : Nat) : Nat := ra p 0x020
abbrev aGate (p : Nat) : Nat := ra p 0x024

/-- Whether power domain d is switched on and released: it is up, or it holds an SRAM that its power-up still wipes. -/
def domOn (v : Vol) (d : Nat) : Bool :=
  if d = 0 then true else rb v (ra pPwr (0x04C + 4 * ((d - 1) / 32))) ((d - 1) % 32)

/-- Whether power domain d is up (R548, R550, R564): PWR_STAT, which an SRAM domain has once its wipe has ended; domain 0 always is
outside COLD. -/
def domUp (v : Vol) (d : Nat) : Bool := domOn v d && decide (smapGet (fun _ => 0) v.sys.wipes d ≤ v.now)

/-- Whether a test forces the clock gates of domain d off (R287, R542). -/
def gateForced (v : Vol) (d : Nat) : Bool := d != 0 && rb v (ra pClk (0x07C + 4 * ((d - 1) / 32))) ((d - 1) % 32)

/-- Whether the block whose first page is p accepts requests: STAT.READY (R7, R10, R287). -/
def ready (v : Vol) (p : Nat) : Bool :=
  domUp v (pageDom p) && !v.resetting.contains p && !gateForced v (pageDom p)

/-- Whether the trees run on the RC (R540, R541). -/
def onRc (v : Vol) : Bool := rb v (aStat pClk) 4 || !rb v (ra pClk 0x040) 0

/-- Time in units of 2.5 ns (R541): `now` counts cycles, each of which lasts 12.5 times as long while the trees run on the RC. -/
def wall (v : Vol) : Nat := v.now + v.sys.rcSum + (if onRc v then (v.now - v.sys.rcAt) * 23 / 2 else 0)

/-- Wait until a time has come (R541). -/
def wallTo (v : Vol) (t : Nat) : Vol :=
  { v with now := v.now + (if onRc v then (2 * (t - wall v) + 24) / 25 else t - wall v) }

/-- Before the trees change their source, the time that the cycles so far have taken is noted. -/
def rcNoted (v : Vol) : Vol := { v with sys := { v.sys with rcSum := wall v - v.now, rcAt := v.now } }

/-- The CCLK divider in force (R535): of the WARM set in WARM, else of the run set; 1 on the RC (R539). -/
def cclkDiv (v : Vol) : Nat :=
  if rb v (aStat pClk) 4 then 1
  else if v.sys.mode == .warm then fld v.sys.divs 17 16 + 1
  else fld v.sys.divs 1 0 + 1

/-- The MCLK divider in force (R535): 1 on the RC. -/
def mclkDiv (v : Vol) : Nat :=
  if rb v (aStat pClk) 4 then 1
  else if v.sys.mode == .warm then 2 * (fld v.sys.divs 21 20 + 1)
  else 2 * (fld v.sys.divs 5 4 + 1)

/-- A request reaches the block of page p (R286, R542): a deferred close is cancelled, a closed gate opens in two MCLK cycles.
All pages of a block have one gate. -/
def gateOpened (v : Vol) (p : Nat) : Vol :=
  let a := aGate (blockPage p)
  if rg v a = 0 then v
  else if rg v a = 2 then { rgSet v a 0 with now := v.now + 2 * mclkDiv v }
  else rgSet v a 0

/-- Set a sticky fault bit of a page. -/
def setFault (v : Vol) (p i : Nat) : Vol := rgOr v (aFault p) (bitWord i)

/-! ### Cores -/

abbrev zeroT (_ : Nat) : TWord := TWord.zero

/-- Core k and its replacement. -/
def coreOf (v : Vol) (k : Nat) : Core := v.cores.getD k Core.reset
def setCore (v : Vol) (k : Nat) (c : Core) : Vol := { v with cores := v.cores.set k c }
def onCore (v : Vol) (k : Nat) (f : Core → Core) : Vol := setCore v k (f (coreOf v k))

/-- The data of a stored sys register, and XSTAT.ACTIVE (R191). -/
def sysW (c : Core) (n : Nat) : Word := (smapGet zeroT c.sys n).data
def xActive (c : Core) : Bool := bit (sysW c 0x52) 0

/-- Whether core k is powered and out of reset (R10, R19). -/
def coreUp (v : Vol) (k : Nat) : Bool := ready v (pCore k)

/-! ### Tally lines and pending sources (R295-R302) -/

/-- The EV_PEND register and bits that form the line of a source (R295); none for a source with no EV_PEND bit. -/
def srcBits (n : Nat) : Option (Nat × Nat) :=
  let at' (p i : Nat) := some (p, 2 ^ i)
  if n ≤ 2 then at' pClk n
  else if n = 3 then at' pLks 8
  else if n = 4 then at' pLks 9
  else if n ≤ 7 then at' pPwr (n - 5)
  else if n ≤ 10 then at' pSys (n - 8)
  else if n ≤ 13 then at' pRst (n - 11)
  else if n = 14 then at' pMbx 0
  else if n ≤ 17 then at' pMtx (n - 15)
  else if n ≤ 19 then at' (pDma 0) (n - 18)
  else if n ≤ 21 then at' (pDma 1) (n - 20)
  else if n = 22 then none
  else if n ≤ 27 then at' pWhs (n - 23)
  else if n ≤ 31 then at' pFlc (n - 28)
  else if n ≤ 57 then (if n = 40 then none else at' pTick (n - 32))
  else if n ≤ 63 then none
  else if n ≤ 135 then (if (n - 64) % 8 = 7 then none else at' (pCore ((n - 64) / 8)) ((n - 64) % 8))
  else if n ≤ 159 then none
  else if n ≤ 351 then at' (pMea ((n - 160) / 8)) ((n - 160) % 8)
  else if n ≤ 375 then some (pMea (n - 352), 0xF00)
  else if n ≤ 391 then at' pTrp (n - 376)
  else if n ≤ 399 then at' pStk (n - 392)
  else if n ≤ 415 then none
  else if n ≤ 423 then at' pMns (n - 416)
  else if n ≤ 447 then at' (pMot ((n - 424) / 3)) ((n - 424) % 3)
  else if n ≤ 463 then (if (n - 448) % 8 ≤ 2 then at' (pVlv ((n - 448) / 8)) ((n - 448) % 8) else none)
  else if n ≤ 478 then at' pGio (n - 464)
  else if n = 479 then none
  else if n ≤ 487 then at' pYok (n - 480)
  else if n ≤ 495 then at' pLdg (n - 488)
  else if n ≤ 503 then at' pLks (n - 496)
  else if n = 504 then some (pEth, 0x1F)
  else if n = 505 then some (pPtp, 7)
  else if n = 506 then some (pCan 0, 0x1F)
  else if n = 507 then some (pCan 1, 0x1F)
  else if n = 508 then some (pHsp, 1)
  else if n = 509 then some (pSvc, 7)
  else if n = 510 then some (pDbg, 3)
  else none

/-- The source whose line a page's EV_PEND bit i belongs to (R295). -/
def evSource (p i : Nat) : Option Nat :=
  match pageInfo p with
  | none => none
  | some inf =>
    if !(blkEvents inf.blk).testBit i then none
    else
      match inf.blk with
      | .clk => some i
      | .lks0 => if i = 8 then some 3 else if i = 9 then some 4 else some (496 + i)
      | .pwr => some (5 + i)
      | .sys => some (8 + i)
      | .rst => some (11 + i)
      | .mbx0 => some 14
      | .mtx => some (15 + i)
      | .dma => some (18 + 2 * inf.inst + i)
      | .whs => some (23 + i)
      | .flc => some (28 + i)
      | .tick => some (32 + i)
      | .core | .core8 => some (64 + 8 * inf.inst + i)
      | .mea => some (if i < 8 then 160 + 8 * inf.inst + i else 352 + inf.inst)
      | .trp => some (376 + i)
      | .stk0 => some (392 + i)
      | .mns => some (416 + i)
      | .mot => some (424 + 3 * inf.inst + i)
      | .vlv => some (448 + 8 * inf.inst + i)
      | .gio => some (464 + i)
      | .yok => some (480 + i)
      | .ldg => some (488 + i)
      | .eth => some 504
      | .ptp => some 505
      | .can => some (506 + inf.inst)
      | .hsp => some 508
      | .svc => some 509
      | .dbg => some 510
      | .tal0 | .tal1 | .tal2 | .tal3 | .mbx1 | .stk1 | .nand | .lks1 | .lks2 | .lks3 => none

/-- The address of a mailbox register (R313). -/
def aMbx (m off : Nat) : Nat := ra (pMbx + m / 12) (0x040 + 0x40 * (m % 12) + off)

/-- The line of source n (R295): its EV_PEND bits, the attention of a mailbox (R306) or, for source 40, a core's RPV
flag (R203). -/
def line (v : Vol) (n : Nat) : Bool :=
  if n = 40 then (List.range 9).any fun k => rb v (aStat (pCore k)) 8
  else if 136 ≤ n ∧ n < 160 then (rg v (aMbx (n - 136) 0x10) &&& rg v (aMbx (n - 136) 0x14)) != 0
  else
    match srcBits n with
    | some (p, m) => (rg v (aEvPend p) &&& BitVec.ofNat 32 m) != 0
    | none => false

/-- TAL_EN of a source (R297, R302). -/
def talEn (v : Vol) (n : Nat) : Bool := rb v (ra (pTal + 2) (0x040 + 4 * (n / 32))) (n % 32)

/-- TAL_CFG of a source: EDGE, PRI and ROUTE (R297). -/
def talCfg (v : Vol) (n : Nat) : Nat := rf v (ra (pTal + 1) (0x040 + 4 * (n / 4))) (8 * (n % 4) + 7) (8 * (n % 4))
def talEdge (v : Vol) (n : Nat) : Bool := (talCfg v n).testBit 7
def talPri (v : Vol) (n : Nat) : Nat := talCfg v n / 16 % 8
def talRoute (v : Vol) (n : Nat) : Nat := talCfg v n % 16

/-- Whether source n is pending (R298). -/
def srcPending (v : Vol) (n : Nat) : Bool :=
  talEn v n && ((if talEdge v n then v.tally.edge.getLsbD n else line v n) || v.tally.soft.getLsbD n)

/-- A source number as a bit of Tally's latches. -/
abbrev srcBit (n : Nat) : BitVec 512 := BitVec.ofNat 512 (2 ^ n)

/-- What a change of the part's state does to the latch of source n (R298): when its line rose and the source is
enabled, the edge latch sets; a source that was not pending waits to be handed to its route (R299, R304). -/
def noteLine (n : Nat) (v v' : Vol) : Vol :=
  if line v' n && !line v n then
    { v' with tally := { v'.tally with
        edge := if talEn v' n then v'.tally.edge ||| srcBit n else v'.tally.edge
        handed := if srcPending v n then v'.tally.handed else v'.tally.handed &&& ~~~srcBit n } }
  else v'

/-- An occurrence of event i of page p (R8): its EV_PEND bit sets while its EV_EN bit is 1. -/
def raiseEvent (v : Vol) (p i : Nat) : Vol :=
  if rb v (aEvEn p) i then
    let v' := rgOr v (aEvPend p) (bitWord i)
    match evSource p i with
    | some n => noteLine n v v'
    | none => v'
  else v

/-- Occurrences of several events of a page. -/
def raiseEvents (v : Vol) (p : Nat) : List Nat → Vol
  | [] => v
  | i :: rest => raiseEvents (raiseEvent v p i) p rest

/-- Raise an event under a condition. -/
def raiseIf (c : Bool) (v : Vol) (p i : Nat) : Vol := if c then raiseEvent v p i else v

/-! ### Register writes (R4, R5, R11, R13, R14) -/

/-- How a register page access reaches a register (R1, R4). -/
inductive Via where
  | direct | setBits | clearBits
  deriving DecidableEq, Repr

/-- Check each field with reserved codes of a candidate value: a rejected field keeps its old value (R14, R5). The answer
tells whether any field was rejected, and the mask of the rejected bits. -/
def rejectFields (old : Word) : List Chk → Word → Word × Nat
  | [], w => (w, 0)
  | c :: rest, w =>
    let (w', m) := rejectFields old rest w
    if badCode c.bad (fld w' c.hi c.lo) then
      (putFld w' c.hi c.lo (fld old c.hi c.lo), m ||| ((2 ^ (c.hi + 1 - c.lo) - 1) * 2 ^ c.lo))
    else (w', m)

/-- The value that a write asks of a plain register or window with a stored value (R4). -/
def asked (via : Via) (old w : Word) : Word :=
  match via with
  | .direct => w
  | .setBits => old ||| w
  | .clearBits => old &&& ~~~w

/-- What a register takes from a write: its new value, the mask of rejected bits and the RWO bits it accepted (R4, R11,
R13, R14). `used` holds the RWO bits already written. -/
def writeValue (s : RegSpec) (via : Via) (old used w : Word) : Word × Nat × Word :=
  let rw := BitVec.ofNat 32 s.rw
  let w1c := BitVec.ofNat 32 s.w1c
  let rwo := BitVec.ofNat 32 s.rwo &&& ~~~used
  match via with
  | .direct =>
    let (x, m) := rejectFields old s.chk ((old &&& ~~~(rw ||| rwo)) ||| (w &&& (rw ||| rwo)))
    (x &&& ~~~(w &&& w1c), m, rwo &&& ~~~(BitVec.ofNat 32 m))
  | .setBits =>
    let (x, m) := rejectFields old s.chk (old ||| (w &&& rw))
    (x, m, 0)
  | .clearBits =>
    let (x, m) := rejectFields old s.chk (old &&& ~~~(w &&& rw))
    (x &&& ~~~(w &&& w1c), m, 0)

/-- The uniform write of a register: its fields take the value, and STAT.RSVW of its block sets when a field was
rejected (R14). -/
def regWrite (v : Vol) (p off : Nat) (via : Via) (w : Word) : Vol :=
  match specAt p off with
  | none => v
  | some s =>
    let a := ra p off
    let (x, m, used) := writeValue s via (rg v a) (smapGet (fun _ => 0) v.rwoUsed a) w
    let v := rgSet v a x
    let v := if used = 0 then v
      else { v with rwoUsed := smapSet (fun _ => 0) v.rwoUsed a (smapGet (fun _ => 0) v.rwoUsed a ||| used) }
    if m = 0 then v else rgOr v (aStat (blockPage p)) (bitWord 30)

/-- The bits of a register that the write puts to 1 from 0, and to 0 from 1. -/
abbrev rose (old new : Word) (i : Nat) : Bool := !bit old i && bit new i
abbrev fell (old new : Word) (i : Nat) : Bool := bit old i && !bit new i

/-- Return every register of one page to its reset value (R19). -/
def wipePage (v : Vol) (p : Nat) : Vol :=
  let keep (a : Nat) : Bool := !(ra p 0 ≤ a && a < ra p 0x400)
  { v with regs := smapKeep keep v.regs, rwoUsed := smapKeep keep v.rwoUsed }

/-- Return every register of several pages to its reset value. -/
def wipePages (v : Vol) : List Nat → Vol
  | [] => v
  | p :: rest => wipePages (wipePage v p) rest

/-- Cycles since the boundary (TICK_CYC), modulo the field's 19 bits; 0 before the first boundary. -/
def tickCyc (v : Vol) : Nat := if v.tick.had then (v.now - v.tick.boundary) % 2 ^ 19 else 0

/-- Answer a bus request. -/
def answer (v : Vol) (code : Nat) (data : TWord) : Vol := { v with ans := ⟨code, data⟩ }
abbrev answerOk (v : Vol) : Vol := answer v 0 TWord.zero

/-- The next state of a command that acts on the volatile part alone. -/
def onVol (s : State) (f : Nv → Vol → Vol) : Host.Outcome State Fault Refusal :=
  .next { s with vol := f s.nv s.vol }

/-- The next state of a command that may also write the non-volatile memories. -/
def onBoth (s : State) (f : Nv → Vol → Nv × Vol) : Host.Outcome State Fault Refusal :=
  .next { s with nv := (f s.nv s.vol).1, vol := (f s.nv s.vol).2 }

end Sys2Proof.Machine
end

