-- ==== Sys2Proof/Machine/Crc.lean ====
section
/-! DEFINITION. Byte lists and their check sequences: CRC-32 and CRC-32C (log entry 31), and the CRC-64 of R422. -/

namespace Sys2Proof.Machine

/-- Byte i of a list, 0 beyond its end. -/
abbrev byteAt (f : List Byte) (i : Nat) : Nat := (f.getD i 0).toNat

/-- A big-endian half-word of a list. -/
abbrev be16 (f : List Byte) (i : Nat) : Nat := byteAt f i * 256 + byteAt f (i + 1)

/-- A 32-bit word of a byte list, low byte first, 0 beyond its end. -/
def leWord (f : List Byte) (i : Nat) : Word :=
  BitVec.ofNat 32 (byteAt f i + byteAt f (i + 1) * 0x100 + byteAt f (i + 2) * 0x10000 + byteAt f (i + 3) * 0x1000000)

/-- The bytes of a word, low byte first. -/
def wordBytes (w : Word) : List Byte :=
  [w.extractLsb' 0 8, w.extractLsb' 8 8, w.extractLsb' 16 8, w.extractLsb' 24 8]

/-- One bit step of a reflected 32-bit CRC with a polynomial. -/
def crc32Bit (poly : Word) (c : Word) : Word := if bit c 0 then (c >>> 1) ^^^ poly else c >>> 1

/-- One byte of a reflected 32-bit CRC. -/
def crc32Byte (poly : Word) (c : Word) (b : Byte) : Word :=
  let s := crc32Bit poly
  s (s (s (s (s (s (s (s (c ^^^ b.setWidth 32))))))))

/-- A reflected 32-bit CRC of a byte list, starting from all ones and complemented. -/
def crc32 (poly : Word) (f : List Byte) : Word := ~~~(f.foldl (crc32Byte poly) 0xFFFFFFFF)

/-- The polynomial of the Ethernet check sequence, reflected (IEEE 802.3; log entry 31). -/
abbrev crc32Ether : Word := 0xEDB88320

/-- The polynomial of CRC-32C, reflected (Castagnoli; log entry 31). -/
abbrev crc32cPoly : Word := 0x82F63B78

/-- CRC-32C of a byte list. -/
def crc32c (f : List Byte) : Word := crc32 crc32cPoly f

/-- The bytes of a word list, low bytes first. -/
def bytesOf (ws : List Word) : List Byte := ws.flatMap wordBytes

/-- One bit step of the CRC-64 of ECMA-182 (R422). -/
def crc64Bit (c : BitVec 64) : BitVec 64 := if c.msb then (c <<< 1) ^^^ 0x42F0E1EBA9EA3693 else c <<< 1

/-- One byte of it, most significant bit first. -/
def crc64Byte (c : BitVec 64) (b : Byte) : BitVec 64 :=
  let s := crc64Bit
  s (s (s (s (s (s (s (s (c ^^^ (b.setWidth 64 <<< 56)))))))))

/-- The CRC-64 of a byte list from 0 (R422). -/
def crc64 (f : List Byte) : BitVec 64 := f.foldl crc64Byte 0

end Sys2Proof.Machine
end

