-- ==== Sys2Proof/Machine/PtpOps.lean ====
section
/-! DEFINITION. The PTP clock (R572-R574, R592) and what a write of its page does. -/

namespace Sys2Proof.Machine

/-- The advance of PTP time over n TCLK periods, in units of 2^-32 ns: 2.5 ns x (1 + PTP_RATE / (256 x 10^9)) each
(R572). The rate's contribution is rounded down (log entry 30). -/
def ptpAdvance (rate : Int) (n : Nat) : Int :=
  10737418240 * n + (rate * 10737418240 * n) / (256 * 1000000000)

/-- PTP time in units of 2^-32 ns as (seconds, the rest) from a total. -/
def ptpNorm (total : Int) : Nat × Nat × Nat :=
  let t := total.toNat
  let ns := t / 4294967296
  (ns / 1000000000 % 2 ^ 48, ns % 1000000000, t % 4294967296)

/-- The PTP time held, in units of 2^-32 ns. -/
def ptpTotal (p : Ptp) : Int := ((p.sec * 1000000000 + p.ns) * 4294967296 + p.frac : Nat)

/-- PTP time now: seconds, nanoseconds and fraction. It runs while CTL.EN is 1. -/
def ptpNow (v : Vol) : Nat × Nat × Nat :=
  if rb v (aCtl pPtp) 0 then
    ptpNorm (ptpTotal v.ptp + ptpAdvance (rg v (ra pPtp 0x04C)).toInt (v.now - v.ptp.since))
  else (v.ptp.sec, v.ptp.ns, v.ptp.frac)

/-- PTP time now in whole nanoseconds. -/
def ptpNanos (v : Vol) : Nat := (ptpNow v).1 * 1000000000 + (ptpNow v).2.1

/-- PTP time n TCLK periods ago, in whole nanoseconds (R571). -/
def ptpNanosAgo (v : Vol) (n : Nat) : Nat :=
  if rb v (aCtl pPtp) 0 then
    let rate := (rg v (ra pPtp 0x04C)).toInt
    let t := ptpNorm (ptpTotal v.ptp + ptpAdvance rate (v.now - v.ptp.since) - ptpAdvance rate n)
    t.1 * 1000000000 + t.2.1
  else ptpNanos v

/-- The TCLK periods until PTP time reaches its next whole second; none when it has just reached one. -/
def ptpToSecond (v : Vol) : Nat :=
  let t := ptpNow v
  if t.2.1 < 3 then 0
  else
    let rest : Int := ((1000000000 - t.2.1) * 4294967296 - t.2.2 : Nat)
    let rate := (rg v (ra pPtp 0x04C)).toInt
    let step := 10737418240 * (256000000000 + rate)
    ((rest * 256000000000 + step - 1) / step).toNat

/-- Ethernet and the service port run on the PLL_IO clocks and stop when the trees fail over to the RC (R539, R597). -/
def ioClocked (v : Vol) : Bool := rb v (ra pClk 0x040) 1 && !rb v (aStat pClk) 4

/-- Take the present time as the base, before the rate or the enable changes. -/
def ptpRebase (v : Vol) : Vol :=
  let t := ptpNow v
  { v with ptp := { v.ptp with sec := t.1, ns := t.2.1, frac := t.2.2, since := v.now } }

/-- Set SYNCED, or clear it with event 0 when it falls (R573, R596). -/
def ptpSynced (v : Vol) (b : Bool) : Vol :=
  if b then rgOr v (aStat pPtp) 1
  else if rb v (aStat pPtp) 0 then raiseEvent (rgClr v (aStat pPtp) 1) pPtp 0
  else v

/-- PTP_HOLD expires: without a rate write in PTP_HOLD ms SYNCED clears (R573). -/
def ptpHoldExpire (v : Vol) : Vol :=
  let h := rf v (ra pPtp 0x060) 15 0
  if h = 0 || !rb v (aStat pPtp) 0 then v else ptpSynced { v with now := max v.now (v.ptp.rateAt + h * 400000) } false

/-- A write of a PTP register: SET, STEP and SYNC act and the first two read 0 again (R572, R592). -/
def ptpWrite (v : Vol) (off : Nat) (via : Via) (w : Word) : Vol :=
  let old := rg v (ra pPtp off)
  if off = 0x008 then
    let v := regWrite (ptpRebase v) pPtp off via w
    let c := rg v (aCtl pPtp)
    let v := rgClr v (aCtl pPtp) 6
    let v := if bit c 1 then
        { v with ptp := { v.ptp with
            ns := rf v (ra pPtp 0x050) 29 0, frac := 0, since := v.now
            sec := (rg v (ra pPtp 0x054)).toNat + rf v (ra pPtp 0x058) 15 0 * 4294967296 } }
      else v
    let v := if bit c 2 then
        let t := ptpNorm (ptpTotal v.ptp + (rg v (ra pPtp 0x05C)).toInt * 4294967296)
        { v with ptp := { v.ptp with sec := t.1, ns := t.2.1, frac := t.2.2 } }
      else v
    if bit w 3 && via != .clearBits then ptpSynced v true
    else if fell old c 3 then ptpSynced v false else v
  else if off = 0x04C then
    let v := ptpRebase v
    regWrite { v with ptp := { v.ptp with rateAt := v.now } } pPtp off via w
  else regWrite v pPtp off via w

/-- What a read of a PTP register shows, and what it latches: a read of PTP_NS latches the seconds (R592). -/
def ptpView (v : Vol) (off : Nat) : Word :=
  if off = 0x040 then BitVec.ofNat 32 (ptpNow v).2.1 else rg v (ra pPtp off)

def ptpOnRead (v : Vol) (off : Nat) : Vol :=
  if off = 0x040 then
    let t := (ptpNow v).1
    rgSet (rgSet v (ra pPtp 0x044) (BitVec.ofNat 32 (t % 2 ^ 32))) (ra pPtp 0x048) (BitVec.ofNat 32 (t / 2 ^ 32))
  else v

/-- A whole second of PTP time: the pulse starts and event 1 occurs (R574). -/
def ptpPulse (v : Vol) : Vol :=
  if !ready v pPtp || !rb v (aCtl pPtp) 0 then v
  else
  let v := { v with now := v.now + ptpToSecond v }
  raiseEvent { v with ptp := { v.ptp with ppsEnd := v.now + rf v (ra pPtp 0x064) 15 0 * 400 } } pPtp 1

/-- Ball PTP_PPS (R574). -/
def ptpPpsPin (v : Vol) : Bool := decide (v.now < v.ptp.ppsEnd)

/-- A rising edge on PTP_CAP latches PTP time and raises event 2 (R574). -/
def ptpCapture (v : Vol) : Vol :=
  if !ready v pPtp then v
  else
  let t := ptpNow v
  let v := rgSet v (ra pPtp 0x068) (BitVec.ofNat 32 t.2.1)
  let v := rgSet v (ra pPtp 0x06C) (BitVec.ofNat 32 (t.1 % 2 ^ 32))
  raiseEvent (rgSet v (ra pPtp 0x070) (BitVec.ofNat 32 (t.1 / 2 ^ 32))) pPtp 2

end Sys2Proof.Machine
end

