-- ==== Sys2Proof/Machine/EthOps.lean ====
section
/-! DEFINITION. The Ethernet controller (R568-R571, R591): receive filter and buffer, transmit buffer, timestamp queue and
MDIO. Frames are byte lists without the check sequence, which the part checks and generates. -/

namespace Sys2Proof.Machine

/-- Whether the receive filter takes a destination address (R568): unicast, broadcast, a multicast hash bin on CRC-32
bits [31:26], or any while promiscuous. -/
def ethAdmits (v : Vol) (f : List Byte) : Bool :=
  let dst := f.take 6
  let own := wordBytes (rg v (ra pEth 0x040)) ++ (wordBytes (rg v (ra pEth 0x044))).take 2
  let bin := fld (crc32 crc32Ether dst) 31 26
  rb v (ra pEth 0x048) 4
  || dst == own
  || (dst == List.replicate 6 0xFF && rb v (ra pEth 0x048) 5)
  || (byteAt dst 0 % 2 == 1 && dst != List.replicate 6 0xFF && rb v (ra pEth (0x04C + 4 * (bin / 32))) (bin % 32))

/-- The offset of the PTP header of an event message in a frame, if it is one: messageType 0 to 3 over Ethernet
(EtherType 0x88F7) or over UDP and IPv4 to port 319 or 320, after at most one VLAN tag (R568, R571). -/
def ptpHeaderAt (f : List Byte) : Option Nat :=
  let t := if be16 f 12 = 0x8100 then 16 else 12
  let h :=
    if be16 f t = 0x88F7 then some (t + 2)
    else if be16 f t = 0x0800 ∧ byteAt f (t + 11) = 17 then
      let u := t + 2 + byteAt f (t + 2) % 16 * 4
      if be16 f (u + 2) = 319 ∨ be16 f (u + 2) = 320 then some (u + 8) else none
    else none
  match h with
  | some i => if byteAt f i % 16 ≤ 3 ∧ i < f.length then some i else none
  | none => none

/-- TCLK periods from the end of a frame's start-of-frame delimiter to the end of its check sequence (R568, R571). -/
def ethAir (v : Vol) (f : List Byte) : Nat := (f.length + 4) * (if rb v (ra pEth 0x048) 0 then 32 else 320)

/-- Enter a timestamp, taken at the end of the start-of-frame delimiter, into the 16-entry queue, or lose it with TSLOST (R571).
`adj` is the latency in ns, added. -/
def ethStamp (v : Vol) (tx : Bool) (f : List Byte) (i : Nat) (adj : Int) : Vol :=
  if 16 ≤ v.eth.tsq.length then setFault v pEth 1
  else
    let t := ((ptpNanosAgo v (ethAir v f) : Int) + adj).toNat
    let e : TsEntry := ⟨tx, byteAt f i % 16, be16 f (i + 30), t % 1000000000, t / 1000000000⟩
    raiseEvent { v with eth := { v.eth with tsq := v.eth.tsq ++ [e] } } pEth 2

/-- The words a frame takes in the receive buffer. -/
abbrev frameWords (f : List Byte) : Nat := (f.length + 3) / 4

/-- A received frame (R568-R571): a bad check sequence sets RXCRC; a PAUSE frame holds the transmitter; an admitted frame
enters the 8 KiB buffer or is dropped whole and counted; a PTP event message is timestamped either way. -/
def ethReceive (v : Vol) (f : List Byte) (good : Bool) : Vol :=
  if !ready v pEth || !ioClocked v || !rb v (aCtl pEth) 1 || f.length < 60 || 1518 < f.length then v
  else if !good then setFault v pEth 0
  else if f.take 6 == [0x01, 0x80, 0xC2, 0x00, 0x00, 0x01] && be16 f 12 == 0x8808 && be16 f 14 == 1 then
    if rb v (ra pEth 0x048) 1 then
      let unit := if rb v (ra pEth 0x048) 0 then 2048 else 20480
      { v with eth := { v.eth with hold := v.now + be16 f 16 * unit } }
    else v
  else if !ethAdmits v f then v
  else
    let ts := ptpHeaderAt f
    let v1 := match ts with
      | some i => ethStamp v false f i (-(rf v (ra pEth 0x064) 15 0 : Int))
      | none => v
    let used := (v.eth.rx.map frameWords).sum
    if 2048 < used + frameWords f then raiseEvent (rgInc v1 (ra pEth 0x07C)) pEth 3
    else
      raiseEvent { v1 with eth := { v1.eth with rx := v1.eth.rx ++ [f], rxTs := v1.eth.rxTs ++ [ts.isSome] } } pEth 0

/-- What ETH_RXSTAT shows of the head frame (R569). -/
def ethRxStat (v : Vol) : Word :=
  match v.eth.rx with
  | [] => 0
  | f :: _ => BitVec.ofNat 32 (2 ^ 31 + b2n (v.eth.rxTs.headD false) * 2 ^ 30 + f.length)

/-- The next word of the head frame (R569); 0 with no frame. -/
def ethRxWord (v : Vol) : Word := leWord (v.eth.rx.headD []) (4 * v.eth.rxPos)

/-- A read of ETH_RXDATA takes the word; after the last word the next frame is at the head (R569). -/
def ethRxTake (v : Vol) : Vol :=
  match v.eth.rx with
  | [] => v
  | f :: rest =>
    if frameWords f ≤ v.eth.rxPos + 1 then
      { v with eth := { v.eth with rx := rest, rxTs := v.eth.rxTs.tail, rxPos := 0 } }
    else { v with eth := { v.eth with rxPos := v.eth.rxPos + 1 } }

/-- A write of ETH_TXDATA: once ETH_TXLEN bytes, rounded up to words, are in, the frame, padded to 60 bytes, joins those to
send (R570). -/
def ethTxPut (v : Vol) (w : Word) : Vol :=
  let len := rf v (ra pEth 0x05C) 10 0
  let buf := v.eth.tx ++ wordBytes w
  if len < 14 then v
  else if len ≤ buf.length then
    let f := buf.take len
    { v with eth := { v.eth with tx := [], txQ := v.eth.txQ ++ [f ++ List.replicate (60 - f.length) 0] } }
  else { v with eth := { v.eth with tx := buf } }

/-- A frame transmission completes (R570, R571, R596); a PAUSE in force delays it (R568). -/
def ethSent (v : Vol) : Vol :=
  if !ready v pEth || !ioClocked v || !rb v (aCtl pEth) 0 then v
  else
    match v.eth.txQ with
    | [] => v
    | f :: rest =>
      let v := { v with now := max v.now v.eth.hold, eth := { v.eth with txQ := rest, sent := f } }
      let v := match ptpHeaderAt f with
        | some i => ethStamp v true f i (rf v (ra pEth 0x064) 31 16)
        | none => v
      raiseEvent v pEth 1

/-- What the four words of ETH_TSQ show of the head entry (R591). -/
def ethTsq (v : Vol) (i : Nat) : Word :=
  match v.eth.tsq with
  | [] => 0
  | e :: _ =>
    BitVec.ofNat 32
      (if i = 0 then 2 ^ 31 + b2n e.tx * 2 ^ 30 + e.msg * 2 ^ 24 + e.seq
      else if i = 1 then e.ns
      else if i = 2 then e.sec % 2 ^ 32
      else e.sec / 2 ^ 32 % 2 ^ 16)

/-- The MDIO operation completes: BUSY clears, a read's data lands and event 4 occurs (R591, R596). -/
def ethMdioDone (v : Vol) (data : Nat) : Vol :=
  let a := ra pEth 0x078
  if !v.eth.mdio || !ioClocked v then v
  else
    let v := if rb v a 26 then rfSet v a 15 0 data else v
    raiseEvent (rgClr { v with eth := { v.eth with mdio := false } } a (bitWord 31)) pEth 4

/-- A write of an ETH register. A write of ETH_MDIO starts an operation; one written while BUSY is ignored (log entry
32). A write of ETH_TXLEN begins a new frame. -/
def ethWrite (v : Vol) (off : Nat) (via : Via) (w : Word) : Vol :=
  if off = 0x060 then (if via = .direct then ethTxPut v w else v)
  else if off = 0x05C then
    let v := regWrite v pEth off via w
    { v with eth := { v.eth with tx := [] } }
  else if off = 0x078 then
    if v.eth.mdio then v
    else rgOr { regWrite v pEth off via w with eth := { v.eth with mdio := true } } (ra pEth off) (bitWord 31)
  else regWrite v pEth off via w

def ethView (v : Vol) (off : Nat) : Word :=
  if off = 0x054 then ethRxStat v
  else if off = 0x058 then ethRxWord v
  else if 0x068 ≤ off ∧ off < 0x078 then ethTsq v ((off - 0x068) / 4)
  else rg v (ra pEth off)

def ethOnRead (v : Vol) (off : Nat) : Vol :=
  if off = 0x058 then ethRxTake v
  else if off = 0x074 then { v with eth := { v.eth with tsq := v.eth.tsq.tail } }
  else v

end Sys2Proof.Machine
end

