-- ==== Sys2Proof/Machine/CanOps.lean ====
section
/-! DEFINITION. The CAN FD controllers (R575-R577, R593). -/

namespace Sys2Proof.Machine

/-- A controller's state. -/
def canOf (v : Vol) (e : Nat) : Can := v.can.getD e ⟨[], 0, [], []⟩
def canPut (v : Vol) (e : Nat) (c : Can) : Vol := { v with can := v.can.set e c }

/-- The bytes of data a DLC stands for: up to 8 in a classical frame, up to 64 in an FD frame (ISO 11898-1; log entry
33). -/
def dlcBytes (fd : Bool) (d : Nat) : Nat :=
  if d ≤ 8 then d
  else if !fd then 8
  else if d = 9 then 12 else if d = 10 then 16 else if d = 11 then 20 else if d = 12 then 24
  else if d = 13 then 32 else if d = 14 then 48 else 64

/-- The record of a frame (R576): the matching filter, the tick number and the cycle at the end of the frame. -/
def canRecord (f : CanFrame) (filter tick cyc : Nat) : List Word :=
  let n := if f.rtr then 0 else dlcBytes f.fdf f.dlc.toNat
  let data := f.data.take n
  [BitVec.ofNat 32 (b2n f.ide * 2 ^ 31 + b2n f.fdf * 2 ^ 30 + b2n f.brs * 2 ^ 29 + f.id.toNat),
   BitVec.ofNat 32 (f.dlc.toNat * 2 ^ 28 + b2n f.esi * 2 ^ 27 + b2n f.rtr * 2 ^ 26 + filter * 2 ^ 16 + tick % 2 ^ 16)]
  ++ (List.range 16).map (fun i => leWord data (4 * i))
  ++ [BitVec.ofNat 32 cyc, 0]

/-- The lowest enabled filter that a frame passes (R576, R593). -/
def canMatch (v : Vol) (e : Nat) (f : CanFrame) : Option Nat :=
  (List.range 32).find? fun i =>
    let w := rg v (ra (pCan e) (0x100 + 8 * i))
    let m := rf v (ra (pCan e) (0x104 + 8 * i)) 28 0
    bit w 31 && bit w 30 == f.ide && (BitVec.ofNat 32 m &&& (w ^^^ f.id.setWidth 32)) == 0

/-- Whether a controller takes part in bus traffic: enabled, not bus-off, and the trees not on the RC (R577). -/
def canOnBus (v : Vol) (e : Nat) : Bool :=
  ready v (pCan e) && rb v (aCtl (pCan e)) 0 && rf v (ra (pCan e) 0x04C) 25 24 != 2 && !rb v (aStat pClk) 4

/-- Lower a CAN error counter after good traffic (ISO 11898-1; log entry 33). -/
def canErrDown (v : Vol) (e hi lo : Nat) : Vol :=
  let a := ra (pCan e) 0x04C
  if rf v a hi lo = 0 then v else rfSet v a hi lo (rf v a hi lo - 1)

/-- A frame passing a filter enters the 32-record FIFO, or is dropped with RXOVF when it is full (R576, R596). -/
def canAccept (v : Vol) (e : Nat) (f : CanFrame) : Vol :=
  match canMatch v e f with
  | none => v
  | some i =>
    let c := canOf v e
    if 32 ≤ c.rx.length then raiseEvent (setFault v (pCan e) 0) (pCan e) 4
    else
      raiseEvent (canPut v e { c with rx := c.rx ++ [canRecord f i v.tick.number.toNat (tickCyc v)] }) (pCan e) 0

/-- A complete frame on the bus (R576): remote frames in CAN FD format are not supported (R575), and in loopback the
controller hears only itself. -/
def canReceive (v : Vol) (e : Nat) (f : CanFrame) : Vol :=
  if !canOnBus v e || (f.fdf && f.rtr) || rb v (aCtl (pCan e)) 2 then v
  else canAccept (canErrDown v e 15 8) e f

/-- A read of the receive window takes a word; after the 20th the next record is at the head (R576). -/
def canRxWord (v : Vol) (e : Nat) : Word := ((canOf v e).rx.headD []).getD (canOf v e).rxPos 0
def canRxTake (v : Vol) (e : Nat) : Vol :=
  let c := canOf v e
  match c.rx with
  | [] => v
  | _ :: rest =>
    if 20 ≤ c.rxPos + 1 then canPut v e { c with rx := rest, rxPos := 0 } else canPut v e { c with rxPos := c.rxPos + 1 }

/-- The free transmit buffer of lowest number. -/
def canFreeBuf (c : Can) : Option Nat := (List.range 8).find? fun i => (smapFind c.tx i).isNone

/-- A write of the transmit window: 20 words make a record, which enters a free buffer; a record that finds all 8 full is
lost (R576; log entry 34). -/
def canTxPut (v : Vol) (e : Nat) (w : Word) : Vol :=
  let c := canOf v e
  let part := c.txPart ++ [w]
  if part.length < 20 then canPut v e { c with txPart := part }
  else
    match canFreeBuf c with
    | some i => canPut v e { c with txPart := [], tx := smapPut c.tx i part }
    | none => canPut v e { c with txPart := [] }

/-- The buffer that goes onto the bus next: the lowest identifier, then the lowest buffer (R576). -/
def canNext : SMap (List Word) → Option (Nat × List Word)
  | [] => none
  | (i, r) :: rest =>
    match canNext rest with
    | none => some (i, r)
    | some (j, q) => if fld (r.getD 0 0) 28 0 ≤ fld (q.getD 0 0) 28 0 then some (i, r) else some (j, q)

/-- The frame of a transmit record. -/
def canFrameOf (r : List Word) : CanFrame :=
  let w0 := r.getD 0 0
  let w1 := r.getD 1 0
  { ide := bit w0 31, fdf := bit w0 30, brs := bit w0 29, id := w0.setWidth 29, dlc := BitVec.ofNat 4 (fld w1 31 28)
    esi := bit w1 27, rtr := bit w1 26, data := ((r.drop 2).take 16).flatMap wordBytes }

/-- A transmit buffer's frame is sent (R576, R596); in loopback the controller receives it. -/
def canSent (v : Vol) (e : Nat) : Vol :=
  if !canOnBus v e || rb v (aCtl (pCan e)) 1 then v
  else
    match canNext (canOf v e).tx with
    | none => v
    | some (i, r) =>
      let c := canOf v e
      let v := canErrDown (canPut v e { c with tx := smapErase c.tx i }) e 7 0
      let v := raiseEvent v (pCan e) 1
      if rb v (aCtl (pCan e)) 2 then canAccept v e (canFrameOf r) else v

/-- The controller enters bus-off (R577): state 2, BUSOFF, and events 2 and 3. -/
def canBusOff (v : Vol) (e : Nat) : Vol :=
  if !canOnBus v e then v
  else raiseEvents (setFault (rfSet v (ra (pCan e) 0x04C) 25 24 2) (pCan e) 1) (pCan e) [2, 3]

/-- After 128 occurrences of 11 recessive bits the controller rejoins when AUTOREC = 1 (R577); its error counters restart
(ISO 11898-1; log entry 33). -/
def canRejoin (v : Vol) (e : Nat) : Vol :=
  if ready v (pCan e) && rb v (aCtl (pCan e)) 0 && !rb v (aStat pClk) 4 && rb v (aCtl (pCan e)) 3 && rf v (ra (pCan e) 0x04C) 25 24 == 2 then
    raiseEvent (rgSet v (ra (pCan e) 0x04C) 0) (pCan e) 2
  else v

def canWrite (v : Vol) (e off : Nat) (via : Via) (w : Word) : Vol :=
  if off = 0x054 then (if via = .direct then canTxPut v e w else v) else regWrite v (pCan e) off via w

def canView (v : Vol) (e off : Nat) : Word :=
  if off = 0x050 then canRxWord v e
  else if off = 0x058 then
    BitVec.ofNat 32 (((List.range 8).map fun i => b2n (smapFind (canOf v e).tx i).isSome * 2 ^ i).sum)
  else rg v (ra (pCan e) off)

def canOnRead (v : Vol) (e off : Nat) : Vol := if off = 0x050 then canRxTake v e else v

end Sys2Proof.Machine
end

