-- ==== Sys2Proof/Machine/MbxOps.lean ====
section
/-! DEFINITION. The mailboxes (R305-R309, R313), and the start of a domain's power-up (R550) that a post may ask for. -/

namespace Sys2Proof.Machine

/-- Switch domain d on: its PWR_ON bit sets and it waits for power-good (R550 steps 1 and 2). -/
def startPower (v : Vol) (d : Nat) : Vol :=
  if d = 0 || domOn v d || v.sys.powering.contains d then v
  else
    let v := rbSet v (ra pPwr (0x040 + 4 * ((d - 1) / 32))) ((d - 1) % 32) true
    { v with sys := { v.sys with powering := v.sys.powering ++ [d] } }

/-- PWR_AWAKE of a domain (R285). -/
def autoWake (v : Vol) (d : Nat) : Bool := d != 0 && rb v (ra pPwr (0x058 + 4 * ((d - 1) / 32))) ((d - 1) % 32)

/-- The first page of a receiver's block (R305): its domain is the receiver's (R307). -/
def recvPage (r : Nat) : Nat := if r ≤ 8 then pCore r else if r = 9 then pHsp else pYok

def mbxRecv (v : Vol) (m : Nat) : Nat := rf v (aMbx m 0x00) 3 0
def mbxFull (v : Vol) (m : Nat) : Bool := rb v (aMbx m 0x04) 31

/-- Change mailbox m, noting a rise of its attention line (R298, R306). -/
def mbxChange (v : Vol) (m : Nat) (f : Vol → Vol) : Vol := noteLine (136 + m) v (f v)

/-- Whether posts travel to a twin: lead or shadow to one, with the link up (R309). -/
def twinLinked (v : Vol) : Bool :=
  v.yok.twin && (v.yok.role == 1 || v.yok.role == 2) && ready v pYok && rb v (ra pYok 0x044) 31

/-- Queue the MBOX payload of an operation (R413, R436). -/
def mbxSend (v : Vol) (m op : Nat) (db : Word) (msg : Bool) : Vol :=
  let head : List Byte := [BitVec.ofNat 8 m, BitVec.ofNat 8 op, 0, 0]
  let words := (List.range 8).flatMap fun i => wordBytes (if msg then rg v (aMbx m (0x20 + 4 * i)) else 0)
  { v with yok := { v.yok with mboxQ := v.yok.mboxQ ++ [head ++ wordBytes db ++ words] } }

/-- A receiver reset of one mailbox (R308). -/
def mbxAbortOne (v : Vol) (m : Nat) : Vol :=
  let v := (List.range 8).foldl (fun v i => rgSet v (aMbx m (0x20 + 4 * i)) 0) v
  let v := rgSet v (aMbx m 0x10) 0
  let v := rgSet v (aMbx m 0x04) ((rg v (aMbx m 0x04) &&& 0x2FFFFFFF) ||| 0x40000000)
  let v := rbSet v (ra pMbx 0x340) m true
  raiseEvent v pMbx 0

/-- A receiver reset (R308): each mailbox of the receiver that holds a message or doorbell bits is emptied. -/
def mbxAbort (v : Vol) (r : Nat) : Vol :=
  (List.range 24).foldl (fun v m =>
    if mbxRecv v m == r && (mbxFull v m || rg v (aMbx m 0x10) != 0) then mbxAbortOne v m else v) v

/-- A post or ring that reaches a mailbox: in a receiver reset it is discarded (R308); a receiver whose domain is down is
woken when WAKE is 1 (R307). Answers whether the operation is performed. -/
def mbxArrive (v : Vol) (m : Nat) : Vol × Bool :=
  let p := recvPage (mbxRecv v m)
  if domUp v (pageDom p) then
    (if v.resetting.contains p then (mbxAbortOne v m, false) else (v, true))
  else if rb v (aMbx m 0x00) 4 then (startPower (rbSet v (aMbx m 0x04) 28 true) (pageDom p), true)
  else (v, true)

/-- Whether a receiver-10 operation of master w is carried to the twin. -/
def mbxCarries (v : Vol) (m w : Nat) : Bool := mbxRecv v m == 10 && w != 14 && twinLinked v

/-- A post by master w (R305). -/
def mbxPost (v : Vol) (m w : Nat) (db : Word) : Vol :=
  match mbxArrive v m with
  | (v, false) => v
  | (v, true) =>
    if mbxFull v m then rbSet v (aMbx m 0x04) 29 true
    else
      mbxChange v m fun v =>
        let v := rgOr v (aMbx m 0x10) db
        let v := rgSet v (aMbx m 0x04) ((rg v (aMbx m 0x04) &&& 0x70000000) ||| BitVec.ofNat 32 (2 ^ 31 + w % 16))
        if mbxCarries v m w then mbxSend v m 1 db true else v

/-- A ring by master w (R305). -/
def mbxRing (v : Vol) (m w : Nat) (db : Word) : Vol :=
  match mbxArrive v m with
  | (v, false) => v
  | (v, true) =>
    mbxChange v m fun v =>
      let v := rgOr v (aMbx m 0x10) db
      if mbxCarries v m w then mbxSend v m 2 db false else v

/-- A done by master w (R305): the twin hears of it for a receiver-10 mailbox and for a message that came from it (R436). -/
def mbxDone (v : Vol) (m w : Nat) : Vol :=
  let back := w != 14 && twinLinked v && (mbxRecv v m == 10 || (mbxFull v m && rf v (aMbx m 0x04) 3 0 == 14))
  let v := rbSet v (aMbx m 0x04) 31 false
  if back then mbxSend v m 3 0 false else v

/-- The mailbox and offset of a register; none outside the mailboxes. -/
def mbxAt (p off : Nat) : Option (Nat × Nat) :=
  if 0x040 ≤ off ∧ off < 0x340 then some (12 * (p - pMbx) + (off - 0x040) / 0x40, (off - 0x040) % 0x40) else none

/-- What a write of an MBX register by master w does (R305, R306, R313). -/
def mbxWrite (v : Vol) (w p off : Nat) (via : Via) (x : Word) : Vol :=
  match mbxAt p off with
  | none => regWrite v p off via x
  | some (m, o) =>
    if o = 0x08 then (if via == .direct then mbxPost v m w x else v)
    else if o = 0x0C then (if via == .direct then mbxRing v m w x else v)
    else if o = 0x18 then (if via == .direct && bit x 0 then mbxDone v m w else v)
    else if 0x20 ≤ o ∧ mbxFull v m then rbSet v (aMbx m 0x04) 29 true
    else mbxChange v m fun v => regWrite v p off via x

/-- A domain comes up: mailboxes that waited for its receiver wait no more (R307). -/
def mbxWoken (v : Vol) (d : Nat) : Vol :=
  (List.range 24).foldl (fun v m =>
    if rb v (aMbx m 0x04) 28 && pageDom (recvPage (mbxRecv v m)) == d then rbSet v (aMbx m 0x04) 28 false else v) v

/-- Whether the part pulls HOST_ATTN_N low (R309, R581): for the attention of any mailbox of receiver 9, or for HSP_ATTN.SW; its pad
is high-impedance while its domain is down (R551). -/
def hostAttention (v : Vol) : Bool :=
  domUp v 30 && (((List.range 24).any fun m => mbxRecv v m == 9 && line v (136 + m)) || rb v (ra pHsp 0x048) 0)

/-- A part that becomes lead or shadow to a twin carries the posts and doorbell bits it kept (R309). -/
def mbxCarryKept (v : Vol) : Vol :=
  (List.range 24).foldl (fun v m =>
    if mbxRecv v m ≠ 10 then v
    else if mbxFull v m then mbxSend v m 1 (rg v (aMbx m 0x10)) true
    else if rg v (aMbx m 0x10) != 0 then mbxSend v m 2 (rg v (aMbx m 0x10)) false else v) v

end Sys2Proof.Machine
end

