-- ==== Sys2Proof/Config.lean ====
section
/-! DEFINITION. What an implementation fixes and what the spec leaves free. The constants here are opaque: nothing in
Lean can evaluate them, so a claim holds whatever their values are. Free values are applied to the counter `State.free`, which
the step reads and advances. Cryptographic primitives and random numbers, which the spec names but does not define, are
uninterpreted functions; only the lengths of their results are fixed. -/

namespace Sys2Proof.Config

/-- Free choice among the outcomes of an ECC unit with three or more wrong bits (R240, R252), by counter and address: 0
delivered as correct, 1 corrected wrongly as a single-bit error, 2 uncorrectable. Log entry 12. -/
opaque eccOutcome : Nat → Nat → Fin 3

/-- The word that a unit with three or more wrong bits delivers (R240, R252), and the one that an engine takes from an
uncorrectable word. Log entries 12 and 106. -/
opaque eccWord : Nat → Word

/-- The bundle that a unit of a flash line with wrong bits beyond correction shows (R191, R240). Log entry 12. -/
opaque eccBundle : Nat → BitVec 128

/-- The 16 bytes that a flash unit with wrong bits holds, from its address, their number and the bytes without them (R265).
Log entry 12. -/
opaque wrongUnit : Nat → Nat → List Byte → BitVec (8 * 16)

/-- Whether a cell that failed a march is stuck (R262). Log entry 105. -/
opaque stuckCell : Nat → Bool

/-- How many times a register write lands while the clock ratio is outside R536: 0, 1 or 2. Log entry 13. -/
opaque handshakeLandings : Nat → Fin 3

/-- Whether a request at an illegal clock ratio ends in TIMEOUT (R536). Log entry 13. -/
opaque handshakeTimeout : Nat → Bool

/-- What becomes of a response at an illegal clock ratio (R536): 0 it comes, 1 that of the request before is taken again, 2 it is lost
and the request ends in TIMEOUT. Log entry 13. -/
opaque handshakeResponse : Nat → Fin 3

/-- Which neighbour the decimator's quotient is rounded to when it is not an integer: true takes the upper (R323
states no rounding). Log entry 14. -/
opaque decimatorRoundsUp : Int → Nat → Bool

/-- A random word of Locksmith's TRNG (R519, R526, R475). Log entry 15. -/
opaque trng : Nat → Word

/-- The bytes of a value of n bytes. -/
def bytes (n : Nat) (x : BitVec (8 * n)) : List Byte := (List.range n).map fun i => x.extractLsb' (8 * i) 8

/-- The digest of a byte string (R461, R498). Log entry 16. -/
opaque digest : List Byte → BitVec (8 * 48)

/-- SHA-384 of a byte string, 48 bytes. -/
def sha384 (m : List Byte) : List Byte := bytes 48 (digest m)

/-- The authenticator of a byte string under a key (R484). Log entry 16. -/
opaque authenticator : List Byte → List Byte → BitVec (8 * 48)

/-- HMAC-SHA-384, 48 bytes. -/
def hmacSha384 (key m : List Byte) : List Byte := bytes 48 (authenticator key m)

/-- HKDF over SHA-384 with an empty salt: the 32-byte key that the hardware-unique key gives for an info string (R482). Log
entry 16. -/
opaque derivedKey : List Byte → BitVec (8 * 32)
def sealingKey (info : List Byte) : List Byte := bytes 32 (derivedKey info)

/-- One 16-byte AES-256 block: key, input block (R495). Log entry 16. -/
opaque cipherBlock : List Byte → List Byte → BitVec (8 * 16)
def aes256 (key x : List Byte) : List Byte := bytes 16 (cipherBlock key x)

/-- AES-256-GCM sealing: byte i of the ciphertext, and the tag (R484, R499, R526). Log entry 16. -/
opaque gcmByte : List Byte → List Byte → List Byte → List Byte → Nat → Byte
opaque gcmTag : List Byte → List Byte → List Byte → List Byte → BitVec (8 * 16)

/-- Sealing by key, IV, AAD and plaintext: a ciphertext of the plaintext's length and a 16-byte tag. -/
def gcmSeal (key iv aad m : List Byte) : List Byte × List Byte :=
  ((List.range m.length).map (gcmByte key iv aad m), bytes 16 (gcmTag key iv aad m))

/-- AES-256-GCM opening: whether the tag holds, and byte i of the plaintext. Log entry 16. -/
opaque gcmHolds : List Byte → List Byte → List Byte → List Byte → List Byte → Bool
opaque gcmPlain : List Byte → List Byte → List Byte → List Byte → Nat → Byte

/-- Opening by key, IV, AAD, ciphertext and tag: a plaintext of the ciphertext's length, none when the tag fails. -/
def gcmOpen (key iv aad c tag : List Byte) : Option (List Byte) :=
  if gcmHolds key iv aad c tag then some ((List.range c.length).map (gcmPlain key iv aad c)) else none

/-- ECDSA P-384 verification: public key, digest, signature (R464, R491). Log entry 16. -/
opaque ecdsaVerify : List Byte → List Byte → List Byte → Bool

/-- ECDSA P-384 signature of a digest by a private key, with the counter that stands for its nonce. Log entry 16. -/
opaque signature : List Byte → List Byte → Nat → BitVec (8 * 96)
def ecdsaSign (key h : List Byte) (nonce : Nat) : List Byte := bytes 96 (signature key h nonce)

/-- The P-384 public key, 96 bytes, of a private key. Log entry 16. -/
opaque publicKey : List Byte → BitVec (8 * 96)
def p384Public (key : List Byte) : List Byte := bytes 96 (publicKey key)

/-- The 48-byte shared x of ECDH over P-384 (R526). Log entry 16. -/
opaque sharedX : List Byte → List Byte → BitVec (8 * 48)
def ecdhShared (key peer : List Byte) : List Byte := bytes 48 (sharedX key peer)

/-- What a failed program leaves in a word of its target (R244 states the report alone). Log entry 17. -/
opaque failedWord : Nat → Word

/-- How many wrong bits a failed program leaves in a unit of its target (R240, R244). Log entry 17. -/
opaque failedUnit : Nat → Nat

/-- The trigger bundle and lane of a replay record that came from a frame image, which holds neither (R201). Log entry
18. -/
opaque lostTrigger : Nat → Nat

/-- Whether the factory offset of a cold-junction sensor is added before its gain is applied (R328 states no order). Log entry 40. -/
opaque coldOffsetFirst : Bool

/-- Which neighbour a cold-junction temperature that is no whole number of m°C is rounded to: true takes the upper (R336 states no
rounding). Log entry 40. -/
opaque coldJunctionUp : Int → Bool

/-- The shunt in Ω of a LOOP channel whose EXI code is one that R317 reserves. Log entry 41. -/
opaque reservedShunt : Nat → Nat

/-- X of a channel whose formula has no value: no excitation, or a code of 0 in COND mode (R329). Log entry 83. -/
opaque undefinedX : Nat → Word

/-- The 126 parity bytes of Ledger's BCH code over a codeword's data (R445 gives the field and the strength, no polynomial). Log entry
65. -/
opaque bchWord : List Byte → BitVec (8 * 126)
def bchParity (data : List Byte) : List Byte := bytes 126 (bchWord data)

/-- The vendor and product ID word of the service port, from the 128 bytes of the OTP identity: R595 names their source and no
place. Log entry 47. -/
opaque usbIdWord : List Byte → Word

/-- Whether a write that times out was accepted by its target and completes (R282). Log entry 93. -/
opaque lateWrite : Nat → Bool

/-- Whether a request line of HSP is asserted: R290 names REQ 7 and 8, and no chapter says when they assert. Log entry 94. -/
opaque hspRequest : Nat → Bool

/-- The level of YTOKI in a cycle of which no command tells it (R438). Log entry 136. -/
opaque ytoki : Nat → Bool

/-- How many codewords of a page read needed correction, or could not be corrected, where a command tells the worst alone (R447, R479). Log
entry 138. -/
opaque codewords : Nat → Nat

/-- Whether an OTP burn fails its read-back (R528): the spec says when by no rule. Log entry 70. -/
opaque burnFails : Nat → Bool

/-- Whether an erase or a program of flash by Locksmith fails (R502). Log entry 140. -/
opaque flashFails : Nat → Bool

/-- Whether a word of a sector or plane is erased by an erase that fails, by counter and address. Log entry 140. -/
opaque eraseReaches : Nat → Nat → Bool

/-- The 16-bit LFSR that drives TMESHO (R523 gives neither its taps nor its first state): its first state and its step. Log entry 141. -/
opaque lfsrSeed : BitVec 16
opaque lfsrStep : BitVec 16 → BitVec 16

end Sys2Proof.Config
end

