-- ==== Sys2Proof/Machine/MemOps.lean ====
section
/-! DEFINITION. The memories: SRAM with its windows, tags and error correction (R102, R251-R260), the flash planes, config
flash and OTP as they are read (R239-R242, R251, R629), and the fetch view of the planes (R29, R30, R493-R496). -/

namespace Sys2Proof.Machine

/-- What an unlisted byte range reads as: erased flash reads 1 in every bit, unprogrammed OTP 0 (R244, R251), a wiped
SRAM word 0 RAW (R19). -/
abbrev flashBlank (_ : Nat) : Word := 0xFFFFFFFF
abbrev otpBlank (_ : Nat) : Word := 0
abbrev sramBlank (_ : Nat) : TWord := TWord.zero
abbrev noErr (_ : Nat) : Nat := 0

/-- The windows of an SRAM (R34). -/
inductive Win where
  | direct | setBits | clearBits | tagView
  deriving DecidableEq, Repr

/-- Where an SRAM address leads: the direct-window address of its word, the window, the power domain and whether the
memory is tagged (R102). -/
structure Place where
  key    : Nat
  win    : Win
  dom    : Nat
  tagged : Bool
  deriving DecidableEq, Repr

/-- The window with a number. -/
def winOf (n : Nat) : Win := if n = 0 then .direct else if n = 1 then .setBits else if n = 2 then .clearBits else .tagView

/-- The SRAM place of an address (R34, R548); none outside SRAM. -/
def place (a : Nat) : Option Place :=
  let w := a - a % 4
  if 0x10000000 ≤ a ∧ a < 0x10800000 then
    let k := (a - 0x10000000) / 0x100000
    let o := w % 0x100000
    some ⟨0x10000000 + k * 0x100000 + o % 0x40000, winOf (o / 0x40000), 10 + k, true⟩
  else if 0x10800000 ≤ a ∧ a < 0x10A00000 then
    let o := w - 0x10800000
    some ⟨0x10800000 + o % 0x80000, winOf (o / 0x80000), 18, false⟩
  else if 0x20000000 ≤ a ∧ a < 0x24000000 ∧ a % 0x1000000 < 0x200000 then
    let key := 0x20000000 + w % 0x1000000
    some ⟨key, winOf ((a - 0x20000000) / 0x1000000), 81 + key / 4 % 16, true⟩
  else none

/-- Whether the address lies in core k's own local SRAM, through any window. -/
def ownSram (k a : Nat) : Bool :=
  match place a with
  | some p => p.dom == 10 + k
  | none => false

/-- Count an SRAM error event in WHS (R252, R272). -/
def noteEcc (v : Vol) (key master : Nat) (unc : Bool) : Vol :=
  let v := rgSet v (ra pWhs 0x074) (BitVec.ofNat 32 key)
  let v := rgSet v (ra pWhs 0x078) (BitVec.ofNat 32 (master + if unc then 0x80000000 else 0))
  if unc then raiseEvent (setFault (rgInc v (ra pWhs 0x070)) pWhs 3) pWhs 4 else rgInc v (ra pWhs 0x06C)

/-- Debit an SRAM correction to a control core: 2 c and its KERF_USE flag (R68, R70). -/
def debit (v : Vol) (k flag cycles : Nat) : Vol :=
  if k < 8 then
    { v with tick := { v.tick with
        kerfSrc := smapSet (fun _ => 0) v.tick.kerfSrc k (smapGet (fun _ => 0) v.tick.kerfSrc k ||| 2 ^ flag)
        kerfDrop := smapSet (fun _ => 0) v.tick.kerfDrop k (smapGet (fun _ => 0) v.tick.kerfDrop k + cycles) } }
  else v

/-- Whether a lead that serves an attach marks a write to a word (R430): it lies in one of the attach regions. -/
def attMarks (v : Vol) (key : Nat) : Bool :=
  decide (2 ≤ v.yok.attPh) && v.yok.role == 1 && (List.range 8).any fun r =>
    decide ((rg v (ra pYok (0x090 + 8 * r))).toNat ≤ key)
      && decide (key < (rg v (ra pYok (0x090 + 8 * r))).toNat + 4 * rf v (ra pYok (0x094 + 8 * r)) 16 0)

/-- Store a whole SRAM word with fresh check bits (R252); an attach marks it (R430). -/
def sramPut (v : Vol) (key : Nat) (w : TWord) : Vol :=
  { v with
    sram := smapSet sramBlank v.sram key w
    sramErr := smapSet noErr v.sramErr key 0
    yok := { v.yok with dirty := if attMarks v key then smapSet noErr v.yok.dirty key 1 else v.yok.dirty } }

/-- The stored SRAM word at a direct-window address. -/
abbrev sramWord (v : Vol) (key : Nat) : TWord := smapGet sramBlank v.sram key

/-- Whether the shadow buffer stands for a word: it lies in the region that Whetstone tests (R260). -/
def shadowed (v : Vol) (key : Nat) : Bool := v.whs.testing && key / 256 == (rg v (ra pWhs 0x04C)).toNat / 256

/-- The wrong bits of an SRAM word as read: those that errors left and that of a stuck cell (R252, R262), which the shadow buffer
has not (R260). -/
def wrongBits (v : Vol) (key : Nat) : Nat :=
  smapGet noErr v.sramErr key + b2n (v.stuck.contains key && !shadowed v key)

/-- The bank number of a shared-SRAM word, in a number space of all banks (R220). -/
abbrev sharedBank (key : Nat) : Nat := key / 4 % 16

/-- A processor's ID counter goes on behind an ID (R628), but for an access that has reset the part. -/
def idTaken (v : Vol) (m id : Nat) : Vol := if m < 9 ∧ v.sys.mode ≠ .reset then onCore v m fun c => { c with busId := (id + 1) % 16 } else v

/-- How far processor m stands behind a bank's pointer (R259). -/
def bankTurn (ptr m : Nat) : Nat := (m + 9 - ptr % 9) % 9

/-- A shared bank after n more cycles (R259): in each it grants the waiting processor at or next behind its pointer, which moves
behind the winner. -/
def bankServe : Nat → Nat × List Nat → Nat × List Nat
  | _, (ptr, []) => (ptr, [])
  | 0, s => s
  | n + 1, (ptr, w :: rest) =>
    let m := rest.foldl (fun b x => if bankTurn ptr x < bankTurn ptr b then x else b) w
    bankServe n (m + 1, (w :: rest).filter (· != m))

/-- The pointer of shared bank b and the processors that still wait for it now. -/
def bankNow (v : Vol) (b : Nat) : Nat × List Nat :=
  let (t, ws) := smapGet (fun _ => (0, [])) v.mtx.bankUse b
  bankServe (min (v.now - t) ws.length) (smapGet (fun _ => 0) v.mtx.winner (181 + b), ws)

/-- A processor's access to a shared bank (R68, R220, R259, R628): it takes an ID, and it waits for each processor whose turn comes
before its own among those that ask for the bank; those behind it wait one cycle more. The answer is the wait; the waits are debited
(log entry 104). -/
def sharedTurn (v : Vol) (k : Nat) (p : Place) : Vol × Nat :=
  if p.dom < 81 then (v, 0)
  else
    let b := sharedBank p.key
    let (ptr, ws) := bankNow v b
    let others := ws.filter (· != k)
    let n := others.countP fun m => decide (bankTurn ptr m < bankTurn ptr k)
    let v := { v with mtx := { v.mtx with winner := smapSet (fun _ => 0) v.mtx.winner (181 + b) ptr
                                          bankUse := smapSet (fun _ => (0, [])) v.mtx.bankUse b (v.now, k :: others) } }
    let v := (others.filter fun m => decide (bankTurn ptr k < bankTurn ptr m)).foldl (fun v m => debit v m 4 1) v
    (idTaken (if n = 0 then v else debit v k 4 n) k (coreOf v k).busId, n)

/-- A correction of a single wrong bit: counted, debited and written back (R252, R68). -/
def sramCorrect (v : Vol) (key master : Nat) : Vol :=
  debit (noteEcc { v with sramErr := smapSet noErr v.sramErr key 0 } key master false) master 1 2

/-- Read an SRAM word through its check bits (R252): none when it is uncorrectable. Three or more wrong bits leave the
outcome free (log entry 12). -/
def sramRead (v : Vol) (key master : Nat) : Vol × Option TWord :=
  let e := wrongBits v key
  if e = 0 then (v, some (sramWord v key))
  else if e = 1 then (sramCorrect v key master, some (sramWord v key))
  else if e = 2 then (noteEcc v key master true, none)
  else
    let c := Config.eccOutcome v.free key
    let w : TWord := ⟨Config.eccWord v.free, (Config.eccWord (v.free + 1)).setWidth 4⟩
    let v := nextFree (nextFree v)
    if c = 0 then (v, some w)
    else if c = 1 then (sramCorrect { v with sram := smapSet sramBlank v.sram key w } key master, some w)
    else (noteEcc v key master true, none)

/-- Whether reading an SRAM word would find it uncorrectable (R252), with the free value f. -/
def wordBad (v : Vol) (f key : Nat) : Bool :=
  let e := wrongBits v key
  e == 2 || (decide (3 ≤ e) && Config.eccOutcome f key == 2)

/-- An n-byte value from an SRAM word (R100, R102). -/
def pickBytes (w : TWord) (off n : Nat) (sx : Bool) : TWord :=
  if n = 4 then w
  else
    let raw := fld w.data (8 * (off + n) - 1) (8 * off)
    ⟨BitVec.ofNat 32 (if sx && raw.testBit (8 * n - 1) then raw + 2 ^ 32 - 2 ^ (8 * n) else raw),
      if w.isPoison then Tag.poison else Tag.raw⟩

/-- A word as a master's load returns it: service-core SRAM carries RAW (R253). -/
def loadTag (p : Place) (w : TWord) : TWord := if p.tagged then w else ⟨w.data, Tag.raw⟩

/-- The bytes of a word that an access of n bytes at an offset names, as a mask. -/
def byteMask (off n : Nat) : Word := BitVec.ofNat 32 ((2 ^ (8 * n) - 1) * 2 ^ (8 * off))

/-- Whether a master writes the tag its data carries into tagged SRAM (R253). -/
def carriesTag (m : Nat) : Bool := m < 8 || m == 11 || m == 14

/-- An SRAM read by a master through any window: none answers SLAVE (R252, R255). The data of a direct read is the whole
word. -/
def sramLoad (v : Vol) (m : Nat) (sz : Nat) (a : Nat) (p : Place) : Vol × Option TWord :=
  if p.win ≠ .direct ∧ (sz ≠ 4 ∨ a % 4 ≠ 0) then (v, none)
  else
    match sramRead v p.key m with
    | (v', none) => (v', none)
    | (v', some w) =>
      match p.win with
      | .direct => (v', some (loadTag p w))
      | .setBits | .clearBits => (v', some ⟨w.data, Tag.raw⟩)
      | .tagView => (v', some ⟨w.tag.setWidth 32, Tag.raw⟩)

/-- An SRAM write by a master through any window (R102, R253-R255): none answers SLAVE. Data sits at its byte lanes;
`mask` names the bytes. -/
def sramStore (v : Vol) (m : Nat) (sz : Nat) (a : Nat) (p : Place) (mask : Word) (w : TWord) : Option Vol × Vol :=
  match p.win with
  | .direct =>
    if mask = 0xFFFFFFFF then
      (some (sramPut v p.key ⟨w.data, if p.tagged && carriesTag m then w.tag else Tag.raw⟩), v)
    else
      match sramRead v p.key m with
      | (v', none) => (none, v')
      | (v', some o) => (some (sramPut v' p.key ⟨(o.data &&& ~~~mask) ||| (w.data &&& mask), o.tag⟩), v')
  | .setBits | .clearBits | .tagView =>
    if sz ≠ 4 ∨ a % 4 ≠ 0 ∨ mask ≠ 0xFFFFFFFF then (none, v)
    else
      match sramRead v p.key m with
      | (v', none) => (none, v')
      | (v', some o) =>
        let n : TWord :=
          match p.win with
          | .setBits => ⟨o.data ||| w.data, o.tag⟩
          | .clearBits => ⟨o.data &&& ~~~w.data, o.tag⟩
          | .tagView => ⟨o.data, w.data.setWidth 4⟩
          | .direct => o
        (some (sramPut v' p.key n), v')

/-- Whether the SRAM of a domain answers RESET: its domain is in reset, or the wipe of its power-up runs (R266). -/
def wiping (v : Vol) (d : Nat) : Bool :=
  v.sys.domReset.contains d || decide (v.now < smapGet (fun _ => 0) v.sys.wipes d)

/-- The cycles of the wipe of a domain's SRAM (R266). -/
def wipeCycles (d : Nat) : Nat := if d = 18 then 16384 else if d < 18 then 8192 else 32768

/-- Wipe one power domain's SRAM (R266). -/
def wipeSram (v : Vol) (d : Nat) : Vol :=
  let keep (a : Nat) : Bool :=
    match place a with
    | some p => p.dom != d
    | none => true
  { v with sram := smapKeep keep v.sram, sramErr := smapKeep keep v.sramErr }

/-! ### Flash, config flash and OTP -/

/-- The active plane: FLC STAT.ACTIVE (R270). -/
def activePlane (v : Vol) : Nat := b2n (rb v (aStat pFlc) 2)

/-- Locksmith's verified mark of a plane (R30, R270). -/
def planeVerified (v : Vol) (p : Nat) : Bool := rb v (aStat pFlc) p

/-- The power domain of a flash or OTP address (R548). -/
def flashDom (a : Nat) : Nat := if a < 0x800000 then 19 else if a < 0x1000000 then 20 else 21

/-- The stored word at a flash, config-flash or OTP address (word-aligned). -/
def flashWord (nv : Nv) (a : Nat) : Word :=
  if a < 0x1080000 then smapGet flashBlank nv.flash a else smapGet otpBlank nv.otp a

/-- Bytes of a word list, lowest address first. -/
def bytesOfWord (w : Word) : List Byte := (List.range 4).map fun i => w.extractLsb' (8 * i) 8

/-- n bytes of flash from a word-aligned address. -/
def flashBytes (nv : Nv) (a n : Nat) : List Byte :=
  ((List.range ((n + 3) / 4)).flatMap fun i => bytesOfWord (flashWord nv (a + 4 * i))).take n

/-- A word from its bytes, the lowest first. -/
def wordOfBytes (bs : List Byte) : Word :=
  BitVec.ofNat 32 ((bs.take 4).foldr (fun b acc => b.toNat + 256 * acc) 0)

/-- A number as n bytes, the most significant first. -/
def beBytes (n x : Nat) : List Byte := (List.range n).map fun i => BitVec.ofNat 8 (x / 256 ^ (n - 1 - i))

/-- The life-cycle state's number of set fuse fields (R485): 0 BLANK, 1 PROVISIONED, 2 FIELD, 3 RETURNED, 4 SCRAPPED. -/
def lifeCycle (nv : Nv) : Nat :=
  let ones (w : Word) : Nat := (List.range 32).countP fun i => bit w i
  let set (f : Nat) : Bool :=
    192 ≤ ((List.range 8).map fun i => ones (flashWord nv (0x1080200 + 32 * f + 4 * i))).sum
  if set 3 then 4 else if set 2 then 3 else if set 1 then 2 else if set 0 then 1 else 0

/-- The address of plane p's manifest (R497). -/
abbrev manifestAt (p : Nat) : Nat := p * 0x800000 + 0x7E0000

/-- The number of blocks of the image in plane p (R498). -/
def imageBlocks (nv : Nv) (p : Nat) : Nat := (flashWord nv (manifestAt p + 28)).toNat

/-- The keystream of a 16-byte unit of a plane (R495). -/
def keystream (nv : Nv) (v : Vol) (a : Nat) : List Byte :=
  let p := a / 0x800000
  let o := a % 0x800000
  let key := smapGet (fun _ => []) v.lks.slots (1 + p)
  let iv := flashBytes nv (manifestAt p + 16) 8 ++ beBytes 4 (o / 4096)
  Config.aes256 key (iv ++ beBytes 4 (2 + o % 4096 / 16))

/-- A 16-byte unit of a plane as the fetch path and a core's data read of the active verified plane see it: decrypted,
or as stored in BLANK (R32, R493, R495). -/
def plainUnit (nv : Nv) (v : Vol) (a : Nat) : List Byte :=
  let raw := flashBytes nv a 16
  if lifeCycle nv = 0 then raw else List.zipWith (· ^^^ ·) raw (keystream nv v a)

/-- Whether a bundle may be fetched from an address (R29, R30, R493, R496). -/
def executable (nv : Nv) (v : Vol) (a : Nat) : Bool :=
  decide (a < 0x1000000) && planeVerified v (a / 0x800000)
    && (lifeCycle nv == 0 || decide (a % 0x800000 < 4096 * imageBlocks nv (a / 0x800000)))

/-- Wrong bits of the 16-byte unit that holds an address. -/
def unitErrAt (nv : Nv) (a : Nat) : Nat := smapGet noErr nv.unitErr (a - a % 16)

/-- What the check bits of the 128-byte line that holds an address show (R173, R240), with the free value f: 0 nothing, 1 a
correction, 2 an uncorrectable unit. -/
def lineErr (nv : Nv) (f a : Nat) : Nat :=
  let us := (List.range 8).map fun i => (a - a % 128 + 16 * i)
  let shows (u : Nat) : Nat := let e := unitErrAt nv u; if e < 3 then e else (Config.eccOutcome f u).val
  (us.map shows).foldr max 0

/-- Whether a unit of the line has three or more wrong bits, so that what it shows is free. -/
def lineFree (nv : Nv) (a : Nat) : Bool := (List.range 8).any fun i => decide (3 ≤ unitErrAt nv (a - a % 128 + 16 * i))

/-- The bundle at an address (R84, R495). -/
def bundleAt (nv : Nv) (v : Vol) (a : Nat) : BitVec 128 :=
  BitVec.ofNat 128 ((plainUnit nv v (a - a % 16)).foldr (fun b acc => b.toNat + 256 * acc) 0)

/-- The bundle that a fetch gives: free where its unit has more wrong bits than ECC corrects (R240). -/
def fetchedAt (nv : Nv) (v : Vol) (a : Nat) : BitVec 128 :=
  if unitErrAt nv a < 2 then bundleAt nv v a else Config.eccBundle v.free

/-- Whether an FLC program or erase command holds the plane of an address (R275). -/
def flcHolds (v : Vol) (a : Nat) : Bool :=
  decide (1 ≤ v.flc.op) && decide (v.flc.op ≤ 3) && decide (a < 0x1000000) && decide (v.flc.addr / 0x800000 = a / 0x800000)

/-- A data-side read of a flash, config-flash or OTP word (R32, R240-R242, R629): none answers SLAVE. A plane is checked by
line, the rest by unit; a unit with three or more wrong bits shows what a free value says and delivers a free word. -/
def flashRead (nv : Nv) (v : Vol) (m a : Nat) : Vol × Option Word :=
  let w := a - a % 4
  let u := a - a % 16
  let f := v.free
  let own := unitErrAt nv a
  let e := if a < 0x1000000 then lineErr nv f a else if own < 3 then own else (Config.eccOutcome f u).val
  let p := a / 0x800000
  let val : Word :=
    if 3 ≤ own then Config.eccWord f
    else if a < 0x1000000 ∧ m ≤ 8 ∧ p = activePlane v ∧ planeVerified v p then
      wordOfBytes ((plainUnit nv v u).drop (w - u))
    else flashWord nv w
  let bad := if a < 0x1000000 then ((List.range 8).map fun i => a - a % 128 + 16 * i).find? fun x =>
      unitErrAt nv x == 2 || (decide (3 ≤ unitErrAt nv x) && Config.eccOutcome f x == 2) else none
  let v := if decide (3 ≤ own) || (decide (a < 0x1000000) && lineFree nv a) then nextFree v else v
  if a < 0x1000000 ∧ flcHolds v a then (v, none)
  else if e = 0 then (v, some val)
  else if e = 1 then (raiseEvent (rgInc v (ra pFlc 0x04C)) pFlc 2, some val)
  else (raiseEvent (setFault (rgSet v (ra pFlc 0x050) (BitVec.ofNat 32 (bad.getD u))) pFlc 5) pFlc 3, none)

end Sys2Proof.Machine
end

