-- ==== Sys2Proof/Machine/Operands.lean ====
section
/-! DEFINITION. The bundle and its move words, the port IDs (R84-R90, R96, R97) and the addressing modes (R100, R101). -/

namespace Sys2Proof.Machine

/-- A non-empty move: its lane, destination ID and source ID (R86). -/
structure Move where
  lane : Nat
  dst  : Nat
  src  : Nat
  deriving DecidableEq, Repr

/-- The header fields (R85). -/
def bunFmt (b : BitVec 128) : Nat := (b.extractLsb' 14 2).toNat
def bunGp (b : BitVec 128) : Nat := (b.extractLsb' 11 3).toNat
def bunGinv (b : BitVec 128) : Bool := b.getLsbD 10
def bunGen (b : BitVec 128) (lane : Nat) : Bool := b.getLsbD lane

/-- Whether the header itself is reserved (R85, R88, R122). -/
def bunBadHeader (b : BitVec 128) : Bool :=
  bunFmt b == 3 || (b.extractLsb' 8 2) != 0 || (bunFmt b == 1 && (b.extractLsb' 6 2) != 0)

/-- The 28-bit immediate (R88). -/
def bunImm (b : BitVec 128) : BitVec 28 := b.extractLsb' 100 28

/-- The non-empty moves of a bundle in lane order; a long-immediate bundle has lanes 0 to 5 (R84, R86, R88). -/
def bunMoves (b : BitVec 128) : List Move :=
  (List.range (if bunFmt b = 1 then 6 else 8)).filterMap fun n =>
    let w := (b.extractLsb' (16 + 14 * n) 14).toNat
    if w = 0 then none else some ⟨n, w / 128, w % 128⟩

/-- Four words of a bundle, the lowest bits first. -/
def bunWord (b : BitVec 128) (i : Nat) : Word := b.extractLsb' (32 * i) 32

/-- Whether a destination ID exists on a core (R96, R122); core 8 is Ozhan-S. -/
def dstOk (k d : Nat) : Bool := d < 112 && !(k == 8 && (d == 49 || d == 50 || d == 89))

/-- Whether a source ID exists on a core (R97, R122). -/
def srcOk (k s : Nat) : Bool :=
  s < 52 || (80 ≤ s && s < 91) || (s == 91 && k != 8) || 96 ≤ s

/-- Whether a source ID is a result port with a valid bit (R81, R201). -/
def isResult (s : Nat) : Bool :=
  (32 ≤ s && s ≤ 38) || (40 ≤ s && s ≤ 43) || s == 47

/-- The units with trigger ports. -/
inductive PortUnit where
  | alu0 | alu1 | mul | div | lsu | cu | lp | rep | itp | seq | sys
  deriving DecidableEq, Repr

/-- The unit that a destination ID triggers; none for registers, operand ports and predicates (R96). -/
def trigUnit (d : Nat) : Option PortUnit :=
  if 33 ≤ d ∧ d ≤ 50 then some .alu0
  else if 52 ≤ d ∧ d ≤ 67 then some .alu1
  else if d = 69 ∨ d = 70 then some .mul
  else if d = 72 ∨ d = 73 then some .div
  else if 77 ≤ d ∧ d ≤ 82 then some .lsu
  else if 83 ≤ d ∧ d ≤ 90 then some .cu
  else if d = 91 ∨ d = 92 then some .lp
  else if d = 96 then some .rep
  else if d = 98 then some .itp
  else if d = 101 then some .seq
  else if d = 103 ∨ d = 104 then some .sys
  else none

/-- Whether a destination ID is an operand port. -/
def isOperand (d : Nat) : Bool :=
  d == 32 || d == 51 || d == 68 || d == 71 || (74 ≤ d && d ≤ 76) || (93 ≤ d && d ≤ 95) || d == 97 || d == 99 || d == 100
    || d == 102

/-- The control-transfer triggers (R105). -/
def isTransfer (d : Nat) : Bool := 83 ≤ d && d ≤ 86

/-- The load triggers. -/
def isLoad (d : Nat) : Bool := 77 ≤ d && d ≤ 79

/-- The destinations at which POISON raises a poisoned-control fault (R98), but for stores. -/
def isControl (d : Nat) : Bool :=
  (74 ≤ d && d ≤ 79) || d == 83 || d == 84 || d == 91 || (93 ≤ d && d ≤ 96) || d == 102 || d == 103

/-- The access width of a load or store trigger in bytes. -/
def lsuSize (d : Nat) : Nat := if d = 77 ∨ d = 80 then 4 else if d = 78 ∨ d = 81 then 2 else 1

/-- Address used and new base of an access (R101). -/
def lsuAddr (m x base : Word) : Word × Word :=
  let s := x <<< (fld m 3 2)
  match fld m 1 0 with
  | 0 => (base, base)
  | 1 => (base, base + s)
  | 2 => (base - s, base - s)
  | _ => (base + s, base)

end Sys2Proof.Machine
end

