-- ==== Sys2Proof/Machine/Flags.lean ====
section
/-! DEFINITION. What the ALU, multiply and divide units compute, with the tag algebra and the sticky flags (R130-R147):
pure functions of the operands. -/

namespace Sys2Proof.Machine

/-- The FLAGS bits (R118). -/
abbrev flOV : Word := 1
abbrev flDZ : Word := 2
abbrev flSAT : Word := 4
abbrev flPZ : Word := 8

/-- The ALU operations, in the order of destination IDs 33 to 50 (R96). -/
inductive Alu where
  | add | sub | adds | subs | and | or | xor | shl | shr | sar | rol | min | max | ceq | clt | cltu | tset | tchk
  deriving DecidableEq, Repr

/-- The result of an operation on result ports: a value, or a tag fault (R147). -/
inductive TagRes where
  | tag (t : Tag)
  | fault
  deriving DecidableEq, Repr

/-- Signed minimum and maximum words. -/
abbrev minWord : Word := 0x80000000
abbrev maxWord : Word := 0x7FFFFFFF

/-- An exact integer clamped to the signed range. -/
def clampInt (x : Int) : Int := if x < -2147483648 then -2147483648 else if 2147483647 < x then 2147483647 else x

/-- Whether an exact integer lies outside the signed range. -/
def outOfRange (x : Int) : Bool := decide (x < -2147483648) || decide (2147483647 < x)

/-- The tag rules of the two-operand operations (R142). -/
def tagTwo (compare : Bool) (a b : Tag) : TagRes :=
  if a = Tag.poison ∨ b = Tag.poison then .tag Tag.poison
  else if a = Tag.reserved ∨ b = Tag.reserved then .fault
  else if a = b then .tag (if compare then Tag.raw else a)
  else if a = Tag.raw then .tag (if compare then Tag.raw else b)
  else if b = Tag.raw then .tag (if compare then Tag.raw else a)
  else .fault

/-- The tag rules of shifts (R143). -/
def tagShift (a b : Tag) : TagRes :=
  if a = Tag.poison ∨ b = Tag.poison then .tag Tag.poison
  else if a = Tag.reserved then .fault
  else if b = Tag.raw ∨ b = Tag.count then .tag a
  else .fault

/-- COUNT and FRAC (R139). -/
def scalarTag (t : Tag) : Bool := t == Tag.count || t == Tag.frac

/-- The dimensional tags (R139). -/
def dimTag (t : Tag) : Bool := (2 ≤ t && t ≤ 8) || t == Tag.cond || t == Tag.curr

/-- The tag of a product (R145): the rules behind its table, in order. -/
def tagMul (a b : Tag) : TagRes :=
  if a = Tag.poison ∨ b = Tag.poison then .tag Tag.poison
  else if a = Tag.reserved ∨ b = Tag.reserved then .fault
  else if a = Tag.raw then .tag b
  else if b = Tag.raw then .tag a
  else if scalarTag a && scalarTag b then .tag (if a = Tag.frac ∧ b = Tag.frac then Tag.frac else Tag.count)
  else if scalarTag a && dimTag b then .tag b
  else if dimTag a && scalarTag b then .tag a
  else if (a = Tag.flow ∧ b = Tag.time) ∨ (a = Tag.time ∧ b = Tag.flow) then .tag Tag.vol
  else if (a = Tag.power ∧ b = Tag.time) ∨ (a = Tag.time ∧ b = Tag.power) then .tag Tag.energy
  else .fault

/-- The tag of a quotient, row the dividend (R146): the rules behind its table, in order. -/
def tagDiv (a b : Tag) : TagRes :=
  if a = Tag.poison ∨ b = Tag.poison then .tag Tag.poison
  else if a = Tag.reserved ∨ b = Tag.reserved then .fault
  else if a = Tag.raw then .tag b
  else if b = Tag.raw then .tag a
  else if a = b && (scalarTag a || dimTag a) then .tag Tag.frac
  else if (scalarTag a || dimTag a) && scalarTag b then .tag a
  else if a = Tag.vol ∧ b = Tag.time then .tag Tag.flow
  else if a = Tag.vol ∧ b = Tag.flow then .tag Tag.time
  else if a = Tag.energy ∧ b = Tag.time then .tag Tag.power
  else if a = Tag.energy ∧ b = Tag.power then .tag Tag.time
  else .fault

/-- Data and flags of an ALU operation on data words (R130-R133). `tset` and `tchk` keep a's data. -/
def aluData (op : Alu) (a b : Word) : Word × Word :=
  let s := b.toNat % 256
  match op with
  | .add => let x := a.toInt + b.toInt; (BitVec.ofInt 32 x, if outOfRange x then flOV else 0)
  | .sub => let x := a.toInt - b.toInt; (BitVec.ofInt 32 x, if outOfRange x then flOV else 0)
  | .adds => let x := a.toInt + b.toInt; (BitVec.ofInt 32 (clampInt x), if outOfRange x then flSAT else 0)
  | .subs => let x := a.toInt - b.toInt; (BitVec.ofInt 32 (clampInt x), if outOfRange x then flSAT else 0)
  | .and => (a &&& b, 0)
  | .or => (a ||| b, 0)
  | .xor => (a ^^^ b, 0)
  | .shl => (a <<< s, 0)
  | .shr => (a >>> s, 0)
  | .sar => (a.sshiftRight s, 0)
  | .rol => (a.rotateLeft (s % 32), 0)
  | .min => (if a.toInt ≤ b.toInt then a else b, 0)
  | .max => (if a.toInt ≤ b.toInt then b else a, 0)
  | .ceq => (if a = b then 1 else 0, 0)
  | .clt => (if a.toInt < b.toInt then 1 else 0, 0)
  | .cltu => (if a.toNat < b.toNat then 1 else 0, 0)
  | .tset => (a, 0)
  | .tchk => (a, 0)

/-- The tag of an ALU result (R142-R144). -/
def aluTag (op : Alu) (a b : TWord) : TagRes :=
  match op with
  | .add | .sub | .adds | .subs | .and | .or | .xor | .min | .max => tagTwo false a.tag b.tag
  | .ceq | .clt | .cltu => tagTwo true a.tag b.tag
  | .shl | .shr | .sar | .rol => tagShift a.tag b.tag
  | .tset =>
    if a.isPoison || b.isPoison then .tag Tag.poison
    else if b.data.setWidth 4 = Tag.reserved then .fault
    else .tag (b.data.setWidth 4)
  | .tchk =>
    if a.isPoison || b.isPoison then .tag Tag.poison
    else if a.tag = Tag.reserved ∨ b.data.setWidth 4 = Tag.reserved then .fault
    else if a.tag = b.data.setWidth 4 ∨ a.tag = Tag.raw then .tag a.tag
    else .fault

/-- Words for the result ports of an operation, the FLAGS bits it sets and whether it records a tag fault. A POISON
result and a tag fault write POISON and set no flag (R128, R140, R147). -/
structure OpRes where
  r0    : TWord
  r1    : TWord
  flags : Word
  tagf  : Bool
  deriving DecidableEq, Repr

/-- POISON on every port. -/
abbrev OpRes.poison (fault : Bool) : OpRes := ⟨TWord.poison, TWord.poison, 0, fault⟩

/-- An ALU operation (R130-R133, R142-R144). -/
def aluOp (op : Alu) (a b : TWord) : OpRes :=
  match aluTag op a b with
  | .fault => OpRes.poison true
  | .tag t =>
    if t = Tag.poison then OpRes.poison false
    else ⟨⟨(aluData op a.data b.data).1, t⟩, TWord.zero, (aluData op a.data b.data).2, false⟩

/-- The exact product, signed or unsigned, as 64 bits (R134). -/
def mulData (unsigned : Bool) (a b : Word) : BitVec 64 :=
  if unsigned then BitVec.ofNat 64 (a.toNat * b.toNat) else BitVec.ofInt 64 (a.toInt * b.toInt)

/-- A multiplication: mp.lo and mp.hi (R134, R145). -/
def mulOp (unsigned : Bool) (a b : TWord) : OpRes :=
  match tagMul a.tag b.tag with
  | .fault => OpRes.poison true
  | .tag t =>
    if t = Tag.poison then OpRes.poison false
    else
      let p := mulData unsigned a.data b.data
      ⟨⟨p.setWidth 32, t⟩, ⟨(p >>> 32).setWidth 32, Tag.raw⟩, 0, false⟩

/-- Quotient, remainder and flags (R135). -/
def divData (unsigned : Bool) (a b : Word) : Word × Word × Word :=
  if unsigned then
    if b = 0 then (0xFFFFFFFF, a, flDZ) else (BitVec.ofNat 32 (a.toNat / b.toNat), BitVec.ofNat 32 (a.toNat % b.toNat), 0)
  else if b = 0 then (if 0 ≤ a.toInt then maxWord else minWord, a, flDZ)
  else if a = minWord ∧ b = 0xFFFFFFFF then (minWord, 0, flOV)
  else (BitVec.ofInt 32 (a.toInt.tdiv b.toInt), BitVec.ofInt 32 (a.toInt.tmod b.toInt), 0)

/-- A division: div.q and div.r (R135, R146). -/
def divOp (unsigned : Bool) (a b : TWord) : OpRes :=
  match tagDiv a.tag b.tag with
  | .fault => OpRes.poison true
  | .tag t =>
    if t = Tag.poison then OpRes.poison false
    else
      let d := divData unsigned a.data b.data
      ⟨⟨d.1, t⟩, ⟨d.2.1, a.tag⟩, d.2.2, false⟩

end Sys2Proof.Machine
end

