-- ==== Sys2Proof/Machine/Tables.lean ====
section
/-! DEFINITION. Curve tables and state-machine tables (R150-R163): pure functions of a reader that gives word i of the
table, or none where the word lies outside the memory of R150. -/

namespace Sys2Proof.Machine

/-- How a table operation ends. -/
inductive TblEnd where
  | ok (y : TWord) (flags : Word)
  | tagFault
  | tableFault
  deriving DecidableEq, Repr

/-- A word of a table as a signed number; 0 where the reader has none (checked before). -/
def tblInt (rd : Nat → Option Word) (i : Nat) : Int :=
  match rd i with
  | some w => w.toInt
  | none => 0

/-- The largest j in 0 to n with x at or above point j (R153), searched downward. -/
def lastPoint (xs : Nat → Int) (x : Int) : Nat → Nat
  | 0 => 0
  | n + 1 => if xs (n + 1) ≤ x then n + 1 else lastPoint xs x n

/-- Linear interpolation (R154). -/
def curveLinear (y0 y1 d h : Int) : Int := y0 + ((y1 - y0) * d).fdiv h

/-- Hermite interpolation (R155). -/
def curveHermite (y0 y1 m0 m1 d h : Int) : Int :=
  let t := (d * 65536).fdiv h
  let t2 := t * t
  let t3 := t2 * t
  let q := 65536 * ((2 * t3 - 3 * 65536 * t2 + 2 ^ 48) * y0 + (3 * 65536 * t2 - 2 * t3) * y1)
    + h * ((t3 - 2 ^ 17 * t2 + 2 ^ 32 * t) * m0 + (t3 - 65536 * t2) * m1)
  q.fdiv (2 ^ 64)

/-- Interpolation of x in the table that the reader gives (R151-R158). Bits [31:5] of word 2, which R152 calls reserved, count among the
reserved header bits and fields of R158 (log entry 133). With `anyTag` the input's tag is not checked. A
POISON input is the caller's case (R99). -/
def curveEval (rd : Nat → Option Word) (anyTag : Bool) (x : TWord) : TblEnd :=
  match rd 0 with
  | none => .tableFault
  | some hdr =>
    let n := fld hdr 7 0
    let herm := bit hdr 8
    let unif := bit hdr 9
    let ext := fld hdr 11 10
    let xtag : Tag := hdr.extractLsb' 12 4
    let ytag : Tag := hdr.extractLsb' 16 4
    if fld hdr 31 20 ≠ 0 ∨ ext = 3 ∨ n < 2 ∨ 64 < n ∨ 14 ≤ xtag.toNat ∨ 14 ≤ ytag.toNat then .tableFault
    else
      let yb := if unif then 3 else n + 1
      let last := yb + n - 1 + (if herm then n else 0)
      let w2 := match rd 2 with | some w => w | none => 0
      let k := fld w2 4 0
      let step : Int := 2 ^ k
      let xs (i : Nat) : Int := if unif then tblInt rd 1 + (i : Int) * step else tblInt rd (1 + i)
      if (rd last).isNone then .tableFault
      else if unif && (fld w2 31 5 != 0 || decide (2147483647 < xs (n - 1))) then .tableFault
      else
        let ys (i : Nat) : Int := tblInt rd (yb + i)
        let ms (i : Nat) : Int := tblInt rd (yb + n + i)
        let xv := x.data.toInt
        let badTag := !anyTag && x.tag != xtag && x.tag != Tag.raw
        let out (y : Int) : TblEnd :=
          if badTag then .tagFault
          else .ok ⟨BitVec.ofInt 32 (clampInt y), ytag⟩ (if outOfRange y then flSAT else 0)
        let seg (i : Nat) (cubic : Bool) : TblEnd :=
          let h := xs (i + 1) - xs i
          let d := xv - xs i
          if h ≤ 0 then .tableFault
          else if cubic then out (curveHermite (ys i) (ys (i + 1)) (ms i) (ms (i + 1)) d h)
          else out (curveLinear (ys i) (ys (i + 1)) d h)
        if xv < xs 0 then
          (if ext = 0 then out (ys 0) else if ext = 1 then seg 0 false
           else if badTag then .tagFault else .ok TWord.poison 0)
        else if xs (n - 1) < xv then
          (if ext = 0 then out (ys (n - 1)) else if ext = 1 then seg (n - 2) false
           else if badTag then .tagFault else .ok TWord.poison 0)
        else
          let i := if unif then min ((xv - xs 0).fdiv step).toNat (n - 2) else lastPoint xs xv (n - 2)
          seg i herm

/-- The words of a curve table that an interpolation of x reads (R151-R158), in stages: the header; the spacing or the points, all of which
the search compares (log entry 132); and the values and slopes of the segment used. -/
def curveNeeds (x : TWord) (rd : Nat → Option Word) (stage : Nat) : List Nat :=
  match rd 0 with
  | none => []
  | some hdr =>
    let n := fld hdr 7 0
    let herm := bit hdr 8
    let unif := bit hdr 9
    let ext := fld hdr 11 10
    let bad := fld hdr 31 20 != 0 || ext == 3 || decide (n < 2) || decide (64 < n) || decide (14 ≤ fld hdr 15 12) || decide (14 ≤ fld hdr 19 16)
    let yb := if unif then 3 else n + 1
    if stage = 0 then [0]
    else if bad || (rd (yb + n - 1 + (if herm then n else 0))).isNone then []
    else if stage = 1 then (if unif then [1, 2] else (List.range n).map (· + 1))
    else
      let w2 := match rd 2 with | some w => w | none => 0
      let step : Int := 2 ^ fld w2 4 0
      let xs (i : Nat) : Int := if unif then tblInt rd 1 + (i : Int) * step else tblInt rd (1 + i)
      let xv := x.data.toInt
      let ends (y i : Nat) : List Nat := if ext = 0 then [y] else if ext = 1 then [yb + i, yb + i + 1] else []
      if unif && (fld w2 31 5 != 0 || decide (2147483647 < xs (n - 1))) then []
      else if xv < xs 0 then ends yb 0
      else if xs (n - 1) < xv then ends (yb + n - 1) (n - 2)
      else
        let i := if unif then min ((xv - xs 0).fdiv step).toNat (n - 2) else lastPoint xs xv (n - 2)
        [yb + i, yb + i + 1] ++ if herm then [yb + n + i, yb + n + i + 1] else []

/-- The words of a state-machine table that a step reads (R160, R161): the header and the word of its entry. -/
def seqNeeds (st ev : TWord) (rd : Nat → Option Word) (stage : Nat) : List Nat :=
  match rd 0 with
  | none => []
  | some hdr =>
    let e := fld hdr 12 8 + 1
    let s := fld hdr 7 0 + 1
    if stage = 0 then [0]
    else if fld hdr 31 13 ≠ 0 ∨ (rd ((s * e + 1) / 2)).isNone ∨ s ≤ st.data.toNat ∨ e ≤ ev.data.toNat then []
    else [1 + (st.data.toNat * e + ev.data.toNat) / 2]

/-- One step of a state-machine table (R160-R163): next state and action; POISON operands are the caller's case. -/
def seqEval (rd : Nat → Option Word) (anyHandle : Bool) (h st ev : TWord) : TblEnd × TWord :=
  match rd 0 with
  | none => (.tableFault, TWord.poison)
  | some hdr =>
    let e := fld hdr 12 8 + 1
    let s := fld hdr 7 0 + 1
    if fld hdr 31 13 ≠ 0 ∨ (rd ((s * e + 1) / 2)).isNone ∨ s ≤ st.data.toNat ∨ e ≤ ev.data.toNat then
      (.tableFault, TWord.poison)
    else if !(st.tag == Tag.state || st.tag == Tag.raw) || !(ev.tag == Tag.count || ev.tag == Tag.state || ev.tag == Tag.raw)
        || !(anyHandle || h.tag == Tag.handle || h.tag == Tag.raw) then (.tagFault, TWord.poison)
    else
      let i := st.data.toNat * e + ev.data.toNat
      let w := match rd (1 + i / 2) with | some w => w | none => 0
      let ent := if i % 2 = 0 then fld w 15 0 else fld w 31 16
      (.ok ⟨BitVec.ofNat 32 (ent % 256), Tag.state⟩ 0, ⟨BitVec.ofNat 32 (ent / 256), Tag.count⟩)

end Sys2Proof.Machine
end

