-- ==== Sys2Proof/Machine/CoreOps.lean ====
section
/-! DEFINITION. The shared operations of a core: its registers and ports, sys registers, transfers and loops, taking an
exception (R188-R197, R236) and returning from one (R202-R205), and the frame image (R200, R201). -/

namespace Sys2Proof.Machine

/-- The accesses of a core whose response has not come: the one in the frame, then the one that holds issue (R137, R198). -/
def heldOf (c : Core) : List Held := (c.fheld.map (·.2) ++ c.held.toList).filter fun h => !h.done

/-- The access in the frame of a depth (R198, R201). -/
def fheldAt (c : Core) (d : Nat) : Option Held := (c.fheld.find? fun p => p.1 == d).map (·.2)

/-- The oldest access in a frame whose response has not come, with its depth. -/
def fheldNext (c : Core) : Option (Nat × Held) := (c.fheld.filter fun p => !p.2.done).getLast?

/-- Change the accesses of core k whose response has not come. -/
def onHeld (v : Vol) (k : Nat) (f : Held → Held) : Vol :=
  let g (h : Held) : Held := if h.done then h else f h
  onCore v k fun c => { c with held := c.held.map g, fheld := c.fheld.map fun p => (p.1, g p.2) }

/-- Operand ports by destination ID, result ports by source ID, sys registers by number. -/
def opnd (c : Core) (d : Nat) : TWord := smapGet zeroT c.port d
def setOpnd (c : Core) (d : Nat) (w : TWord) : Core := { c with port := smapSet zeroT c.port d w }
def resPort (c : Core) (s : Nat) : TWord := smapGet zeroT c.port (128 + s)
def setSysT (c : Core) (n : Nat) (w : TWord) : Core := { c with sys := smapSet zeroT c.sys n w }
def setSys (c : Core) (n : Nat) (w : Word) : Core := setSysT c n ⟨w, Tag.raw⟩

/-- A result arrives: the port takes it, its valid bit sets and a replay no longer pends (R81, R205). -/
def setRes (c : Core) (s : Nat) (w : TWord) : Core :=
  { c with port := smapSet zeroT c.port (128 + s) w, valid := c.valid ||| BitVec.ofNat 128 (2 ^ s),
           replay := c.replay &&& ~~~(BitVec.ofNat 128 (2 ^ s)) }

/-- Set FLAGS bits. -/
def orFlags (c : Core) (f : Word) : Core := setSys c 0 (sysW c 0 ||| f)

/-- General register n (R93): untagged on Ozhan-S. -/
def gReg (c : Core) (n : Nat) : TWord := smapGet zeroT c.g n
def setG (k : Nat) (c : Core) (n : Nat) (w : TWord) : Core :=
  { c with g := smapSet zeroT c.g n (if k = 8 then ⟨w.data, Tag.raw⟩ else w) }

/-- MODE.U, XSTAT.SHPRIV, XSTAT.DEPTH and the open loop levels. -/
def userMode (c : Core) : Bool := bit (sysW c 0x40) 0
def shPriv (c : Core) : Bool := bit (sysW c 0x52) 5
def xDepth (c : Core) : Nat := fld (sysW c 0x52) 3 1
def loopLevels (c : Core) : Nat := fld (sysW c 0x45) 1 0
def setUser (c : Core) (u : Bool) : Core := setSys c 0x40 (if u then 1 else 0)
/-- A pending MODE whose two bundles have passed is in force (R120): the next bundle issues in the new mode. -/
def modeDue (c : Core) : Core :=
  match c.modeChg with
  | some (0, u) => setUser { c with modeChg := none } u
  | _ => c
def setXBit (c : Core) (i : Nat) (b : Bool) : Core :=
  setSys c 0x52 (if b then sysW c 0x52 ||| bitWord i else sysW c 0x52 &&& ~~~(bitWord i))

/-- Bits of CORE_CTL (R211). -/
def ctlBit (v : Vol) (k i : Nat) : Bool := rb v (aCtl (pCore k)) i

/-- Whether core k may issue its next bundle now: started, not halted, not waiting, no access held (R72, R137, R197,
R211, R555). -/
def issuing (v : Vol) (k : Nat) : Bool :=
  let c := coreOf v k
  coreUp v k && c.run && !c.dfHalt && !c.safeHalt && !c.ovr && !ctlBit v k 5 && (c.wait == .none)
    && c.held.isNone

/-- The bundle issued last: CORE_PC (R212). -/
def curBundle (v : Vol) (k : Nat) : Nat := (rg v (ra (pCore k) 0x044)).toNat

/-- A plain fault of a bundle. -/
def cfault (code lane port pc : Nat) : CFault := ⟨code, lane, port, false, 0, 0, 0, false, pc, 0, 0, false, false, 0⟩

/-- Whether a cause is imprecise by kind (R189). -/
def imprCause (code : Nat) : Bool := code == 0x20 || code == 0x21 || code == 0x22

/-- The cause record (R192, R235): of an imprecise fault too with the trigger's port and lane, as FR_CAUSE has them (log entry 127). -/
def causeWord (f : CFault) : Word :=
  BitVec.ofNat 32 (f.info % 512 * 2 ^ 22 + f.resp % 8 * 2 ^ 19 + b2n f.part * 2 ^ 18 + b2n (imprCause f.code || f.sb) * 2 ^ 17
    + b2n f.src * 2 ^ 16 + f.port % 128 * 2 ^ 9 + f.lane % 8 * 2 ^ 6 + f.code % 64)

/-! ### Results -/

/-- The results of a flight and whether it records a tag fault (R134, R145, R147). -/
def flightRes (f : Flight) : List (Nat × TWord) × Bool :=
  if f.load then ([(38, f.b)], false)
  else
    let r := mulOp (bit f.ctl 2) f.a f.b
    ([(34, r.r0), (35, r.r1)], r.tagf)

/-- Deliver a flight's results. -/
def landFlight (c : Core) (f : Flight) : Core :=
  let (rs, bad) := flightRes f
  let c := rs.foldl (fun c p => setRes c p.1 p.2) c
  if bad then { c with impr := c.impr ++ [cfault 0x20 f.lane f.port f.pc] } else c

/-- Deliver the flights due to the bundle that issues next (R125). -/
def deliverDue (c : Core) : Core :=
  let c' := { c with fl := c.fl.filter fun f => decide (1 < f.left) }
  (c.fl.filter fun f => decide (f.left ≤ 1)).foldl landFlight c'

/-- One bundle has issued: every flight is one bundle nearer. -/
def ageFlights (c : Core) : Core := { c with fl := c.fl.map fun f => { f with left := f.left - 1 } }

/-- The tag faults of the flights due to the bundle that issues next are recorded, and these flights deliver (R184). Of
faults recorded in one cycle, the flight's comes first: its trigger issued before that of an ALU fault (R185). A fault that
a long operation recorded during a hold stays the first. -/
def landBad (c : Core) : Core :=
  let hit (f : Flight) : Bool := decide (f.left ≤ 1) && (flightRes f).2
  let c' := (c.fl.filter hit).foldl landFlight { c with impr := [], fl := c.fl.filter fun f => !hit f }
  { c' with impr := if c.imprFirst then c.impr ++ c'.impr else c'.impr ++ c.impr }

/-! ### Block operations (R164-R167) -/

/-- Where a rep element may lie (R165). -/
def repPlace (k a n : Nat) : Option Place :=
  match place a with
  | some p => if p.win = .direct ∧ (p.dom = 10 + k ∨ 81 ≤ p.dom) ∧ a % n = 0 then some p else none
  | none => none

/-- What one element of a block operation does: it is done in so many cycles; it ends the operation; it waits for a domain that wakes
(R285); or it faults with a code, a response and an address, nothing of it done. -/
inductive RepStep where
  | next (v : Vol) (cost : Nat)
  | found (v : Vol)
  | wait (v : Vol)
  | bad (v : Vol) (code resp addr : Nat)

/-- What an element's access meets before its SRAM (R266, R285): the wipe of its power-up answers RESET, a domain that is down answers OFF
or is woken; the address is ra's or rb's. -/
def repClosed (v : Vol) (p : Place) (a : Nat) : Option RepStep :=
  if wiping v p.dom then some (.bad v 0x0F 3 a)
  else if domUp v p.dom then none
  else if autoWake v p.dom then some (.wait (startPower v p.dom))
  else some (.bad v 0x0F 4 a)

/-- The cycles that the accesses of one element take without arbitration (R166). -/
def repCost (k op : Nat) (c : Core) : Nat :=
  let one (a : Nat) : Nat := match place a with | some p => (if p.dom = 10 + k then 1 else 2) | none => 0
  max 1 (one (opnd c 93).data.toNat + (if op = 0 ∨ op = 3 then one (opnd c 94).data.toNat else 0))

/-- One element of a block operation (R164, R165, R167): ra, rb and rc move on behind it (R117). The tags of smaller elements are compared
as those of words are (log entry 125), and the service core's elements reach SRAM past its store buffer (log entry 128). -/
def repElem (k op n : Nat) (v : Vol) : RepStep :=
  let c := coreOf v k
  let ra' := (opnd c 93).data
  let rbw := opnd c 94
  let step (v : Vol) (da db : Nat) : Vol := onCore v k fun c =>
    let c1 := setOpnd c 93 ⟨ra' + BitVec.ofNat 32 da, (opnd c 93).tag⟩
    let c1 := setOpnd c1 94 ⟨rbw.data + BitVec.ofNat 32 db, rbw.tag⟩
    setOpnd c1 95 ⟨(opnd c 95).data - 1, (opnd c 95).tag⟩
  let cost := repCost k op c
  let rd (v : Vol) (a : Nat) (p : Place) : Vol × Option TWord × Nat :=
    let t := sharedTurn v k p
    match sramRead t.1 p.key k with
    | (v', some w) => (v', some (pickBytes (loadTag p w) (a % 4) n false), t.2)
    | (v', none) => (v', none, t.2)
  let wr (v : Vol) (a : Nat) (p : Place) (w : TWord) : Option Vol × Vol × Nat :=
    let t := sharedTurn v k p
    let r := sramStore t.1 k n a p (byteMask (a % 4) n) ⟨w.data <<< (8 * (a % 4)), w.tag⟩
    (r.1, r.2, t.2)
  let elem (w : TWord) : TWord := if n = 4 then w else ⟨BitVec.ofNat 32 (w.data.toNat % 2 ^ (8 * n)), w.tag⟩
  let same (x y : TWord) (anyTag : Bool) : Bool := x.data == y.data && (k == 8 || anyTag || x.tag == y.tag)
  match repPlace k ra'.toNat n with
  | none => .bad v 0x11 0 ra'.toNat
  | some pa =>
    match repClosed v pa ra'.toNat with
    | some r => r
    | none =>
    if op = 1 then
      match wr v ra'.toNat pa rbw with
      | (none, v, _) => .bad v 0x0F 2 ra'.toNat
      | (some v, _, w) => .next (step v n 0) (cost + w)
    else if op = 2 then
      match rd v ra'.toNat pa with
      | (v, none, _) => .bad v 0x10 0 ra'.toNat
      | (v, some x, w) => if same x (elem rbw) (rbw.tag == Tag.raw) then .found v else .next (step v n 0) (cost + w)
    else
      match repPlace k rbw.data.toNat n with
      | none => .bad v 0x11 0 rbw.data.toNat
      | some pb =>
        match repClosed v pb rbw.data.toNat with
        | some r => r
        | none =>
        match rd v ra'.toNat pa with
        | (v, none, _) => .bad v 0x10 0 ra'.toNat
        | (v, some x, w) =>
          if op = 0 then
            match wr v rbw.data.toNat pb x with
            | (none, v, _) => .bad v 0x0F 2 rbw.data.toNat
            | (some v, _, w2) => .next (step v n n) (cost + w + w2)
          else
            match rd v rbw.data.toNat pb with
            | (v, none, _) => .bad v 0x10 0 rbw.data.toNat
            | (v, some y, w2) => if same x y false then .next (step v n n) (cost + w + w2) else .found v

/-- Run a block operation to its end: the fault with its response and address, if any, and rep.q; none for an element that waits. -/
def repRun (k op n : Nat) : Nat → Vol → Vol × Option (Nat × Nat × Nat) × Option Word
  | 0, v => (v, none, some 0)
  | fuel + 1, v =>
    match repElem k op n v with
    | .next v _ => repRun k op n fuel v
    | .found v => (v, none, some 1)
    | .wait v => (v, none, none)
    | .bad v code resp a => (v, some (code, resp, a), some 0)

/-- Run the elements of a block operation for which the cycles suffice: the cycles used, and the fault of an element that was
reached. -/
def repUntil (k op n budget : Nat) : Nat → Nat → Vol → Vol × Nat × Option (Nat × Nat × Nat)
  | 0, used, v => (v, used, none)
  | fuel + 1, used, v =>
    if budget < used + repCost k op (coreOf v k) then (v, used, none)
    else
      match repElem k op n v with
      | .next v c => repUntil k op n budget fuel (used + c) v
      | .found _ => (v, used, none)
      | .wait v => (v, used, none)
      | .bad v code resp a => (v, used, some (code, resp, a))

/-- The block operation of core k has processed the elements for which there was time (R117, R166): two cycles pass first (log
entry 21). The answer tells the operation that meets a fault, with it. -/
def repCatch (v : Vol) (k : Nat) : Vol × Option (LongOp × Nat × Nat × Nat) :=
  match (coreOf v k).long.find? fun l => l.kind == 3 with
  | none => (v, none)
  | some l =>
    let w := l.c.data
    let (v, used, bad) := repUntil k (fld w 1 0) (2 ^ fld w 3 2) (v.now - l.since - 2) (opnd (coreOf v k) 95).data.toNat l.spent v
    (onCore v k fun c => { c with long := c.long.map fun x => if x.kind == 3 then { x with spent := used } else x },
      bad.map fun b => (l, b))

/-! ### Taking an exception -/

/-- The fault record of core k (R234-R236), for causes other than INT and TRAP. -/
def captureFault (v : Vol) (k : Nat) (f : CFault) (bun : BitVec 128) : Vol :=
  if f.code ≤ 2 then v
  else
    let a (o : Nat) : Nat := ra (pCore k) o
    let v := rgIncSat v (a 0x130) 16
    let seen : Nat := if f.code = 0x30 then 24 else if imprCause f.code then f.code - 0x20 + 20 else f.code
    let v := rgOr v (a 0x134) (bitWord seen)
    if rb v (a 0x100) 31 && !rb v (a 0x13C) 0 then v
    else
      let put (v : Vol) (o x : Nat) : Vol := rgSet v (a o) (BitVec.ofNat 32 x)
      let v := rgSet v (a 0x100) (causeWord f ||| bitWord 31)
      let v := put v 0x104 (f.pc / 16 * 16)
      let v := put v 0x108 f.addr
      let v := put v 0x10C ((if f.code = 4 then f.pc else f.opc) / 16 * 16)
      let v := put v 0x110 f.oinfo
      let v := rgSet v (a 0x114) (v.tick.number.setWidth 32)
      let v := put v 0x118 (tickCyc v)
      let v := put v 0x11C (if k = 8 then 0 else smapGet (fun _ => 0) v.tick.kerfDrop k % 2 ^ 19)
      (List.range 4).foldl (fun v i => rgSet v (a (0x120 + 4 * i)) (bunWord (if f.prec then f.fbun else bun) i)) v

/-- A double fault: core k halts, CORE_DFC and CORE_DFPC record it, core event 1 (R197). -/
def doubleFault (v : Vol) (k : Nat) (f : CFault) (epc : Nat) : Vol :=
  let first := fld (sysW (coreOf v k) 0x4A) 5 0
  let v := rgSet v (ra (pCore k) 0x058) (BitVec.ofNat 32 (first * 64 + f.code % 64))
  let v := rgSet v (ra (pCore k) 0x05C) (BitVec.ofNat 32 (epc / 16 * 16))
  raiseEvent (onCore v k fun c => { c with dfHalt := true, trapNo := none }) (pCore k) 1

/-- Whether a flight is a load that crosses a word (R104). -/
def splitLoad (f : Flight) : Bool := f.load && decide (4 < f.a.data.toNat % 4 + 2 ^ fld f.ctl 4 3)

/-- What an entry finds of the interrupted stream (R120, R199, R205): a due mode change is in force, a split load has both
halves, and replays not yet started go into the records with what is in flight. -/
def frozen (c : Core) : Core :=
  let c := modeDue c
  let c := (c.fl.filter splitLoad).foldl landFlight { c with fl := c.fl.filter fun f => !splitLoad f }
  if c.restart then { c with fl := c.fl ++ c.recFl, long := c.long ++ c.recLong, recFl := [], recLong := [], restart := false } else c

/-- Whether core k fetches through its prefetch queue (R182): STAT.PQA. -/
def pqInForce (v : Vol) (k : Nat) : Bool := rb v (aStat (pCore k)) 3

/-- The lines that core k's line queue holds, or that are in flight to it (R174, R204). -/
def linesHeld (v : Vol) (k : Nat) : Option (Nat × Nat) :=
  let c := coreOf v k
  match c.queue, c.fetchAt with
  | some (b, u), _ => some (if pqInForce v k then (b / 8, u / 8) else (b, b + 3))
  | none, some (l, t) => if t ≤ v.now then some (l, l) else none
  | none, none => none

/-- The result ports that a record delivers to, as source-ID bits (R201). -/
def longPorts (l : LongOp) : List Nat :=
  match l.kind with
  | 0 => [36, 37]
  | 1 => [40]
  | 2 => [41, 42]
  | _ => [43]
def flightPorts (f : Flight) : List Nat := if f.load then [38] else [34, 35]
def portBits (l : List Nat) : BitVec 128 := l.foldl (fun b s => b ||| BitVec.ofNat 128 (2 ^ s)) 0

/-- Taking an exception on core k (R188-R197, R207, R236): the frame registers, the port shadow and the replay records
are saved, the handler runs in supervisor mode at EVEC with interrupts off. `bun` is the bundle at EPC of a precise
fault, else 0; `epc` the bundle at which return resumes; `le` whether its loop-end test is still to come. While
XSTAT.ACTIVE = 1 it is a double fault, but KERF, which enters no second handler (R214). A store-buffer fault that waits goes on waiting
(R210). -/
def enterExc (v : Vol) (k : Nat) (f : CFault) (bun : BitVec 128) (epc : Nat) (le : Bool) : Vol :=
  if xActive (coreOf v k) then (if f.code = 0x30 then v else doubleFault v k f epc)
  else
    let v := (repCatch v k).1
    let c := frozen (coreOf v k)
    let impr := imprCause f.code
    let ds := match c.ds with | some (t, n) => (t, n) | none => (0, 0)
    let pm := match c.modeChg with | some (_, u) => (true, u) | none => (false, false)
    let estat : Word := BitVec.ofNat 32 (b2n (bit (sysW c 0x53) 0) * 128 + b2n pm.2 * 32 + b2n pm.1 * 16 + b2n le * 8
      + ds.2 % 4 * 2 + b2n (userMode c))
    let put (c : Core) (n x : Nat) : Core := setSys c n (BitVec.ofNat 32 x)
    let c1 := put c 0x48 (epc / 16 * 16)
    let c1 := put c1 0x49 (if ds.2 = 0 then 0 else ds.1 / 16 * 16)
    let c1 := setSys c1 0x4A (causeWord f)
    let c1 := setSys c1 0x4B estat
    let c1 := put c1 0x4C (if impr then f.pc else f.addr)
    let c1 := (List.range 4).foldl (fun c i => setSys c (0x4D + i) (bunWord bun i)) c1
    let c1 := setXBit (setXBit c1 5 (userMode c)) 0 true
    let c1 := setSys (setUser c1 false) 0x53 0
    let at' := (sysW c 0x51).toNat / 16 * 16
    let dep := xDepth c
    let c1 := { c1 with
      shadow := c.port, shValid := c.valid, recFl := c.fl, recLong := c.long, fl := [], long := [], replay := 0
      recPend := portBits (c.long.flatMap longPorts ++ c.fl.flatMap flightPorts
        ++ match c.held.or (fheldAt c dep) with | some h => if h.write then [] else [38] | none => [])
      held := none
      fheld := (match c.held with
        | some h => (dep, h) :: c.fheld.filter (fun p => p.1 != dep)
        | none => c.fheld.filter fun p => p.1 != dep || !p.2.done)
      ds := none, rx := false, le := false, modeChg := none, impr := [], imprFirst := false, busf := none, trapNo := none,
      wait := .none, restart := false, ovr := false, last := none, lpCold := 3,
      retq := linesHeld v k, fetchAt := none, entAt := none, pc := at'
      queue := some (if pqInForce v k then (at' / 16, at' / 128 * 8 + 15) else (at' / 128, at' / 128 + 1)) }
    let v := setCore v k c1
    let v := captureFault v k (if impr || f.sb then { f with addr := epc / 16 * 16 } else f) bun
    let v := raiseEvent v (pCore k) 0
    let v := raiseIf (f.code == 3) v (pCore k) 2
    raiseIf (impr || f.sb) v (pCore k) 4

/-- A precise fault of the bundle at core k's pc (R170): nothing of it takes effect. -/
def preciseFault (v : Vol) (k : Nat) (f : CFault) (bun : BitVec 128) : Vol :=
  let c := coreOf v k
  enterExc v k f bun c.pc (c.le || (bunFmt bun == 2 && loopLevels c != 0))

/-- A BUS fault is recorded (R190, R210): one of the store buffer in a place of its own; one recorded already there goes to FAULT bit i
instead. An imprecise fault that a halted core, or one that stands at a fence, recorded before comes first. -/
def recordBus (v : Vol) (k i : Nat) (f : CFault) : Vol :=
  let c := coreOf v k
  let waits := c.dfHalt || c.safeHalt || c.ovr || ctlBit v k 5 || c.wait == .fence || c.wait == .atFence
  let c := { c with imprFirst := c.imprFirst || (waits && !c.impr.isEmpty) }
  if (if f.sb then c.sbf.isSome else c.busf.isSome) then setFault v (pCore k) i
  else setCore v k (if f.sb then { c with sbf := some (f, c.busf.isSome) } else { c with busf := some f })

/-- The fault of an answered access whose response is not OKAY (R138, R189): BUS, or SRAMUNC of a load of an uncorrectable word
(R252), precise though its bundle has issued. -/
def heldFault (h : Held) (code : Nat) : CFault :=
  if 8 ≤ code then { cfault 0x10 h.lane h.port h.pc with addr := h.addr, prec := true }
  else { cfault 0x0F h.lane h.port h.pc with addr := h.addr, resp := code }

/-- A recorded fault enters (R184, R190): of one that is precise though its bundle has issued the frame shows the bundle at EPC
and the record the fault's own. -/
def enterRecorded (nv : Nv) (v : Vol) (k : Nat) (f : CFault) : Vol :=
  let c := coreOf v k
  if f.prec then enterExc v k { f with fbun := fetchedAt nv v f.pc } (fetchedAt nv v c.pc) c.pc c.le
  else enterExc v k f 0 c.pc c.le

/-- A BUS fault whose turn has not come goes into the frame as the response of its access, which the return makes a fault at EPC
(R205). -/
def busKept (c : Core) : Core :=
  match c.busf with
  | some f => { c with busf := none
                       held := some ⟨true, 4, f.addr, TWord.zero, false, f.pc, f.lane, f.port, some (if f.code = 0x10 then 10 else f.resp), true, none, false⟩ }
  | none => c

/-- Take a recorded BUS or imprecise fault before the next bundle (R184, R185, R190): the first recorded is taken, a BUS
fault before an imprecise one of the same cycle, and every other goes to FAULT.IMPRLOST. A store-buffer BUS fault waits while
ACTIVE = 1, or while a fault recorded before it is taken (R210); taken itself, it sends a BUS fault of the core's own behind the return
(log entry 129). -/
def takePending (nv : Nv) (v : Vol) (k : Nat) : Option Vol :=
  let c := coreOf v k
  let lost (v : Vol) (l : List CFault) : Vol := if l.isEmpty then v else setFault v (pCore k) 0
  let own (c : Core) : Option Vol :=
    match c.busf, c.impr with
    | some f, rest =>
      let g := if c.imprFirst then rest.headD f else f
      some (enterRecorded nv (lost (setCore v k { c with busf := none, impr := [], imprFirst := false }) rest) k g)
    | none, f :: rest => some (enterRecorded nv (lost (setCore v k { c with impr := [], imprFirst := false }) rest) k f)
    | none, [] => none
  match c.sbf with
  | some (f, behind) =>
    if xActive c || behind || (c.imprFirst && !c.impr.isEmpty) || c.busf.any (fun g => g.code == 0x11 || c.held.isSome) then own { c with sbf := some (f, false) }
    else some (enterRecorded nv (lost (setCore v k (busKept { c with sbf := none, impr := [], imprFirst := false })) c.impr) k f)
  | none => own c

/-! ### Transfers and loops -/

/-- Debit a fetch as an unlocked BTB miss of core k (R68, R176, R181, R537): the bundle issues x cycles after the transfer or the
marked bundle, on an edge of its clock, and would have issued n of its cycles after it. -/
def debitMiss (v : Vol) (k x n : Nat) : Vol :=
  let d := if k = 8 then 1 else cclkDiv v
  debit (rgInc v (ra (pCore k) 0x050)) k 2 ((x + d - 1) / d * d - n * d)

/-- Cycles from t to the first slot of core k at or after t: the rotation counts from the release of reset (R171). -/
def slotAfter (v : Vol) (k t : Nat) : Nat := (k % 8 + 8 - (t - v.sys.relAt) % 8) % 8

/-- A written PQ takes effect at a taken transfer (R182). -/
def pqApplies (v : Vol) (k : Nat) : Vol := rbSet v (aStat (pCore k)) 3 (ctlBit v k 3)

/-- Core k goes on at a target whose lines it does not hold (R175, R176, R182): through its prefetch queue it fetches them;
otherwise the BTB is consulted, and an unlocked miss is counted, debited from the transfer's cycle and entered. Only a hit lets the
target issue in the next cycle, in which a store of the bundle before may still occupy its bank (R218). After a return the cycle is that
of `cu.retx` (log entry 126). -/
def fetchFrom (v : Vol) (k target : Nat) : Vol :=
  let c := coreOf v k
  let t := target / 16 * 16
  let slot := slotAfter v k (c.dsAt + 1)
  let asked (c : Core) : Core := { c with pc := t, queue := none, fetchAt := some (t / 128, c.dsAt + 1 + slot), last := none }
  if pqInForce v k then setCore v k (asked c)
  else
    let hit := c.btb.filter fun e => e.1 == t
    let rest := c.btb.filter fun e => e.1 != t
    match hit with
    | e :: _ => setCore v k { c with pc := t, btb := e :: rest, queue := some (t / 128, t / 128 + 1), fetchAt := none }
    | [] =>
      let v := debitMiss (setCore v k (asked c)) k (12 + slot) 3
      let room : Option (List (Nat × Bool)) :=
        if rest.length < 64 then some rest
        else
          match rest.reverse.span (fun e => e.2) with
          | (_, []) => none
          | (later, _ :: earlier) => some (earlier.reverse ++ later.reverse)
      match room with
      | none => v
      | some l => onCore v k fun c => { c with btb := (t, false) :: l }

/-- A taken transfer reaches its target (R175, R176, R182). -/
def takenTo (v : Vol) (k target : Nat) : Vol := fetchFrom (pqApplies v k) k target

/-- The loop-end test on level n, counted from 1 (R113, R181): the start to loop back to, if any. The lines of a cold loop-back go into the
loop buffer alone (log entry 124). -/
def loopEnd (v : Vol) (k n : Nat) : Vol × Option Nat :=
  let c := coreOf v k
  if n = 0 then (v, none)
  else
    let ca := 0x42 + 2 * (n - 1)
    let cnt := (sysW c ca).toNat - 1
    let c1 := setSys c ca (BitVec.ofNat 32 cnt)
    if cnt = 0 then (setCore v k (setSys c1 0x45 (BitVec.ofNat 32 (n - 1))), none)
    else
      let start := (sysW c (ca - 1)).toNat / 16 * 16
      let slot := slotAfter v k (v.now + 7)
      let c2 := { c1 with lpCold := c1.lpCold &&& ~~~(BitVec.ofNat 2 (2 ^ (n - 1))) }
      if c.lpCold.getLsbD (n - 1) || pqInForce v k then
        let v := setCore v k { c2 with queue := none, fetchAt := some (start / 128, v.now - 1 + slot), last := none }
        (if pqInForce v k then v else debitMiss v k (10 + slot) 1, some start)
      else (setCore v k { c2 with queue := some (start / 128, start / 128 + 3) }, some start)

/-- The line of a bundle as core k's line queue has it (R173, R174): whether its fetch is counted now, and the queue then. The prefetch
queue keeps four bundles of a line read at most, and reads the line anew for the next ones (R182, log entry 130). -/
def lineQueued (pq : Bool) (q : Option (Nat × Nat)) (pc : Nat) : Bool × (Nat × Nat) :=
  let line := pc / 128
  let i := pc / 16
  match pq, q with
  | false, some (b, u) => if b ≤ line ∧ line ≤ b + 3 then (decide (u < line), (line, max u line)) else (true, (line, line))
  | false, none => (true, (line, line))
  | true, some (b, u) => if b ≤ i ∧ i ≤ u then (false, (i, u)) else (true, (i, min (i + 3) (i / 8 * 8 + 7)))
  | true, none => (true, (i, min (i + 3) (i / 8 * 8 + 7)))

/-- Push and pop of the return stack (R108, R109). -/
def rsPush (c : Core) (a : Nat) : Core :=
  let p := fld (sysW c 0x46) 3 0
  let d := fld (sysW c 0x46) 8 4
  setSys (setSys c (0x60 + p) (BitVec.ofNat 32 a)) 0x46 (BitVec.ofNat 32 ((if d < 16 then d + 1 else 16) * 16 + (p + 1) % 16))
def rsPop (c : Core) : Core × Nat :=
  let p := (fld (sysW c 0x46) 3 0 + 15) % 16
  let d := fld (sysW c 0x46) 8 4
  (setSys c 0x46 (BitVec.ofNat 32 ((d - 1) * 16 + p)), (sysW c (0x60 + p)).toNat)

/-! ### Return -/

/-- A return that finds XSTAT.ACTIVE 0, as behind an FSAVE in its delay slot, restores SHPRIV from the stack (R214). -/
def shPopped (c : Core) : Core :=
  match c.shstk with
  | p :: rest =>
    if xActive c then c
    else { setXBit (setSys c 0x52 (putFld (sysW c 0x52) 3 1 (xDepth c - 1))) 5 p with shstk := rest }
  | [] => c

/-- What `cu.retx` does at the end of its second delay slot (R182, R202-R205). The privilege never rises above XSTAT.SHPRIV;
an attempt sets STAT.RPV and raises source 40. The bundle at EPC comes from the return line buffer when that holds its line. A
MODE that the handler left pending goes (log entry 102). A store-buffer fault that waits comes ahead of the fault of the frame's access
(R210, log entry 129). -/
def returnExc (v : Vol) (k : Nat) : Vol :=
  let v := onCore (pqApplies v k) k shPopped
  let c := coreOf v k
  let es := sysW c 0x4B
  let spu := bit es 0
  let v := if !spu && shPriv c then
      noteLine 40 v (rgOr v (aStat (pCore k)) (bitWord 8))
    else v
  let epc := (sysW c 0x48).toNat / 16 * 16
  let c1 := { c with
    port := c.shadow, valid := c.shValid, restart := true, rx := false,
    replay := c.recPend
    ds := if fld es 2 1 = 0 then none else some ((sysW c 0x49).toNat / 16 * 16, fld es 2 1)
    modeChg := if bit es 4 then some (1, bit es 5 || shPriv c) else none
    le := bit es 3 }
  let c1 := setUser c1 (spu || shPriv c)
  let c1 := if k = 8 then setSys c1 0x53 (if bit es 7 then 1 else 0) else c1
  let c1 := setXBit c1 0 false
  let c1 := match fheldAt c (xDepth c) with
    | some h =>
      if h.done then
        let c2 := { c1 with fheld := c.fheld.filter fun p => p.1 != xDepth c }
        match h.resp with
        | none => if h.write then c2 else setRes c2 38 h.data
        | some r => { c2 with busf := some { heldFault h r with prec := true }, replay := c2.replay &&& ~~~(portBits [38]) }
      else c1
    | none => c1
  match c.retq with
  | some (b, u) =>
    if b ≤ epc / 128 ∧ epc / 128 ≤ u then
      let q := if pqInForce v k then (epc / 16, u * 8 + 7) else (epc / 128, u)
      setCore v k { c1 with pc := epc, queue := if b = u ∧ !pqInForce v k then none else some q, fetchAt := none }
    else fetchFrom (setCore v k c1) k epc
  | none => fetchFrom (setCore v k c1) k epc

/-- The value that a load of n bytes finds in SRAM (R102, R104, R252): a word, or two words; of core 8 with the bytes of the
store buffer over it, oldest first, which is what it reads once they have drained (R209). -/
def sramValue (v : Vol) (k a n : Nat) (sx : Bool) (buf : List StoreEnt) : Vol × TWord :=
  let w0 := a / 4 * 4
  let laid (x : Nat) (w : TWord) : TWord := buf.foldl (fun w e =>
    if e.addr = x then ⟨(w.data &&& ~~~e.mask) ||| (e.data &&& e.mask), Tag.raw⟩ else w) w
  let rd (v : Vol) (x : Nat) : Vol × TWord :=
    match place x with
    | some p => match sramRead v p.key k with
      | (v', some w) => (v', laid x (loadTag p w))
      | (v', none) => (v', laid x TWord.zero)
    | none => (v, TWord.zero)
  let r0 := rd v w0
  if a % 4 + n ≤ 4 then (r0.1, pickBytes r0.2 (a % 4) n sx)
  else
    let r1 := rd r0.1 (w0 + 4)
    let x := (r0.2.data.toNat + r1.2.data.toNat * 2 ^ 32) / 2 ^ (8 * (a % 4))
    (r1.1, pickBytes ⟨BitVec.ofNat 32 x, Tag.raw⟩ 0 n sx)

/-- Whether a word that n bytes from an address touch is uncorrectable (R104, R252). -/
def spanBad (v : Vol) (a n : Nat) : Bool :=
  let w0 := a / 4 * 4
  wordBad v v.free w0 || (decide (4 < a % 4 + n) && wordBad v (if 3 ≤ wrongBits v w0 then v.free + 2 else v.free) (w0 + 4))

/-- A load's replay reads memory again (R205) at its turn on a shared bank (R220). Of an uncorrectable word it raises SRAMUNC and stays a
record (R252, log entry 131). -/
def replayLoad (k : Nat) (acc : Vol × List Flight) (f : Flight) : Vol × List Flight :=
  let a := f.a.data.toNat
  let n := 2 ^ fld f.ctl 4 3
  match (if f.load then place a else none) with
  | none => (acc.1, acc.2 ++ [f])
  | some p =>
    let v := (sharedTurn acc.1 k p).1
    let bad := spanBad v a n
    let r := sramValue v k a n (bit f.ctl 5) (coreOf v k).sbuf
    let v := if bad then recordBus r.1 k 0 { cfault 0x10 f.lane f.port f.pc with addr := a, prec := true } else r.1
    (v, acc.2 ++ [{ f with b := if k = 8 then ⟨r.2.data, Tag.raw⟩ else r.2 }])

/-- The replays start with the bundle at EPC (R205): a replayed load reads memory again, a long operation starts anew, and in precise
mode issue waits for it (R148, R186). What the handler left in flight delivers as it would have (R125, R126). -/
def startReplays (v : Vol) (k : Nat) : Vol :=
  let c := coreOf v k
  if !c.restart then v
  else
    let r := c.recFl.foldl (replayLoad k) (v, [])
    let kinds := c.recLong.map fun l => l.kind
    onCore r.1 k fun c => { c with
      fl := c.fl ++ (r.2.map fun f => { f with again := true })
      long := c.long ++ c.recLong.map (fun l => { l with since := v.now, spent := 0 }), recFl := [], recLong := [], restart := false
      wait := if ctlBit v k 1 && !kinds.isEmpty then .op kinds else c.wait }

/-! ### The frame image (R200, R201) -/

/-- Control word bit 31 of a live record. -/
abbrev live (w : Nat) : TWord := ⟨BitVec.ofNat 32 (2 ^ 31 + w), Tag.raw⟩

/-- The operand and result ports in the image's order. -/
def imgOperands : List Nat := [32, 51, 68, 71, 74, 75, 76, 93, 94, 95, 97, 99, 100, 102]
def imgResults : List Nat := [32, 33, 34, 35, 36, 37, 38, 40, 41, 42, 43, 47]

/-- The 64 words of a core's frame image. -/
def frameImage (c : Core) : List TWord :=
  let raw (n : Nat) : TWord := ⟨BitVec.ofNat 32 n, Tag.raw⟩
  let bits (b : BitVec 128) : Nat := ((List.range 12).map fun i => b2n (b.getLsbD (imgResults.getD i 0)) * 2 ^ i).sum
  let muls := c.recFl.filter fun f => !f.load
  let lds := c.recFl.filter fun f => f.load
  let mulRec (i : Nat) : List TWord := match muls[i]? with
    | some f => [f.a, f.b, live (f.ctl.toNat % 8 + f.left)]
    | none => [TWord.zero, TWord.zero, TWord.zero]
  let ldRec (i : Nat) : List TWord := match lds[i]? with
    | some f => [f.a, live (f.ctl.toNat % 64 + f.left)]
    | none => [TWord.zero, TWord.zero]
  let divs := match c.recLong.filter fun l => l.kind == 0 with
    | l :: _ => [l.a, l.b, live (b2n l.uns)]
    | [] => [TWord.zero, TWord.zero, TWord.zero]
  let tbl := match c.recLong.filter fun l => l.kind != 0 with
    | l :: _ => [l.a, l.b, l.c, live l.kind]
    | [] => [TWord.zero, TWord.zero, TWord.zero, TWord.zero]
  let hld := match fheldAt c (xDepth c) with
    | some h => [raw h.addr, h.data, live (b2n h.done * 2 + h.resp.getD 0 % 8 * 4)]
    | none => [TWord.zero, TWord.zero, TWord.zero]
  (List.range 9).map (fun i => smapGet zeroT c.sys (0x48 + i)) ++ [raw (bits c.shValid + bits c.recPend * 65536)]
    ++ imgOperands.map (fun d => smapGet zeroT c.shadow d) ++ imgResults.map (fun s => smapGet zeroT c.shadow (128 + s))
    ++ (List.range 3).flatMap mulRec ++ (List.range 4).flatMap ldRec ++ divs ++ tbl ++ hld ++ [TWord.zero]

/-- Whether a frame image may lie at an address: 256-byte aligned in the core's own local SRAM (R200). -/
def imageOk (k a : Nat) : Bool :=
  a % 256 == 0 && (match place a with | some p => p.dom == 10 + k && p.win == .direct | none => false)

/-- `sys.w` to FSAVE (R200). -/
def frameSave (v : Vol) (k a : Nat) : Vol :=
  let c := coreOf v k
  if !imageOk k a || 4 ≤ xDepth c then onCore v k fun c => setXBit c 4 true
  else
    let put (acc : Vol × Nat) (w : TWord) : Vol × Nat :=
      (sramPut acc.1 acc.2 (if k = 8 then ⟨w.data, Tag.raw⟩ else w), acc.2 + 4)
    let v := ((frameImage c).foldl put (v, a)).1
    let c1 := setSys c 0x52 (putFld (sysW c 0x52) 3 1 (xDepth c + 1))
    setCore v k { setXBit c1 0 false with shstk := shPriv c :: c.shstk }

/-- The codes of ECAUSE.CODE and of a bus response that are not reserved (R16, R189); 0 stands before any exception. -/
def causeCodeOk (n : Nat) : Bool := decide (n ≤ 0x11) || (decide (0x20 ≤ n) && decide (n ≤ 0x22)) || n == 0x30
def respCodeOk (n : Nat) : Bool := decide (n ≤ 5)

/-- A write of ECAUSE or ESTAT by software: a field with a reserved code keeps its value, and STAT.RSVW sets (R14, R192, R214). -/
def frameReg (v : Vol) (k n : Nat) (w : Word) : Vol :=
  let old := sysW (coreOf v k) n
  let (x, bad) :=
    if n = 0x4A then
      let y := w &&& 0x7FFFFFFF
      let z := if causeCodeOk (fld y 5 0) then y else putFld y 5 0 (fld old 5 0)
      (if respCodeOk (fld y 21 19) then z else putFld z 21 19 (fld old 21 19), !causeCodeOk (fld y 5 0) || !respCodeOk (fld y 21 19))
    else
      let y := w &&& 0xBF
      (if fld y 2 1 = 3 then putFld y 2 1 (fld old 2 1) else y, fld y 2 1 == 3)
  let v := onCore v k fun c => setSys c n x
  if bad then rgOr v (aStat (pCore k)) (bitWord 30) else v

/-- The words of a frame image are read through their check bits (R252). -/
def imageRead (v : Vol) (k a : Nat) : Vol × List TWord :=
  (List.range 63).foldl (fun acc i =>
    let r := sramRead acc.1 (a + 4 * i) k
    (r.1, acc.2 ++ [loadTag ⟨0, .direct, 0, k != 8⟩ (r.2.getD TWord.zero)])) (v, [])

/-- `sys.w` to FRESTORE (R200, R201). An access in the frame that is live stays; one that the image alone holds has the image's
data (log entry 18). -/
def frameRestore (v : Vol) (k a : Nat) : Vol :=
  if !imageOk k a || xDepth (coreOf v k) = 0 then onCore v k fun c => setXBit c 4 true
  else
    let (v, ws) := imageRead v k a
    let w (i : Nat) : TWord := ws.getD i TWord.zero
    let d (i : Nat) : Word := (w i).data
    let v := frameReg (frameReg v k 0x4A (d 2)) k 0x4B (d 3)
    let c := coreOf v k
    let c1 := (List.range 5).foldl (fun c i => setSys c (0x4C + i) (d (4 + i))) c
    let c1 := setSys (setSys c1 0x48 (d 0 &&& 0xFFFFFFF0)) 0x49 (d 1 &&& 0xFFFFFFF0)
    let ports := (List.range 14).foldl (fun m i => smapSet zeroT m (imgOperands.getD i 0) (w (10 + i))) []
    let ports := (List.range 12).foldl (fun m i => smapSet zeroT m (128 + imgResults.getD i 0) (w (24 + i))) ports
    let ids (lo : Nat) : BitVec 128 := portBits ((List.range 12).filterMap fun i => if bit (d 9) (lo + i) then some (imgResults.getD i 0) else none)
    let tpc := Config.lostTrigger v.free
    let lane := Config.lostTrigger (v.free + 1) % 8
    let v := nextFree (nextFree v)
    let dep := xDepth c - 1
    let muls := (List.range 3).filterMap fun i =>
      let ct := d (38 + 3 * i)
      if bit ct 31 then some (⟨false, w (36 + 3 * i), w (37 + 3 * i), ct &&& 4, fld ct 1 0, tpc, lane,
        if bit ct 2 then 70 else 69, false⟩ : Flight) else none
    let lds := (List.range 4).filterMap fun i =>
      let ct := d (46 + 2 * i)
      if bit ct 31 then some (⟨true, w (45 + 2 * i), TWord.zero, ct &&& 0x38, fld ct 2 0, tpc, lane,
        79 - fld ct 4 3, false⟩ : Flight) else none
    let dv : List LongOp := if bit (d 55) 31 then
      [⟨0, w 53, w 54, TWord.zero, bit (d 55) 0, tpc, lane, if bit (d 55) 0 then 73 else 72, 0, 0⟩] else []
    let tb : List LongOp := if bit (d 59) 31 && fld (d 59) 1 0 != 0 then
      [⟨fld (d 59) 1 0, w 56, w 57, w 58, false, tpc, lane,
        if fld (d 59) 1 0 = 1 then 98 else if fld (d 59) 1 0 = 2 then 101 else 96, 0, 0⟩] else []
    let mine : Option Held := match fheldAt c dep with
      | some h => some h
      | none => if bit (d 62) 31 then
          some ⟨false, 4, (d 60).toNat, w 61, false, tpc, lane, 77,
            if fld (d 62) 4 2 = 0 then none else some (fld (d 62) 4 2), true, none, false⟩
        else none
    let others := c.fheld.filter fun p => decide (p.1 < dep) || (p.1 != dep && !p.2.done)
    let c1 := setSys c1 0x52 (putFld (sysW c 0x52) 3 1 dep)
    let c1 := setXBit (setXBit c1 5 (c.shstk.headD false)) 0 true
    setCore v k { c1 with shadow := ports, shValid := ids 0, recPend := ids 16, recFl := muls ++ lds, recLong := dv ++ tb
                          fheld := (mine.toList.map fun h => (dep, h)) ++ others, shstk := c.shstk.tail, retq := none }

/-! ### Sys registers (R118, R119, R191) -/

/-- Whether a `sys.w` of x or a `sys.r` of a number is allowed (R119). ICTL on a control core is a register of reserved bits (log
entry 101). -/
def sysOk (num : Nat) (write : Bool) (x : Word) : Bool :=
  if num = 0 ∨ num = 0x40 then true
  else if num ≤ 4 then !write
  else if num = 0x41 ∨ num = 0x43 then true
  else if num = 0x42 ∨ num = 0x44 then !write || (1 ≤ fld x 16 0 && fld x 16 0 ≤ 65536)
  else if num = 0x45 then !write || fld x 1 0 != 3
  else if num = 0x46 then !write || decide (fld x 8 4 ≤ 16)
  else if num = 0x52 then !write
  else if num = 0x54 ∨ num = 0x55 then write
  else (0x48 ≤ num && num ≤ 0x57) || (0x60 ≤ num && num ≤ 0x6F)

/-- The value of a sys register in `sys.q`, RAW (R97, R118, R191). -/
def sysRead (v : Vol) (k num : Nat) : TWord :=
  let c := coreOf v k
  let raw (n : Nat) : TWord := ⟨BitVec.ofNat 32 n, Tag.raw⟩
  if num = 1 then raw (if k = 8 then v.now else tickCyc v)
  else if num = 2 then ⟨v.tick.number.setWidth 32, Tag.raw⟩
  else if num = 3 then raw (loopLevels c)
  else if num = 4 then raw (fld (sysW c 0x46) 8 4)
  else ⟨sysW c num, Tag.raw⟩

/-- The bits a stored sys register keeps; the start of a loop body keeps no bits [3:0], which name no bundle (log entry 101). -/
def sysMask (k num : Nat) : Word :=
  if num = 0 then 0xF
  else if num = 0x41 ∨ num = 0x43 ∨ num = 0x48 ∨ num = 0x49 ∨ num = 0x51 then 0xFFFFFFF0
  else if num = 0x42 ∨ num = 0x44 then 0x1FFFF
  else if num = 0x45 then 3
  else if num = 0x46 then 0x1FF
  else if num = 0x53 then (if k = 8 then 1 else 0)
  else 0xFFFFFFFF

/-- `sys.w` (R118-R120, R181, R191, R192, R196, R200). -/
def sysWrite (v : Vol) (k num : Nat) (x : TWord) : Vol :=
  let c := coreOf v k
  let d := x.data &&& sysMask k num
  if num = 0x40 then setCore v k { c with modeChg := some (1, bit x.data 0) }
  else if num = 0x51 then setCore v k { c with evecNew := some d.toNat }
  else if num = 0x54 then frameSave v k x.data.toNat
  else if num = 0x55 then frameRestore v k x.data.toNat
  else if num = 0x4A ∨ num = 0x4B then frameReg v k num x.data
  else if num = 0x56 ∨ num = 0x57 then setCore v k (setSysT c num (if k = 8 then ⟨x.data, Tag.raw⟩ else x))
  else
    let c1 := setSys c num d
    let cold : BitVec 2 := if num = 0x41 ∨ num = 0x42 then 1 else if num = 0x43 ∨ num = 0x44 then 2 else if num = 0x45 then 3 else 0
    setCore v k { c1 with lpCold := c1.lpCold ||| cold }

end Sys2Proof.Machine
end

