-- ==== Sys2Proof/Machine/StageOps.lean ====
section
/-! DEFINITION. The output channels as words (R360-R363): their staging registers, owners, commits, the copy at a boundary
and the check of a new active word. -/

namespace Sys2Proof.Machine

/-- A setting in force (R631). -/
def fg (v : Vol) (a : Nat) : Word := smapGet regReset v.outs.force a
def ff (v : Vol) (a hi lo : Nat) : Nat := fld (fg v a) hi lo

/-- Whether a register takes effect at the next boundary (R631, R361, R377). -/
def isForceReg (a : Nat) : Bool :=
  let p := (a - 0x40000000) / 0x1000
  let o := a % 0x1000
  decide (0x40000000 ≤ a) &&
    (if p = pStk then o < 0x050 || (0x050 ≤ o && o < 0x05C) || (0x070 ≤ o && o < 0x090) || o = 0x0B0 || o = 0x0B4 || o = 0x0BC
        || (0x100 ≤ o && o < 0x400)
      else if p = pStk + 1 then o = 0x368 || o = 0x36C
      else if pMot 0 ≤ p ∧ p ≤ pMot 7 then 0x040 ≤ o && o < 0x050
      else if pVlv 0 ≤ p ∧ p ≤ pVlv 1 then o = 0x040 || (0x080 ≤ o && o < 0x180)
      else if p = pGio then (0x080 ≤ o && o < 0x180) || (0x280 ≤ o && o < 0x2C0)
      else false)

/-- The page of the block of a channel word. -/
def outPage (i : Nat) : Nat :=
  if i < 64 then pStk else if i < 96 then pMot ((i - 64) / 4) else if i < 144 then pVlv ((i - 96) / 24) else pGio

/-- The class of a channel word, as the bits of SYS_SVCPROF (R561). -/
def outClass (i : Nat) : Nat := if i < 64 then 0 else if i < 96 then 1 else if i < 144 then 2 else 3

/-- Settings addresses. -/
abbrev aStkCfg (c : Nat) : Nat := ra pStk (0x100 + 4 * c)
abbrev aStkTim (c : Nat) : Nat := ra pStk (0x200 + 4 * c)
abbrev aStkSafe (c : Nat) : Nat := ra pStk (0x300 + 4 * c)
abbrev aStk1 (off : Nat) : Nat := ra (pStk + 1) off
abbrev aMot (m off : Nat) : Nat := ra (pMot m) off
abbrev aVlv (x off : Nat) : Nat := ra (pVlv (x / 24)) (off + 4 * (x % 24))
abbrev aPin (n : Nat) : Nat := ra pGio (0x080 + 4 * n)

/-- Entry k of a GIO_FCSEL or GIO_EVSEL word: EN, EDGE, PIN (R401). -/
def pinEntry (w : Word) (i : Nat) : Bool × Nat × Nat :=
  (bit w (10 * i + 9), fld w (10 * i + 8) (10 * i + 7), fld w (10 * i + 5) (10 * i))

/-- The flow counter's selection in force. -/
def flowSel (v : Vol) (k : Nat) : Bool × Nat × Nat := pinEntry (fg v (ra pGio (0x280 + 4 * (k / 3)))) (k % 3)

/-- The owner of a channel word, in force (R361): a flow counter's clear belongs to the owner of its pin. -/
def outOwner (v : Vol) (i : Nat) : Nat :=
  if i < 64 then ff v (aStkCfg i) 31 28
  else if i < 96 then ff v (aMot ((i - 64) / 4) 0x040) 31 28
  else if i < 144 then ff v (aVlv (i - 96) 0x080) 31 28
  else if i < 208 then ff v (aPin (i - 144)) 31 28
  else ff v (aPin (flowSel v (i - 208)).2.2) 31 28

/-- The words of all channels: 48 flow-counter clears end at 256. -/
def outWords : List Nat := List.range 256

/-! ### Staging registers (R362, R401) -/

/-- The channel word, or the first of them, that the staging register at an address holds; none elsewhere. -/
def stageChan (a : Nat) : Option Nat :=
  if a < 0x40000000 then none
  else
    let p := (a - 0x40000000) / 0x1000
    let o := a % 0x1000
    if a % 4 ≠ 0 then none
    else if p = pStk + 1 then (if 0x040 ≤ o ∧ o < 0x140 then some ((o - 0x040) / 4) else none)
    else if pMot 0 ≤ p ∧ p ≤ pMot 7 then (if 0x050 ≤ o ∧ o < 0x060 then some (64 + 4 * (p - pMot 0) + (o - 0x050) / 4) else none)
    else if pVlv 0 ≤ p ∧ p ≤ pVlv 1 then (if 0x180 ≤ o ∧ o < 0x1E0 then some (96 + 24 * (p - pVlv 0) + (o - 0x180) / 4) else none)
    else if p = pGio then
      (if 0x050 ≤ o ∧ o < 0x058 then some (208 + 32 * ((o - 0x050) / 4))
        else if 0x058 ≤ o ∧ o < 0x060 then some (144 + 32 * ((o - 0x058) / 4))
        else if 0x180 ≤ o ∧ o < 0x280 then some (144 + (o - 0x180) / 4)
        else none)
    else none

/-- How many channel words a staging register spreads over: 32 for GIO_OUTW, and the counters of GIO_FCCLR. -/
def stageWide (a : Nat) : Nat :=
  let o := a % 0x1000
  if (a - 0x40000000) / 0x1000 = pGio ∧ o < 0x080 then (if o = 0x054 then 16 else 32) else 1

def pendOf (v : Vol) (i : Nat) : TWord := smapGet sramBlank v.outs.pend i
def commOf (v : Vol) (i : Nat) : TWord := smapGet sramBlank v.outs.comm i
def actOf (v : Vol) (i : Nat) : TWord := smapGet sramBlank v.outs.act i
def setPend (v : Vol) (i : Nat) (w : TWord) : Vol :=
  { v with outs := { v.outs with pend := smapSet sramBlank v.outs.pend i w } }

/-- A staging register as read (R362): the pending copy; GIO_OUTW gathers the pins' data with tag RAW (R401), GIO_FCCLR the
clear bits with the tag of its first counter. -/
def stageRead (v : Vol) (a : Nat) : TWord :=
  match stageChan a with
  | none => TWord.zero
  | some i =>
    if stageWide a = 1 then pendOf v i
    else
      let d := ((List.range (stageWide a)).map fun j => b2n ((pendOf v (i + j)).data != 0) * 2 ^ j).sum
      ⟨BitVec.ofNat 32 d, if a % 0x1000 < 0x058 then (pendOf v i).tag else Tag.raw⟩

/-- A write of a staging register (R362): at its own offset data and, from a control core, the tag; through an alias data
bits alone. -/
def stageWrite (v : Vol) (m a : Nat) (via : Via) (w : TWord) : Vol :=
  match stageChan a with
  | none => v
  | some i =>
    let t : Tag := if m < 8 then w.tag else Tag.raw
    if stageWide a = 1 then
      let old := pendOf v i
      match via with
      | .direct => setPend v i ⟨w.data, t⟩
      | .setBits => setPend v i ⟨old.data ||| w.data, old.tag⟩
      | .clearBits => setPend v i ⟨old.data &&& ~~~w.data, old.tag⟩
    else
      (List.range (stageWide a)).foldl (fun v j =>
        let old := pendOf v (i + j)
        match via with
        | .direct => setPend v (i + j) ⟨if bit w.data j then 1 else 0, t⟩
        | .setBits => if bit w.data j then setPend v (i + j) ⟨1, old.tag⟩ else v
        | .clearBits => if bit w.data j then setPend v (i + j) ⟨0, old.tag⟩ else v) v

/-! ### Commits (R62-R66, R72) -/

/-- Pending copies to committed, for the channels of one owner (R62, R65). -/
def commitWords (v : Vol) (k : Nat) : Vol :=
  outWords.foldl (fun v i =>
    if outOwner v i = k then { v with outs := { v.outs with comm := smapSet sramBlank v.outs.comm i (pendOf v i) } } else v) v

/-- Whether core k has committed in this tick. -/
def hasCommitted (v : Vol) (k : Nat) : Bool := (smapFind v.tick.commits k).isSome

/-- Whether core k counts as having committed at the boundary (R74): one that is in reset, down or in a handler does not. Every
active handler counts as one 'for another fault', that of a Kerf overrun, a trap or an interrupt too (DESIGN CHOICE, log entry
121). -/
def countsCommitted (v : Vol) (k : Nat) : Bool := hasCommitted v k && coreUp v k && !xActive (coreOf v k)

/-- `cu.commit` (R62, R64): the first in a tick commits; a second sets DBLCOMMIT and raises TICK event 9. -/
def commitCore (v : Vol) (k : Nat) : Vol :=
  if hasCommitted v k then raiseEvent (setFault v pTick k) pTick 9
  else
    let v := commitWords v k
    { v with tick := { v.tick with commits := smapPut v.tick.commits k (tickCyc v) } }

/-- The service core's commit (R65). -/
def commitService (v : Vol) : Vol :=
  let v := commitWords v 8
  { v with tick := { v.tick with svcCommit := true } }

/-- An overrun discards the pending copies of core k (R72 step 1): pending and committed copies take the value in force, so what a
core committed that counts as not committed (R74) goes too. -/
def discardPending (v : Vol) (k : Nat) : Vol :=
  outWords.foldl (fun v i =>
    if outOwner v i = k then
      (let w := actOf v i
       let v := setPend v i w
       { v with outs := { v.outs with comm := smapSet sramBlank v.outs.comm i w } })
    else v) v

/-! ### The check of a word (R363, R371, R385) -/

/-- Whether a channel word carries a tag of the accepted list (R360). -/
def wordTagOk (i : Nat) (t : Tag) : Bool :=
  if t == Tag.raw then true
  else if i < 64 then t == Tag.frac || t == Tag.power
  else if i < 96 ∧ (i - 64) % 4 < 3 then t == Tag.frac || t == Tag.count
  else t == Tag.state || t == Tag.count

/-- Whether a firing word is a power (R360, R371). -/
def firePower (v : Vol) (c : Nat) (w : TWord) : Bool :=
  w.tag == Tag.power || (w.tag == Tag.raw && bit (fg v (aStkCfg c)) 21)

/-- The nominal voltage of the phase of channel c. -/
def fireVnom (v : Vol) (c : Nat) : Nat := ff v (ra pStk (0x080 + 4 * ff v (aStkCfg c) 27 26)) 15 0

/-- Whether a channel word is accepted, POISON aside (R363): its tag, a power needs a nominal voltage, a run state is 0 to
2. -/
def wordOk (v : Vol) (i : Nat) (w : TWord) : Bool :=
  wordTagOk i w.tag &&
    (if i < 64 then !firePower v i w || fireVnom v i != 0
      else if i < 96 ∧ (i - 64) % 4 = 3 then decide (w.data.toNat ≤ 2)
      else true)

/-- The channel event of a rejected word (R363, R397, R399, R400, R394). -/
def channelEvent (v : Vol) (i : Nat) : Vol :=
  if i < 64 then
    let a := aStk1 (0x348 + 4 * (i / 32))
    if rb v a (i % 32) then v else raiseEvent (rbSet v a (i % 32) true) pStk 0
  else if i < 144 then raiseEvent v (outPage i) 0
  else raiseEvent v pGio 14

def isBad (v : Vol) (i : Nat) : Bool := smapGet noErr v.outs.bad i != 0
def freshOf (v : Vol) (i : Nat) : Nat := smapGet noErr v.outs.fresh i

/-- Check the active word of a channel: a rejected word sets the flag, TAGERR unless it is POISON, and the channel event. -/
def checkWord (v : Vol) (i : Nat) : Vol :=
  let w := actOf v i
  let bad := w.isPoison || !wordOk v i w
  let v := { v with outs := { v.outs with bad := smapSet noErr v.outs.bad i (b2n bad) } }
  let v := if bad && !w.isPoison then setFault v (outPage i) 0 else v
  if bad then channelEvent v i else v

/-- Whether the cut of an attach ends at this boundary P (R430): no word is marked and every cut word is acknowledged. -/
def cutEnds (v : Vol) : Bool :=
  v.yok.attPh == 4 && v.yok.role == 1 && v.yok.dirty.isEmpty && (v.yok.cutAcks.map fun a => a.2).sum == v.yok.cutSent

/-- Whether every output holds its active value at this boundary: within the pause of a cut (R431) or of an activation (R508); the
boundary that ends the pause copies again. -/
def outsHeld (v : Vol) : Bool :=
  (v.yok.pause && v.yok.attPh == 4 && !cutEnds v) || (v.lks.pauseAt.isSome && !v.lks.resumeDue)

/-- Whether the boundary copies the words of an owner (R62, R63, R65): it committed in the tick that ends. -/
def wordDue (v : Vol) (k : Nat) : Bool :=
  !outsHeld v && ((k < 8 && countsCommitted v k) || (k == 8 && v.tick.svcCommit))

/-- The boundary's copy of one word (R40, R63, R363): committed to active when its owner committed in the tick that ends;
`owners` as they stood in that tick. Answers whether the word changed. -/
def copyWord (owners : Nat → Nat) (v : Vol) (i : Nat) : Vol × Bool :=
  if wordDue v (owners i) && ready v (outPage i) && (commOf v i != actOf v i || freshOf v i != 0) then
    let v := { v with outs := { v.outs with
      act := smapSet sramBlank v.outs.act i (commOf v i), fresh := smapSet noErr v.outs.fresh i 0 } }
    (checkWord v i, true)
  else (v, false)

/-- Whether a channel word keeps its safe value: rejected, or cleared by an exit from SAFE (R363, R558). -/
def wordSafe (v : Vol) (i : Nat) : Bool := isBad v i || freshOf v i == 1

/-- Whether the outputs of a class follow their commits in the mode in force (R552, R559). -/
def follows (v : Vol) (cls : Nat) : Bool :=
  match v.sys.mode with
  | .run | .warm | .shadow => true
  | .service => bit v.sys.svcProf cls
  | .cold | .reset | .banked | .safe => false

end Sys2Proof.Machine
end

