-- ==== Sys2Proof/Machine/CoreIssue.lean ====
section
/-! DEFINITION. Issue: what each trigger port starts, the checks before a bundle issues (R170, R190, R223), the holds
(R127, R148, R205, R209) and the issue of one bundle (R79-R123). -/

namespace Sys2Proof.Machine

/-- A word as a core holds it: Ozhan-S has no tags. -/
def untag (k : Nat) (w : TWord) : TWord := if k = 8 then ⟨w.data, Tag.raw⟩ else w

/-- A word of core k's own local SRAM, direct window, as a table reads it (R150). -/
def tableRd (v : Vol) (k h : Nat) (i : Nat) : Option Word :=
  if h % 4 ≠ 0 then none
  else
    match place (h + 4 * i) with
    | some p => if p.dom = 10 + k ∧ p.win = .direct then some (sramWord v p.key).data else none
    | none => none

/-- A reader of a table of which the words given have been read (R151, R160). -/
def tableOf (v : Vol) (k h : Nat) (ws : SMap Word) (i : Nat) : Option Word :=
  match smapFind ws i with
  | some w => some w
  | none => tableRd v k h i

/-- The words of a table that core k's unit reads, in stages that depend on the words before, through their check bits (R252): the
state, the words and the first one that is uncorrectable. -/
def tableWords (v : Vol) (k h : Nat) (needs : (Nat → Option Word) → Nat → List Nat) : Vol × SMap Word × Option Nat :=
  let one (acc : Vol × SMap Word × Option Nat) (i : Nat) : Vol × SMap Word × Option Nat :=
    if acc.2.2.isSome || (smapFind acc.2.1 i).isSome || (tableRd acc.1 k h i).isNone then acc
    else
      match sramRead acc.1 (h + 4 * i) k with
      | (v, some w) => (v, smapPut acc.2.1 i w.data, none)
      | (v, none) => (v, acc.2.1, some i)
  [0, 1, 2].foldl (fun acc s => (needs (tableOf acc.1 k h acc.2.1) s).foldl one acc) (v, [], none)

/-! ### Loads and stores (R100-R104, R137, R208, R209) -/

/-- Whether core k reaches an address in SRAM without a held access: own local or shared SRAM, direct window, up. -/
def fastPlace (v : Vol) (k a : Nat) : Option Place :=
  match place a with
  | some p => if p.win = .direct ∧ (p.dom = 10 + k ∨ 81 ≤ p.dom) ∧ domUp v p.dom ∧ !wiping v p.dom then some p else none
  | none => none

/-- Whether an address is in a tagged target (R102, R103). -/
def taggedTarget (a : Nat) : Bool :=
  (match place a with | some p => p.win == .direct && p.tagged | none => false) || (stageChan (a - a % 4)).isSome

/-- The access that a load or store trigger d with value a makes: address, new base and size. -/
def lsuForm (c : Core) (d : Nat) (a : TWord) : Nat × TWord × Nat :=
  let base := if isLoad d then a else opnd c 74
  let r := lsuAddr (opnd c 76).data (opnd c 75).data base.data
  (r.1.toNat, ⟨r.2, base.tag⟩, lsuSize d)

/-- The bytes of a buffered store that a load covers or touches (R209). -/
def entTouch (e : StoreEnt) (a n : Nat) : Bool :=
  (List.range n).any fun i => (a + i) / 4 * 4 == e.addr && bit e.mask (8 * ((a + i) % 4))
def entCover (e : StoreEnt) (a n : Nat) : Bool :=
  (List.range n).all fun i => (a + i) / 4 * 4 == e.addr && bit e.mask (8 * ((a + i) % 4))

/-- Whether an address lies in a direct window of SRAM. -/
def inDirect (a : Nat) : Bool := match place a with | some p => p.win == .direct | none => false

/-- Whether n bytes from an address are reached without a held access: each word of them (R104, R255). -/
def fastSpan (v : Vol) (k a n : Nat) : Option Place :=
  if a % 4 + n ≤ 4 ∨ (fastPlace v k ((a / 4 * 4 + 4) % 2 ^ 32)).isSome then fastPlace v k a else none

/-- Whether a load of core 8 waits for its store buffer (R209). -/
def loadHolds (c : Core) (a n : Nat) : Bool :=
  if !inDirect a then !c.sbuf.isEmpty
  else c.sbuf.any fun e => entTouch e a n && !entCover e a n

/-- The value of a fast load (R102, R104, R252): a word, or two words of service-core SRAM. -/
def fastLoad (v : Vol) (k a n : Nat) (sx : Bool) : Vol × TWord := sramValue v k a n sx []

/-- A request of a core leaves for a register page: a closing gate stays open, a closed one opens (R286). -/
def issueGate (v : Vol) (a : Nat) : Vol :=
  let p := (a - 0x40000000) / 0x1000
  if 0x40000000 ≤ a && (match pageInfo p with | some inf => domUp v inf.dom | none => false) then gateOpened v p else v

/-- A load or store trigger (R101, R102, R137): the base moves at once; a fast load is in flight, a fast store is made,
an Ozhan-S store enters the buffer, any other access is held. -/
def trigLsu (v : Vol) (k lane d : Nat) (a : TWord) : Vol :=
  let c := coreOf v k
  let pc := curBundle v k
  let (ad, nb, n) := lsuForm c d a
  let sx := bit (opnd c 76).data 4
  let c := { c with port := smapSet zeroT c.port 74 nb }
  let v := setCore v k c
  let hold (w : Bool) (dat : TWord) (fwd : Option TWord) : Vol :=
    issueGate (setCore v k { c with held := some ⟨w, n, ad, dat, sx, pc, lane, d, none, false, fwd, false⟩ }) ad
  let fly (p : Place) (x : TWord) (c : Core) : Core :=
    { c with fl := c.fl ++ [⟨true, ⟨BitVec.ofNat 32 ad, Tag.raw⟩, x, BitVec.ofNat 32 (b2n sx * 32 + (if n = 4 then 2 else n - 1) * 8),
        if p.dom = 10 + k then 2 else 4, pc, lane, d, false⟩] }
  if isLoad d then
    match (c.sbuf.reverse.find? fun e => entCover e ad n), fastSpan v k ad n with
    | some e, some p => setCore v k (fly p (pickBytes ⟨e.data, Tag.raw⟩ (ad % 4) n sx) c)
    | none, some p =>
      let (v, x) := fastLoad (sharedTurn v k p).1 k ad n sx
      onCore v k (fly p (untag k x))
    | some e, none => hold false TWord.zero (some (pickBytes ⟨e.data, Tag.raw⟩ (ad % 4) n sx))
    | none, none => hold false TWord.zero none
  else if k = 8 then
    let all := a.data.toNat % 2 ^ (8 * n) * 2 ^ (8 * (ad % 4))
    let m := (2 ^ (8 * n) - 1) * 2 ^ (8 * (ad % 4))
    let ent (i : Nat) (half : Bool) : StoreEnt :=
      ⟨(ad / 4 * 4 + 4 * i) % 2 ^ 32, BitVec.ofNat 32 (m / 2 ^ (32 * i)), BitVec.ofNat 32 (all / 2 ^ (32 * i)), half, pc, lane, d⟩
    let es := if ad % 4 + n ≤ 4 then [ent 0 false] else [ent 0 false, ent 1 true]
    setCore v k { c with sbuf := c.sbuf ++ es }
  else
    match fastPlace v k ad with
    | none =>
      let v' := hold true a none
      if !taggedTarget ad && a.isPoison then onCore v' k fun c => orFlags c flPZ else v'
    | some p =>
      let mask := byteMask (ad % 4) n
      let w : TWord := ⟨a.data <<< (8 * (ad % 4)), a.tag⟩
      let v := if p.dom = 10 + k then
          setCore v k { c with last := some ⟨v.now, ad / 4 % 8, pc, lane, d⟩ }
        else (sharedTurn v k p).1
      match sramStore v k n ad p mask w with
      | (some v', _) => v'
      | (none, v') => recordBus v' k 0 { cfault 0x0F lane d pc with addr := ad, resp := 2 }

/-! ### Triggers -/

/-- The ALU operation of a destination ID (R96). -/
def aluOfDst (d : Nat) : Alu :=
  let i := if d ≤ 50 then d - 33 else d - 52
  ([.add, .sub, .adds, .subs, .and, .or, .xor, .shl, .shr, .sar, .rol, .min, .max, .ceq, .clt, .cltu, .tset, .tchk].getD i .add)

/-- The result of an ALU trigger (R130-R132, R142-R144, R147): result port, flags, and a tag fault recorded. -/
def trigAlu (v : Vol) (k lane d : Nat) (a : TWord) : Vol :=
  onCore v k fun c =>
    let u1 := decide (51 < d)
    let r := aluOp (aluOfDst d) a (opnd c (if u1 then 51 else 32))
    let c := orFlags (setRes c (if u1 then 33 else 32) r.r0) r.flags
    if r.tagf then { c with impr := c.impr ++ [cfault 0x20 lane d (curBundle v k)] } else c

/-- Start a long operation; in precise mode issue waits for it (R126, R148). -/
def startLong (v : Vol) (k : Nat) (l : LongOp) : Vol :=
  onCore v k fun c => { c with long := c.long ++ [l], wait := if ctlBit v k 1 then .op (l.kind :: (match c.wait with | .op ks => ks | _ => [])) else c.wait }

/-- A control transfer toward a target: two delay slots follow (R105). -/
def startTransfer (v : Vol) (k target : Nat) (rx : Bool) : Vol :=
  onCore v k fun c => { c with ds := some (target / 16 * 16, 2), dsAt := v.now, rx := rx }

/-- What a trigger port does with value a, its unit's operand ports as they stand (R96). The bundle at CORE_PC is the
trigger's. -/
def trig (v : Vol) (k lane d : Nat) (a : TWord) : Vol :=
  let c := coreOf v k
  let pc := curBundle v k
  match trigUnit d with
  | some .alu0 | some .alu1 => trigAlu v k lane d a
  | some .mul =>
    setCore v k { c with fl := c.fl ++ [⟨false, a, opnd c 68, if d = 70 then 4 else 0, 3, pc, lane, d, false⟩] }
  | some .div => startLong v k ⟨0, a, opnd c 71, TWord.zero, d == 73, pc, lane, d, v.now, 0⟩
  | some .itp => startLong v k ⟨1, a, opnd c 97, TWord.zero, false, pc, lane, d, v.now, 0⟩
  | some .seq => startLong v k ⟨2, a, opnd c 99, opnd c 100, false, pc, lane, d, v.now, 0⟩
  | some .rep => startLong v k ⟨3, a, TWord.zero, a, false, pc, lane, d, v.now, 0⟩
  | some .lsu => trigLsu v k lane d a
  | some .sys =>
    let n := (opnd c 102).data.toNat
    if d = 103 then sysWrite v k n a else onCore v k fun c => setRes c 47 (sysRead v k n)
  | some .lp =>
    let n := loopLevels c
    if d = 91 then
      let cnt := a.data.toNat % 65536
      let c1 := setSys c (0x41 + 2 * n) (BitVec.ofNat 32 (pc + 16))
      let c1 := setSys c1 (0x42 + 2 * n) (BitVec.ofNat 32 (if cnt = 0 then 65536 else cnt))
      setCore v k { setSys c1 0x45 (BitVec.ofNat 32 (n + 1)) with lpCold := c1.lpCold &&& ~~~(BitVec.ofNat 2 (2 ^ n)) }
    else setCore v k (setSys c 0x45 (BitVec.ofNat 32 (n - 1)))
  | some .cu =>
    if d = 83 then startTransfer v k a.data.toNat false
    else if d = 84 then startTransfer (setCore v k (rsPush c (pc + 48))) k a.data.toNat false
    else if d = 85 then startTransfer (setCore v k (rsPop c).1) k (rsPop c).2 false
    else if d = 86 then startTransfer v k (sysW c 0x48).toNat true
    else if d = 87 then
      (if c.long.isEmpty && c.sbuf.isEmpty then v else setCore v k { c with wait := .fence })
    else if d = 88 then setCore v k { c with wait := if k = 8 then .wfi else .wft }
    else if d = 89 then commitCore v k
    else setCore v k { c with trapNo := some (a.data.toNat % 256) }
  | none => v

/-! ### Holds and checks -/

/-- Whether a trigger waits for a unit, the local SRAM port, the store buffer (R127, R208-R210), the response that a return
brings (R205) or, at a commit, the acceptance of the core's stores to its staging (R110). -/
def trigHolds (k d : Nat) (a : TWord) (c : Core) : Bool :=
  let tbl := c.long.any fun l => l.kind != 0
  match trigUnit d with
  | some .div => c.long.any fun l => l.kind == 0
  | some .itp | some .seq | some .rep => tbl
  | some .lsu =>
    let (ad, _, n) := lsuForm c d a
    (tbl && ownSram k ad) ||
      (k == 8 && (if isLoad d then loadHolds c ad n
        else decide (4 < c.sbuf.length + (if ad % 4 + n ≤ 4 then 1 else 2))))
  | some .cu => (d == 86 && (match fheldAt c (xDepth c) with | some h => !h.done | none => false))
      || (d == 88 && k == 8 && !c.sbuf.isEmpty)
      || (d == 89 && (heldOf c).any fun h => h.write && (stageChan (h.addr - h.addr % 4)).isSome)
  | some .alu0 | some .alu1 | some .mul | some .lp | some .sys | none => false

/-- RSVOP of an executed trigger: `lsu.m`, the rep control word and sys numbers at use (R100, R116, R119). -/
def trigReserved (d : Nat) (a : TWord) (c : Core) : Bool :=
  match trigUnit d with
  | some .lsu => fld (opnd c 76).data 31 5 != 0
  | some .rep => fld a.data 31 4 != 0 || fld a.data 3 2 == 3
  | some .sys => !sysOk (opnd c 102).data.toNat (d == 103) a.data
  | some .alu0 | some .alu1 | some .mul | some .div | some .itp | some .seq | some .lp | some .cu | none => false

/-- The privilege check (R121). -/
def trigPriv (d : Nat) (c : Core) : Bool :=
  userMode c && (d == 86 || ((d == 103 || d == 104) && decide (0x40 ≤ (opnd c 102).data.toNat)))

/-- The poisoned-control check of one destination (R98). -/
def movePoison (d : Nat) (a : TWord) (c : Core) : Bool :=
  (isControl d && a.isPoison) || (80 ≤ d && d ≤ 82 &&
    ((opnd c 74).isPoison || ((opnd c 75).isPoison && decide (2 ≤ fld (opnd c 76).data 1 0))))

/-- The return-stack and loop traps (R109, R112). -/
def trigStack (v : Vol) (k d : Nat) (c : Core) : Option Nat :=
  let dep := fld (sysW c 0x46) 8 4
  if d = 84 ∧ ctlBit v k 0 ∧ dep = 16 then some 8
  else if d = 85 ∧ ctlBit v k 0 ∧ dep = 0 then some 9
  else if d = 91 ∧ loopLevels c = 2 then some 10
  else none

/-- BANK, ALIGN and SRAMUNC of an executed load or store (R103, R218, R252): the store that occupies the bank issued in the
cycle before. -/
def lsuFault (v : Vol) (k lane d : Nat) (a : TWord) (c : Core) (pc : Nat) : Option CFault :=
  if trigUnit d ≠ some .lsu then none
  else
    let (ad, _, n) := lsuForm c d a
    let f (code : Nat) : CFault := { cfault code lane d pc with addr := ad }
    let own := k < 8 && (match fastPlace v k ad with | some p => p.dom == 10 + k | none => false)
    let clash := match c.last with
      | some l => if own && (isLoad d || n < 4) && l.bank == ad / 4 % 8 && decide (v.now ≤ l.cyc + cclkDiv v) then some l else none
      | none => none
    match clash with
    | some l => some { f 0x0B with opc := l.pc, oinfo := l.port * 512 + l.lane * 64 + 1 }
    | none =>
      if taggedTarget ad && 4 < ad % 4 + n then some (f 0x0C)
      else if isLoad d && (fastSpan v k ad n).isSome && (c.sbuf.find? fun e => entCover e ad n).isNone && spanBad v ad n then
        some (f 0x10)
      else none

/-- SRAMUNC of a `sys.w` to FRESTORE: an image word is uncorrectable (R200, R252). -/
def imageFault (v : Vol) (k lane d : Nat) (a : TWord) (c : Core) (pc : Nat) : Option CFault :=
  let b := a.data.toNat
  if d ≠ 103 ∨ (opnd c 102).data ≠ 0x55 ∨ !imageOk k b ∨ xDepth c = 0 then none
  else
    ((List.range 63).find? fun i => wordBad v v.free (b + 4 * i)).map fun i => { cfault 0x10 lane d pc with addr := b + 4 * i }

/-- The first fault of the executed moves' values, in the order of R190 after COLL: PRIV, SCHED, PCTL, stack and loop,
BANK, ALIGN, SRAMUNC. Each move comes with its value; c has the bundle's operand moves made. -/
def execFault (v : Vol) (k pc : Nat) (sched : Option CFault) (ms : List (Move × TWord)) (c : Core) : Option CFault :=
  match ms.find? fun m => trigPriv m.1.dst c with
  | some m => some (cfault 5 m.1.lane m.1.dst pc)
  | none =>
    match sched with
    | some f => some f
    | none =>
      match ms.find? fun m => movePoison m.1.dst m.2 c with
      | some m => some (cfault 7 m.1.lane m.1.dst pc)
      | none =>
        match ms.findSome? fun m => (trigStack v k m.1.dst c).map fun code => cfault code m.1.lane m.1.dst pc with
        | some f => some f
        | none =>
          match ms.findSome? fun m => lsuFault v k m.1.lane m.1.dst m.2 c pc with
          | some f => some f
          | none => ms.findSome? fun m => imageFault v k m.1.lane m.1.dst m.2 c pc

/-- The effect of a precise fault of a bundle found before issue (R123, R170, R252): an uncorrectable word is also counted. -/
def takePreciseOf (v : Vol) (k : Nat) (f : CFault) (bun : BitVec 128) : Vol :=
  let w0 := f.addr / 4 * 4
  let v := if f.code = 0x10 then
      (let r := sramRead v w0 k
       if r.2.isNone then r.1 else (sramRead r.1 (w0 + 4) k).1)
    else v
  preciseFault v k f bun

/-- The same, of the bundle that core k's pc names. -/
def takePrecise (nv : Nv) (v : Vol) (k : Nat) (f : CFault) : Vol := takePreciseOf v k f (fetchedAt nv v (coreOf v k).pc)

/-- What follows the issue of a bundle or a trigger: its trap, which enters at once (R107, R195), else a BUS fault of it (R138). An
access that holds issue runs on in the frame, as does the answer of one made already (R198, R205). An imprecise fault that the
bundle's other moves record is recorded after the trap, in the handler (R184). -/
def afterIssue (nv : Nv) (v : Vol) (k : Nat) : Vol :=
  let c := coreOf v k
  match c.trapNo, c.held, c.busf with
  | some n, _, b =>
    let c1 := if c.held.isNone && b.isSome then busKept c else c
    onCore (enterExc (setCore v k c1) k { cfault 2 0 0 (curBundle v k) with info := n } 0 c.pc c.le) k
      fun t => { t with impr := c.impr }
  | none, some _, _ => v
  | none, none, some _ => (takePending nv v k).getD v
  | none, none, none => v

/-- A trigger with the operand moves of its bundle: a move of value w to trigger port d of core k. Its bundle is the one
issued last. -/
def triggerWith (nv : Nv) (v : Vol) (k : Nat) (ops : List (Nat × TWord)) (d : Nat) (w : TWord) : Vol :=
  if !issuing v k then v
  else
    let c := ops.foldl (fun c o => setOpnd c o.1 (untag k o.2)) (modeDue (coreOf v k))
    let a := untag k w
    if trigHolds k d a c then v
    else if !dstOk k d || (isTransfer d || d == 91) && c.ds.isSome || trigReserved d a c then
      takePrecise nv v k (cfault 3 0 d c.pc)
    else
      match execFault v k c.pc none [(⟨0, d, 0⟩, a)] c with
      | some f => takePrecise nv v k f
      | none => afterIssue nv (trig (setCore v k { c with last := none }) k 0 d a) k

/-- One trigger by itself, its operand ports as they stand. -/
def triggerMove (nv : Nv) (v : Vol) (k d : Nat) (w : TWord) : Vol := triggerWith nv v k [] d w

/-! ### The bundle -/

/-- The value of a source ID (R97). -/
def sourceVal (v : Vol) (k : Nat) (bun : BitVec 128) (s : Nat) : TWord :=
  let c := coreOf v k
  let raw (n : Nat) : TWord := ⟨BitVec.ofNat 32 n, Tag.raw⟩
  let rawOf (w : TWord) : TWord := ⟨w.data, Tag.raw⟩
  if s < 32 then gReg c s
  else if s = 39 then opnd c 74
  else if s = 44 then rawOf (opnd c 95)
  else if s = 45 then rawOf (opnd c 93)
  else if s = 46 then rawOf (opnd c 94)
  else if s < 48 then resPort c s
  else if s = 48 then ⟨sysW c 0x42, Tag.raw⟩
  else if s = 49 then ⟨sysW c 0x44, Tag.raw⟩
  else if s = 50 then raw c.pc
  else if s = 51 then ⟨sysW c (0x60 + (fld (sysW c 0x46) 3 0 + 15) % 16), Tag.raw⟩
  else if 80 ≤ s ∧ s < 88 then raw (b2n (c.p.getLsbD (s - 80)))
  else if s = 88 then ⟨(bunImm bun).signExtend 32, Tag.raw⟩
  else if s = 89 then ⟨(bunImm bun).setWidth 32 <<< 4, Tag.raw⟩
  else if s = 90 then raw k
  else if s = 91 then TWord.poison
  else ⟨BitVec.ofInt 32 ((s : Int) - 112), Tag.raw⟩

/-- RSVOP of the encoding (R122): the offending lane and port. A misplaced transfer, loop mark or long immediate is an encoding of
the bundle, so it traps whatever its lane's guard (log entry 103). -/
def encReserved (k : Nat) (bun : BitVec 128) (slot : Bool) : Option CFault :=
  let fmt := bunFmt bun
  if bunBadHeader bun || (fmt == 2 && slot) then some (cfault 3 0 0 0)
  else
    (bunMoves bun).findSome? fun m =>
      if !dstOk k m.dst || ((isTransfer m.dst || m.dst == 91) && slot) || (isTransfer m.dst && fmt == 2) then
        some (cfault 3 m.lane m.dst 0)
      else if !srcOk k m.src || ((m.src == 88 || m.src == 89) && fmt != 1) then
        some { cfault 3 m.lane m.src 0 with src := true }
      else none

/-- Whether two destinations collide (R87). -/
def collide (d e : Nat) : Bool :=
  d == e || (match trigUnit d, trigUnit e with | some a, some b => a == b | _, _ => false)
    || (d == 74 && isLoad e) || (e == 74 && isLoad d)

/-- The first lane collision in lane order (R87, R223): the higher lane with the lower lane it meets. -/
def findColl : List Move → List Move → Option CFault
  | _, [] => none
  | seen, m :: rest =>
    match seen.find? fun n => collide n.dst m.dst with
    | some n => some { cfault 4 m.lane m.dst 0 with oinfo := n.dst * 512 + n.lane * 64 + 1 }
    | none => findColl (seen ++ [m]) rest

/-- A read of a result port whose valid bit is 0 and that no replay will fill (R81, R205). -/
def schedFault (c : Core) (pc : Nat) (ms : List Move) : Option CFault :=
  (ms.find? fun m => isResult m.src && !c.valid.getLsbD m.src && !c.replay.getLsbD m.src).map
    fun m => { cfault 6 m.lane m.src pc with src := true }

/-- One cycle of a hold on a replay: it counts as one issued bundle for the replays, and for nothing else (R205, R125). -/
def replayCycle (c : Core) : Core :=
  let due (f : Flight) : Bool := f.again && decide (f.left ≤ 1)
  (c.fl.filter due).foldl landFlight { c with
    fl := (c.fl.filter fun f => !due f).map fun f => if f.again then { f with left := f.left - 1 } else f }

/-- A hold on replay-pending result ports (R205): each of its cycles counts as a bundle for the replays of fixed latency, until those read
are due or, for the port of a long operation, all of them have delivered. A fault recorded meanwhile ends it. A port that a result reaches
now is not waited for. -/
def runReplays (reads : BitVec 128) : Nat → Core → Core
  | 0, c => c
  | n + 1, c =>
    let c := landBad c
    let due := portBits ((c.fl.filter fun f => decide (f.left ≤ 1)).flatMap flightPorts)
    if !c.impr.isEmpty || (c.replay &&& reads &&& ~~~due) = 0 then c
    else runReplays reads n (replayCycle c)

/-- The cycles of a hold on replay-pending ports that matter to the replays of fixed latency: a replayed block operation may end after
two and one for each element (R166). -/
def replayCycles (c : Core) (reads : BitVec 128) : Nat :=
  if (c.replay &&& reads).getLsbD 43 then min 5 (2 + (opnd c 95).data.toNat) else 5

/-- The order in which the triggers of a bundle act: sys first, so that what it reads is the state before the bundle (R79, R119,
R183), then control and loops, then the rest. -/
def trigOrder (ms : List (Move × TWord)) : List (Move × TWord) :=
  let rank (m : Move × TWord) : Nat := match trigUnit m.1.dst with
    | some .sys => 0
    | some .cu | some .lp => 1
    | _ => 2
  (ms.filter fun m => rank m == 0) ++ (ms.filter fun m => rank m == 1) ++ ms.filter fun m => rank m == 2

/-- FLAGS.OV as a bundle leaves it that writes FLAGS while an `adds` or `subs` of it overflows (R119, R124): it stays set. -/
def ovKept (old : Core) (c2 : Core) (ms : List (Move × TWord)) : Word :=
  let clamps (m : Move × TWord) : Bool := match trigUnit m.1.dst with
    | some .alu0 | some .alu1 => ((aluOp (aluOfDst m.1.dst) m.2 (opnd c2 (if 51 < m.1.dst then 51 else 32))).flags &&& flSAT) != 0
    | _ => false
  if (ms.any fun m => m.1.dst == 103) && (opnd c2 102).data == 0 && ms.any clamps then sysW old 0 &&& flOV else 0

/-- The moves to registers and predicates at the end of the cycle (R79, R94). -/
def writeRegs (k : Nat) (c : Core) (ms : List (Move × TWord)) : Core :=
  ms.foldl (fun c m =>
    if m.1.dst < 32 then setG k c m.1.dst m.2
    else if 105 ≤ m.1.dst then
      let i := m.1.dst - 104
      let b : BitVec 8 := BitVec.ofNat 8 (2 ^ i)
      let c1 := { c with p := if m.2.data != 0 && !m.2.isPoison then c.p ||| b else c.p &&& ~~~b }
      if m.2.isPoison then orFlags c1 flPZ else c1
    else c) c

/-- The end of a bundle: delay slots, the loop-end test, a pending mode change and the next pc (R105, R113, R120, R202,
R204). `ds0`, `mc0` and the open levels `n0` are as before the bundle: a mark tests the level that was innermost as it issued. -/
def advance (v : Vol) (k : Nat) (bun : BitVec 128) (pc : Nat) (ds0 : Option (Nat × Nat)) (rx0 : Bool)
    (mc0 : Option (Nat × Bool)) (n0 : Nat) : Vol :=
  let v := onCore v k fun c => { c with pc := pc + 16 }
  let v := match mc0 with
    | some (n, u) => onCore v k fun c => if c.modeChg.isSome then setUser c u else { c with modeChg := some (n - 1, u) }
    | none => v
  let v := if bunFmt bun = 2 ∨ (coreOf v k).le then
      let (v, dest) := loopEnd (onCore v k fun c => { c with le := false }) k (min n0 (loopLevels (coreOf v k)))
      match dest with
      | some t => onCore v k fun c => { c with pc := t }
      | none => v
    else v
  match ds0 with
  | some (t, n) =>
    if 1 < n then onCore v k fun c => { c with ds := some (t, n - 1) }
    else if rx0 then returnExc (onCore v k fun c => { c with ds := none }) k
    else takenTo (onCore v k fun c => { c with ds := none }) k t
  | none => v

/-- The results of latency 1 that the last delay slot of a `cu.retx` triggered: the bundle at EPC is the one they are
delivered to (R125), so they arrive after the port shadow is restored. `old` holds them. -/
def slotResults (old : Core) (ms : List (Move × TWord)) (c : Core) : Core :=
  ms.foldl (fun c m =>
    match trigUnit m.1.dst with
    | some .alu0 => setRes c 32 (resPort old 32)
    | some .alu1 => setRes c 33 (resPort old 33)
    | some .sys => if m.1.dst = 103 then c else setRes c 47 (resPort old 47)
    | _ => c) c

/-- A block operation met a fault: it ends, and its fault is recorded (R117, R165, R189, R252). -/
def repFaults (v : Vol) (k : Nat) (l : LongOp) (code resp a : Nat) : Vol :=
  let v := onCore v k fun c => { c with long := c.long.eraseP fun x => x.kind == 3 }
  recordBus v k 0 { cfault code l.lane l.port l.pc with addr := a, resp := resp, prec := code != 0x0F }

/-- A block operation catches up with the time (R117); a fault that it met is recorded. -/
def repLive (v : Vol) (k : Nat) : Vol :=
  match repCatch v k with
  | (v, none) => v
  | (v, some (l, code, resp, a)) => repFaults v k l code resp a

/-- A hold of a bundle that has not issued (R127, R198): it keeps the core as it was, its replays started (R205), but a fence then stands
at its bundle, and the store of the bundle before no longer occupies its bank (R218). -/
def holdBundle (v0 : Vol) (k : Nat) (fence : Bool) : Vol :=
  onCore v0 k fun c => { c with wait := if fence then .atFence else c.wait, last := none }

/-- The checks and the issue of the bundle at core k's pc when no recorded fault comes before it (R79, R170): the faults of its
fetch, the holds, the other precise faults in the order of R190, and the bundle's effect. What EBUN0-3 show of a bundle that no
fetch may bring is free (R191, log entry 12). `v0` is the state to keep at a hold. -/
def issueAt (nv : Nv) (v0 v : Vol) (k : Nat) : Vol :=
  let pc := (coreOf v k).pc
  let err := lineErr nv v.free pc
  if !executable nv v pc then preciseFault (nextFree v) k { cfault 0x0D 0 0 pc with addr := pc } (Config.eccBundle v.free)
  else if 2 ≤ err then preciseFault v k { cfault 0x0E 0 0 pc with addr := pc } (fetchedAt nv v pc)
  else
    let q := lineQueued (pqInForce v k) (coreOf v k).queue pc
    let bun := fetchedAt nv v pc
    let v := onCore (if lineFree nv pc then nextFree v else v) k fun c => { c with queue := some q.2, fetchAt := none, entAt := none }
    let v := if err = 1 && q.1 then debit (rgInc v (ra (pCore k) 0x054)) k 0 8 else v
    let moves := bunMoves bun
    let gp := (coreOf v k).p.getLsbD (bunGp bun) ^^ bunGinv bun
    let ex := moves.filter fun m => !bunGen bun m.lane || gp
    let reads := portBits (ex.filterMap fun m => if isResult m.src then some m.src else none)
    let replays (c : Core) : Core := runReplays reads (replayCycles c reads) c
    let before := onCore v k replays
    match takePending nv before k with
    | some v' => v'
    | none =>
      let v := onCore before k deliverDue
      let vals : List (Move × TWord) := ex.map fun m => (m, sourceVal v k bun m.src)
      let c := coreOf v k
      let c2 : Core := (vals.filter fun m => isOperand m.1.dst).foldl (fun (c : Core) (m : Move × TWord) => setOpnd c m.1.dst m.2) c
      let at' (f : CFault) : CFault := { f with pc := pc, opc := if f.code = 4 then pc else f.opc }
      let fence := (vals.any fun m => m.1.dst == 87) && !(c.long.isEmpty && c.sbuf.isEmpty)
      let held := fence || (c.replay &&& reads) != 0 || vals.any (fun m => trigHolds k m.1.dst m.2 c2)
        || (c.long.any (fun l => l.kind == 3) && vals.any fun m => 93 ≤ m.1.dst && m.1.dst ≤ 95)
      let stop := match encReserved k bun c.ds.isSome with
        | some f => some f
        | none =>
          match vals.find? fun m => trigReserved m.1.dst m.2 c2 with
          | some m => some (cfault 3 m.1.lane m.1.dst pc)
          | none =>
            match findColl [] moves with
            | some f => some f
            | none => execFault v k pc (schedFault c pc ex) vals c2
      if held then holdBundle (onCore v0 k replays) k fence
      else
        match stop with
        | some f => takePreciseOf before k (at' f) bun
        | none =>
          let v := rgSet v (ra (pCore k) 0x044) (BitVec.ofNat 32 pc)
          let v := setCore v k { ageFlights c2 with last := none, modeChg := none }
          let v := (trigOrder vals).foldl (fun (v : Vol) (m : Move × TWord) => trig v k m.1.lane m.1.dst m.2) v
          let v := onCore v k fun c' => writeRegs k (orFlags c' (ovKept c c2 vals)) vals
          let next := advance v k bun pc c.ds c.rx c.modeChg (loopLevels c)
          let back := c.rx && (match c.ds with | some (_, n) => decide (n ≤ 1) | none => false)
          afterIssue nv (if back then onCore next k (slotResults (coreOf v k) vals) else next) k

/-- Issue one bundle on core k (R79, R170): a block operation catches up, replays start, and a recorded fault is taken first. A
store-buffer fault that waited for ACTIVE comes ahead of the replays (R210). Results due to the bundle arrive as it issues (R125):
an entry before it finds them still in flight, with remaining count 1 (R194). In precise mode it waits for the replays of long operations
(R186). -/
def issueBundle (nv : Nv) (v0 : Vol) (k : Nat) : Vol :=
  if !issuing v0 k then v0
  else
    let w := repLive (onCore v0 k modeDue) k
    match (if (coreOf w k).restart then takePending nv w k else none) with
    | some v' => v'
    | none =>
      let r := startReplays w k
      let v := onCore r k landBad
      match takePending nv v k with
      | some v' => v'
      | none => if (coreOf v k).wait == .none then issueAt nv r v k else r

/-! ### Long operations complete (R126, R135, R136, R153-R168) -/

/-- A fault of a long operation's trigger. -/
def longFault (l : LongOp) (code : Nat) : CFault := cfault code l.lane l.port l.pc

/-- A long operation's imprecise fault is recorded (R184, R185): its trigger issued before those of the fixed-latency faults that
the bundle issued last records in the same cycle, so it comes before them, behind those of other long operations. While an
access is held, the results of the accessing bundle are not yet readable (R125), so it also comes before a BUS fault of the
access (R190). -/
def recordLong (f : CFault) (c : Core) : Core :=
  let long (g : CFault) : Bool := match trigUnit g.port with
    | some .div | some .itp | some .seq => true
    | _ => false
  { c with impr := c.impr.takeWhile long ++ f :: c.impr.dropWhile long
           imprFirst := c.imprFirst || (c.held.isSome && c.busf.isNone) }

/-- A table operation found an uncorrectable word: POISON results and SRAMUNC with the word's address, taken as that of a block operation
(R234, R252, log entry 22). -/
def tableUnc (v : Vol) (k : Nat) (l : LongOp) (i : Nat) (poisoned : Core → Core) : Vol :=
  recordBus (onCore v k poisoned) k 0 { longFault l 0x10 with addr := l.b.data.toNat + 4 * i, prec := true }

/-- The results and the fault of a long operation of core k, written to its ports; a block operation whose next element waits for a domain
goes on (R285). -/
def finishLong (v : Vol) (k : Nat) (l : LongOp) : Vol :=
  let rec' (f : CFault) (c : Core) : Core := recordLong f c
  let out (s : Nat) (w : TWord) (c : Core) : Core := setRes c s (untag k w)
  match l.kind with
  | 0 =>
    let r := divOp l.uns l.a l.b
    let dz := (r.flags &&& flDZ) != 0 && ctlBit v k 2
    onCore v k fun c =>
      let c := orFlags (out 37 r.r1 (out 36 r.r0 c)) r.flags
      if r.tagf then rec' (longFault l 0x20) c else if dz then rec' (longFault l 0x21) c else c
  | 1 =>
    if l.a.isPoison || l.b.isPoison then onCore v k (out 40 TWord.poison)
    else
      let h := l.b.data.toNat
      let hOk := k == 8 || l.b.tag == Tag.handle || l.b.tag == Tag.raw
      let (v, ws, bad) := tableWords v k h (curveNeeds l.a)
      match bad with
      | some i => tableUnc v k l i (out 40 TWord.poison)
      | none =>
        match curveEval (tableOf v k h ws) false l.a with
        | .tableFault => onCore v k fun c => rec' (longFault l 0x22) (out 40 TWord.poison c)
        | .tagFault => onCore v k fun c => rec' (longFault l 0x20) (out 40 TWord.poison c)
        | .ok y f =>
          if hOk then onCore v k fun c => orFlags (out 40 y c) f
          else onCore v k fun c => rec' (longFault l 0x20) (out 40 TWord.poison c)
  | 2 =>
    let both (a b : TWord) (c : Core) : Core := out 42 b (out 41 a c)
    if l.a.isPoison || l.b.isPoison || l.c.isPoison then onCore v k (both TWord.poison TWord.poison)
    else
      let h := l.b.data.toNat
      let (v, ws, bad) := tableWords v k h (seqNeeds l.c l.a)
      match bad with
      | some i => tableUnc v k l i (both TWord.poison TWord.poison)
      | none =>
        match seqEval (tableOf v k h ws) (k == 8) l.b l.c l.a with
        | (.ok s _, act) => onCore v k (both s act)
        | (.tagFault, _) => onCore v k fun c => rec' (longFault l 0x20) (both TWord.poison TWord.poison c)
        | (.tableFault, _) => onCore v k fun c => rec' (longFault l 0x22) (both TWord.poison TWord.poison c)
  | _ =>
    let w := l.c.data
    let n := 2 ^ fld w 3 2
    let (v, bad, q) := repRun k (fld w 1 0) n (opnd (coreOf v k) 95).data.toNat v
    match bad, q with
    | some (code, resp, a), _ => repFaults v k l code resp a
    | none, some q => onCore v k (out 43 ⟨q, Tag.raw⟩)
    | none, none => onCore v k fun c => { c with long := c.long ++ [{ l with since := v.now, spent := 0 }] }

/-- The number of a long-operation unit. -/
def unitKind : LongUnit → Nat
  | .div => 0 | .itp => 1 | .seq => 2 | .rep => 3

/-- Whether core k may take an exception now: running and neither halted nor in reset, with no access held. -/
def canEnter (v : Vol) (k : Nat) : Bool :=
  let c := coreOf v k
  coreUp v k && c.run && !c.dfHalt && !c.safeHalt && !c.ovr && !ctlBit v k 5
    && c.held.isNone

/-- A wait behind long operations ends: a fence with every one of them and the store buffer, the hold of precise mode with its own
(R148, R210). -/
def endFence (v : Vol) (k : Nat) : Vol :=
  onCore v k fun c =>
    let ended := match c.wait with
      | .fence | .atFence => c.long.isEmpty && c.sbuf.isEmpty
      | .op ks => !(c.long.any fun l => ks.contains l.kind)
      | .none | .wft | .wfi => false
    if ended then { c with wait := .none, last := none } else c

/-- The fence bundle at which core k stood issues, its faults of long operations put aside: EPC will be the bundle after it
(R186, R198). A bundle that would fault itself does not issue. -/
def fenceIssues (nv : Nv) (v : Vol) (k : Nat) : Vol :=
  let c := coreOf v k
  let w := issueBundle nv (onCore v k fun c => { c with impr := [], imprFirst := false, busf := none, sbf := none }) k
  if xActive (coreOf w k) && !xActive c then v
  else onCore w k fun t => { t with impr := c.impr ++ t.impr, imprFirst := c.imprFirst, busf := c.busf <|> t.busf, sbf := c.sbf <|> t.sbf }

/-- Whether core k stands at a fence. -/
def atFence (c : Core) : Bool := c.wait == .fence || c.wait == .atFence

/-- A recorded fault of core k enters before its next bundle (R184). At a fence it waits for the fence's end and enters behind it (R148,
R186); `was` is what the core waited for. -/
def takeBehind (nv : Nv) (v : Vol) (k : Nat) (was : Wait) : Vol :=
  let c := coreOf v k
  let faults := !c.impr.isEmpty || c.busf.isSome
  if !canEnter v k || atFence c then v
  else
    let v := if was == .atFence && c.wait == .none && faults then fenceIssues nv v k else v
    (takePending nv v k).getD v

/-- The faults of the fixed-latency operations due with the next bundle are recorded in the cycle of a long operation's fault, behind it
(R184, R185). -/
def landBehind (c : Core) : Core :=
  if c.wait == .none && (!c.impr.isEmpty || c.busf.isSome) then { landBad { c with imprFirst := true } with imprFirst := c.imprFirst } else c

/-- A long operation completes in the cycle in which the fault of another one entered (R185): its results are in the port shadow, and a
fault of it is lost. -/
def completeLate (v : Vol) (k : Nat) (u : LongUnit) : Vol :=
  let c := coreOf v k
  match (if c.entAt == some v.now then c.recLong.find? fun l => l.kind == unitKind u else none) with
  | none => v
  | some l =>
    let w := finishLong (setCore v k { c with port := c.shadow, valid := c.shValid, impr := [], busf := none, long := [] }) k l
    let d := coreOf w k
    let w := setCore w k { setSys c 0 (sysW d 0) with
      shadow := d.port, shValid := d.valid, recPend := c.recPend &&& ~~~(portBits (longPorts l))
      recLong := c.recLong.eraseP fun l => l.kind == unitKind u }
    if d.impr.isEmpty && d.busf.isNone then w else setFault w (pCore k) 0

/-- A long operation of core k delivers its results and its fault is taken before the next bundle (R126, R128, R184, R186). -/
def completeLong (nv : Nv) (v : Vol) (k : Nat) (u : LongUnit) : Vol :=
  let c := coreOf v k
  match c.long.find? fun l => l.kind == unitKind u with
  | none => completeLate v k u
  | some l =>
    let v := setCore v k { c with long := c.long.eraseP fun l => l.kind == unitKind u }
    let v := onCore (endFence (finishLong v k l) k) k landBehind
    let w := takeBehind nv v k c.wait
    if xActive (coreOf w k) && !xActive c then onCore w k fun c => { c with entAt := some v.now } else w

/-! ### Control of a core (R211, R72, R237) -/

/-- Start core k at CORE_START (R211): faults recorded before stay, to be taken before its first bundle
(R210), and so does a pending change of MODE (R120). -/
def startCore (v : Vol) (k : Nat) : Vol :=
  onCore v k fun c =>
    { setXBit c 0 false with
      run := true, startPend := false, dfHalt := false, safeHalt := false, ovr := false, wait := .none, ds := none, rx := false,
      le := false, trapNo := none, restart := false, last := none, queue := none,
      fetchAt := some ((rg v (ra (pCore k) 0x040)).toNat / 128, v.now + 1 + slotAfter v k (v.now + 1))
      pc := (rg v (ra (pCore k) 0x040)).toNat / 16 * 16 }

/-- A reset of core k (R95): EVEC holds the entry that Locksmith writes (R196). -/
def resetCore (v : Vol) (k : Nat) : Vol :=
  setCore v k (setSys Core.reset 0x51 (BitVec.ofNat 32 (v.lks.entry / 16 * 16)))

/-- Locksmith writes a boot entry into EVEC of every core (R179, R196). -/
def writeEntries (v : Vol) (a : Nat) : Vol :=
  (List.range 9).foldl (fun v k => onCore v k fun c => { setSys c 0x51 (BitVec.ofNat 32 (a / 16 * 16)) with evecNew := none })
    { v with lks := { v.lks with entry := a } }

/-- Clear every result-port valid bit when FR_CTL.INVREL is set (R237). -/
def invRel (v : Vol) (k : Nat) : Vol :=
  if rb v (ra (pCore k) 0x13C) 1 then onCore v k fun c => { c with valid := 0 } else v

/-- What a write of CORE_CTL does beside its fields (R177, R182, R211): BTBLOAD clears only when the load is done. -/
def coreCtlWrite (v : Vol) (k : Nat) (old : Word) : Vol :=
  let v := if bit old 6 then rgOr v (aCtl (pCore k)) 0x40 else v
  let new := rg v (aCtl (pCore k))
  let v := if rose old new 6 then rgSet v (ra (pCore k) 0x04C) 0 else v
  let v := if rose old new 6 then onCore v k fun c => { c with btb := c.btb.filter fun e => !e.2 } else v
  let v := if rose old new 5 then raiseEvent (onCore v k fun c => { c with last := none }) (pCore k) 6 else v
  let v := if rose old new 4 then
      (if bit new 5 then onCore v k fun c => { c with startPend := true } else startCore v k)
    else if fell old new 4 then onCore v k fun c => { c with run := false, startPend := false } else v
  if fell old new 5 && (coreOf v k).startPend then startCore v k else v

/-- The CORE STAT bits that show the core (R211). -/
def coreStatView (v : Vol) (k : Nat) (w : Word) : Word :=
  let c := coreOf v k
  let halted := c.dfHalt || ctlBit v k 5
  w ||| BitVec.ofNat 32 (b2n (ctlBit v k 6) * 2 ^ 29 + b2n halted * 4 + b2n (xActive c) * 2
    + b2n (c.run && !halted && !c.safeHalt && !c.ovr))

/-- The BTB load ends (R177, R178): each sound entry is locked; a refused entry or table sets BADENT and raises event 3. -/
def btbLoadDone (nv : Nv) (v : Vol) (k : Nat) : Vol :=
  if !ctlBit v k 6 then v
  else
    let p := pCore k
    let base := (rg v (ra p 0x048)).toNat
    let act := activePlane v
    let word (i : Nat) : Word :=
      let a := base + 4 * i
      if a < 0x1000000 ∧ a / 0x800000 = act ∧ planeVerified v act then
        wordOfBytes ((plainUnit nv v (a - a % 16)).drop (a % 16))
      else flashWord nv a
    let n := (word 0).toNat
    let f := v.free
    let v := nextFree (rbSet v (aCtl p) 6 false)
    if n = 0 ∨ 64 < n ∨ (List.range (n + 1)).any (fun i => 2 ≤ lineErr nv f (base + 4 * i)) then
      raiseEvent (rgSet v (ra p 0x04C) 0x80000000) p 3
    else
      let ts := (List.range n).map fun i => (word (i + 1)).toNat
      let okT (t : Nat) : Bool := t % 128 == 0 && t / 0x800000 == act && executable nv v t && decide (lineErr nv f t < 2)
        && decide (lineErr nv f (t + 128) < 2)
      let good := (ts.filter okT).eraseDups
      let v := onCore v k fun c =>
        { c with btb := (good.map fun t => (t, true)) ++ (c.btb.filter fun e => !good.contains e.1).take (64 - good.length) }
      let bad := ts.any fun t => !okT t
      let v := rgSet v (ra p 0x04C) (BitVec.ofNat 32 (good.length + b2n bad * 2 ^ 31))
      raiseIf bad v p 3

/-- The new EVEC takes effect, or its load fails with XSTAT.FERR (R196). -/
def evecDone (nv : Nv) (v : Vol) (k : Nat) : Vol :=
  let c := coreOf v k
  match c.evecNew with
  | none => v
  | some a =>
    let f := v.free
    let ok := executable nv v a && decide (lineErr nv f a < 2) && decide (lineErr nv f (a + 128) < 2)
    setCore (nextFree v) k (if ok then { setSys c 0x51 (BitVec.ofNat 32 a) with evecNew := none }
      else { setXBit c 4 true with evecNew := none })

end Sys2Proof.Machine
end

