-- ==== Sys2Proof/Machine/OutOps.lean ====
section
/-! DEFINITION. Motor groups (R382-R386), valves (R387-R390), general I/O (R391-R394), the trips that hold outputs off
(R344-R353) and the firing outputs' level. -/

namespace Sys2Proof.Machine

/-- The bit of TRP_MASK of a valve and of a motor group (R357); a firing output's is its number. -/
abbrev maskValve (x : Nat) : Nat := 64 + x
abbrev maskMotor (m : Nat) : Nat := 112 + m

/-- Whether a trip holds an output off. -/
def tripHeld (v : Vol) (i : Nat) : Bool := v.outs.held.getLsbD i

/-! ### Motor groups -/

/-- A setting as the carrier of group m uses it (R386, R631). -/
def motSetting (v : Vol) (m off : Nat) : Word := smapGet regReset v.outs.motSet (aMot m off)
def motPer (v : Vol) (m : Nat) : Nat := fld (motSetting v m 0x044) 15 0
def motEdge (v : Vol) (m : Nat) : Bool := bit (motSetting v m 0x040) 27

/-- The carrier's period in c (R382). -/
def motPeriod (v : Vol) (m : Nat) : Nat := if motEdge v m then motPer v m else 2 * motPer v m

/-- A quotient rounded half away from zero (R630). -/
def roundHalf (x : Int) (d : Nat) : Int :=
  if 0 ≤ x then (2 * x + d) / (2 * d : Nat) else -((2 * (-x) + d) / (2 * d : Nat))

/-- The compare value of phase u of group m from its active word, for a period PER and a minimum pulse (R383): clamped, and
an on- or off-time above 0 and below MINPW is removed. -/
def motCompare (v : Vol) (m u per minpw : Nat) (edge : Bool) : Nat :=
  let w := actOf v (64 + 4 * m + u)
  let count := w.tag == Tag.count || (w.tag == Tag.raw && bit (fg v (aMot m 0x040)) 23)
  let c : Int := if count then w.data.toInt else roundHalf (w.data.toInt * per) (2 ^ 30)
  let c := min c.toNat per
  let k := if edge then 1 else 2
  if 0 < c ∧ k * c < minpw then 0
  else if c < per ∧ k * (per - c) < minpw then per
  else c

/-- The compare value Cu before the minimum pulse: MOT_ACT (R383, R399). -/
def motActive (v : Vol) (m u : Nat) : Nat := motCompare v m u (ff v (aMot m 0x044) 15 0) 0 false

/-- Cycles since the carrier of group m last restarted, in its period. -/
def motPhase (v : Vol) (m : Nat) : Nat := (v.now - smapGet noErr v.outs.motBase m) % motPeriod v m

/-- The reference of phase u (R382): its level, and the cycles for which it has had it. An edge of the present pattern counts from
the carrier's last latch on; a level that lasted through that latch goes on. -/
def motRefState (v : Vol) (m u : Nat) : Bool × Nat :=
  let c := smapGet noErr v.outs.motCmp (3 * m + u)
  let per := motPer v m
  let full := motPeriod v m
  let start := if motEdge v m then 0 else full - c
  let width := if motEdge v m then c else 2 * c
  let since := (motPhase v m + full - start % full) % full
  let lasting := v.now - smapGet noErr v.outs.motEdge (3 * m + u)
  let upTo (n : Nat) : Nat := if n ≤ v.now - smapGet noErr v.outs.motLat m then n else lasting
  if c = 0 then (false, lasting)
  else if per ≤ c then (true, lasting)
  else if since < width then (true, upTo since)
  else (false, upTo (since - width))

/-- The carrier of group m takes the settings and compare values in force (R386), its count 0 at `base`; a reference whose level
changes has its edge now. -/
def motLatch (v : Vol) (m base : Nat) : Vol :=
  let was := (List.range 3).map (motRefState v m)
  let set := [0x040, 0x044, 0x048, 0x04C].foldl
    (fun s o => smapSet regReset s (aMot m o) (fg v (aMot m o))) v.outs.motSet
  let v := { v with outs := { v.outs with motSet := set } }
  let cmp := (List.range 3).foldl (fun c u =>
    smapSet noErr c (3 * m + u) (motCompare v m u (motPer v m) (fld (motSetting v m 0x04C) 9 0) (motEdge v m))) v.outs.motCmp
  let v := { v with outs := { v.outs with
      motCmp := cmp, motBase := smapSet noErr v.outs.motBase m base, motLat := smapSet noErr v.outs.motLat m v.now } }
  let edge (e : SMap Nat) (u : Nat) : SMap Nat :=
    let w := was.getD u (false, 0)
    smapSet noErr e (3 * m + u) (if (motRefState v m u).1 == w.1 then v.now - w.2 else v.now)
  { v with outs := { v.outs with motEdge := (List.range 3).foldl edge v.outs.motEdge } }

/-- The carrier of group m starts at count 0, its references off (R382, R399). -/
def motStart (v : Vol) (m : Nat) : Vol :=
  { v with outs := { v.outs with
      motBase := smapSet noErr v.outs.motBase m v.now
      motCmp := smapKeep (fun i => i / 3 != m) v.outs.motCmp
      motLat := smapSet noErr v.outs.motLat m v.now
      motEdge := (List.range 3).foldl (fun e u => smapSet noErr e (3 * m + u) v.now) v.outs.motEdge } }

/-- MOT_CNT: [16] DOWN, [15:0] the carrier count (R382, R399). -/
def motCount (v : Vol) (m : Nat) : Word :=
  let x := motPhase v m
  if motEdge v m ∨ x ≤ motPer v m then BitVec.ofNat 32 x
  else BitVec.ofNat 32 (2 * motPer v m - x + 2 ^ 16)

/-- Whether group m keeps its safe state (R363, R364, R385, R559). -/
def motSafe (v : Vol) (m : Nat) : Bool :=
  !follows v 1 || (List.range 4).any fun u => wordSafe v (64 + 4 * m + u)

/-- The state in force of group m: 0 coast, 1 run, 2 brake (R385). -/
def motState (v : Vol) (m : Nat) : Nat :=
  if motSafe v m then (if ff v (aMot m 0x040) 25 24 = 1 then 2 else 0)
  else (actOf v (64 + 4 * m + 3)).data.toNat

/-- MOT_ACT and MOT_ACTRUN (R399). -/
def motShow (v : Vol) (m : Nat) : Vol :=
  let v := (List.range 3).foldl (fun v u => rgSet v (aMot m (0x060 + 4 * u)) (BitVec.ofNat 32 (motActive v m u))) v
  rgSet v (aMot m 0x06C) (BitVec.ofNat 32 (motState v m + 16 * b2n (motSafe v m)))

/-- Group m at a boundary (R386): with SYNC its carrier restarts, a period not ended is truncated with TRUNC and event 1,
and the new values apply at once. -/
def motBoundary (v : Vol) (m : Nat) : Vol :=
  if !ready v (pMot m) then v
  else
    let v :=
      if bit (fg v (aMot m 0x040)) 26 then
        let v := if motPhase v m = 0 then v else raiseEvent (setFault v (pMot m) 1) (pMot m) 1
        motLatch v m v.now
      else v
    motShow v m

/-- A turning point of a free-running carrier (R386): the next cycle with count 0, or with count PER when centre-aligned. New settings and
compare values apply there, the carrier going on. -/
def motTurn (v : Vol) (m : Nat) (top : Bool) : Vol :=
  if !ready v (pMot m) || bit (fg v (aMot m 0x040)) 26 || (top && motEdge v m) then v
  else
    let full := motPeriod v m
    let v := { v with now := v.now + ((if top then motPer v m else 0) + full - motPhase v m) % full }
    motLatch v m (if top && !bit (fg v (aMot m 0x040)) 27 then v.now - ff v (aMot m 0x044) 15 0 else v.now)

/-- Whether the reference of phase u has been on, or off, for n cycles (R382, R384). -/
def motRef (v : Vol) (m u : Nat) (on : Bool) (n : Nat) : Bool :=
  let r := motRefState v m u
  r.1 == on && decide (n ≤ r.2)

/-- Whether an output of group m is active (R384, R385, R345): phase u, high or low side. A trip turns all six off. -/
def motOn (v : Vol) (m u : Nat) (high : Bool) : Bool :=
  if tripHeld v (maskMotor m) then false
  else
    match motState v m with
    | 1 =>
      let dt := motSetting v m 0x048
      if high then motRef v m u true (fld dt 9 0) else motRef v m u false (fld dt 25 16)
    | 2 => !high
    | _ => false

/-- The level of an output pad of group m (R365): its polarity applies; none, high-impedance, while the group's domain is down. -/
def motPad (v : Vol) (m u : Nat) (high : Bool) : Option Bool :=
  if !domUp v (pageDom (pMot m)) then none
  else some (xor (motOn v m u high) (bit (fg v (aMot m 0x040)) (2 * u + b2n (!high))))

/-! ### Valves -/

/-- The phase of valve x: VLV_ST[1:0] (R400). -/
def valvePhase (v : Vol) (x : Nat) : Nat := rf v (aVlv x 0x200) 1 0

/-- Whether valve x keeps its safe value. -/
def valveSafe (v : Vol) (x : Nat) : Bool := !follows v 2 || wordSafe v (96 + x)

/-- Whether valve x is to be on: its active command or its safe value, unless a trip holds it (R388, R389). -/
def valveWanted (v : Vol) (x : Nat) : Bool :=
  !tripHeld v (maskValve x) &&
    (if valveSafe v x then bit (fg v (aVlv x 0x080)) 27 else (actOf v (96 + x)).data != 0)

/-- Bring valve x to what is wanted of it (R388-R390): on starts a peak, or holds when PEAKT is 0; on during a release also
raises the re-energise event; off starts the release, or ends at once when CLAMPT is 0. The timers count from there. -/
def valveApply (v : Vol) (x : Nat) : Vol :=
  if !ready v (pVlv (x / 24)) then v
  else
    let st := valvePhase v x
    let tim := fg v (aVlv x 0x100)
    let on := valveWanted v x
    let next := if on then (if st = 1 ∨ st = 2 then st else if fld tim 31 16 = 0 then 2 else 1)
      else if st = 1 ∨ st = 2 then (if fld tim 7 0 = 0 then 0 else 3)
      else st
    let starts := on && (st == 0 || st == 3)
    let ends := next == 3 && st != 3
    let v := if starts || ends then { v with outs := { v.outs with vlvAt := smapSet noErr v.outs.vlvAt x v.now } } else v
    let v := raiseIf (starts && st == 3) v (pVlv (x / 24)) 2
    rgSet v (aVlv x 0x200) (BitVec.ofNat 32 (next + 16 * b2n (valveSafe v x) + 32 * b2n (tripHeld v (maskValve x))))

/-- The phase of valve x ends n cycles after its start, and another one follows. -/
def valveTimer (v : Vol) (x n next : Nat) : Vol :=
  rfSet { v with now := max v.now (smapGet noErr v.outs.vlvAt x + n) } (aVlv x 0x200) 1 0 next

/-- PEAKT µs of the peak are over (R388). -/
def valvePeakEnd (v : Vol) (x : Nat) : Vol :=
  if valvePhase v x = 1 then valveTimer v x (400 * ff v (aVlv x 0x100) 31 16) 2 else v

/-- CLAMPT times 10 µs of the release are over (R389). -/
def valveClampEnd (v : Vol) (x : Nat) : Vol :=
  if valvePhase v x = 3 then valveTimer v x (4000 * ff v (aVlv x 0x100) 7 0) 0 else v

/-- Whether VDRV and VCLP of valve x are active (R387, R389). -/
def valveDrive (v : Vol) (x : Nat) : Bool :=
  let cfg := fg v (aVlv x 0x080)
  let n := if valvePhase v x = 1 then fld cfg 15 8 else fld cfg 7 0
  let per := fld (fg v (ra (pVlv (x / 24)) 0x040)) 15 0
  (valvePhase v x == 1 || valvePhase v x == 2) &&
    (n == 255 || decide ((v.now - smapGet noErr v.outs.vlvAt x) % per < n * per / 256))
def valveClamp (v : Vol) (x : Nat) : Bool := valvePhase v x == 3

/-- The levels of the pads VDRV and VCLP of valve x (R365, R400): none, high-impedance, while the bank's domain is down. -/
def drivePad (v : Vol) (x : Nat) : Option Bool :=
  if domUp v (pageDom (pVlv (x / 24))) then some (xor (valveDrive v x) (bit (fg v (aVlv x 0x080)) 26)) else none
def clampPad (v : Vol) (x : Nat) : Option Bool :=
  if domUp v (pageDom (pVlv (x / 24))) then some (xor (valveClamp v x) (bit (fg v (aVlv x 0x080)) 25)) else none

/-! ### General I/O -/

/-- GIO_PIN's DIR and SAFE in force, and the pin's number as a bit. -/
def pinDir (v : Vol) (n : Nat) : Nat := ff v (aPin n) 27 26
def pinSafe (v : Vol) (n : Nat) : Bool := !follows v 3 || wordSafe v (144 + n)

/-- The active level of pin n as an output; none when it is an input or high-impedance (R391). -/
def pinLevel (v : Vol) (n : Nat) : Option Bool :=
  if pinDir v n = 0 then none
  else if pinSafe v n then
    match ff v (aPin n) 23 22 with
    | 0 => some false
    | 1 => some true
    | 2 => some (v.outs.glast.getLsbD n)
    | _ => none
  else some ((actOf v (144 + n)).data != 0)

abbrev bit64 (n : Nat) : BitVec 64 := BitVec.ofNat 64 (2 ^ n)

/-- A 64-bit vector as the two words of a register pair. -/
def putPair (v : Vol) (a : Nat) (b : BitVec 64) : Vol :=
  rgSet (rgSet v a (b.setWidth 32)) (a + 4) ((b >>> 32).setWidth 32)

/-- The level that pin n puts on its pad (R391, R365): none for an input, a released open-drain output, a high-impedance pin and
while the domain is down. -/
def pinPad (v : Vol) (n : Nat) : Option Bool :=
  if !domUp v (pageDom pGio) then none
  else
    match pinLevel v n with
    | some true => if pinDir v n = 2 then none else some true
    | x => x

/-- The input filter of pin n in c (R401). -/
def pinFilter (v : Vol) (n : Nat) : Nat := [0, 40, 400, 4000, 40000, 400000, 4000000].getD (rf v (aPin n) 19 16) 0

/-- Whether an edge is one of those selected (R393, R401): 0 rising, 1 falling, 2 both. -/
def edgeMatches (sel : Nat) (rising : Bool) : Bool := sel == 2 || (if rising then sel == 0 else sel == 1)

/-- The input level of pin n becomes `level` (R391, R393, R394): flow counters and pin events 0 to 13 see an edge, but while the block is
in reset or down (R401). -/
def gioEdge (v : Vol) (n : Nat) (level : Bool) : Vol :=
  let was := v.outs.live.getLsbD n
  let on := ready v pGio
  let v := { v with outs := { v.outs with
      live := if level then v.outs.live ||| bit64 n else v.outs.live &&& ~~~(bit64 n) } }
  if !on || was == level then v
  else
    let hit (e : Bool × Nat × Nat) : Bool := e.1 && e.2.2 == n && edgeMatches e.2.1 level
    let v := (List.range 48).foldl (fun v k =>
      if hit (flowSel v k) then
        { v with outs := { v.outs with flow := smapSet (fun _ => 0) v.outs.flow k (smapGet (fun _ => 0) v.outs.flow k + 1) } }
      else v) v
    (List.range 14).foldl (fun v e => raiseIf (hit (pinEntry (rg v (ra pGio (0x380 + 4 * (e / 3)))) (e % 3))) v pGio e) v

/-- The input level of pin n follows a level that the pin drives (R391): at once without a filter, else when the filter time has
passed. -/
def gioDrive (v : Vol) (n : Nat) : Vol :=
  match pinPad v n with
  | none => { v with outs := { v.outs with inDue := smapKeep (· != n) v.outs.inDue } }
  | some b =>
    let want := xor b (rb v (aPin n) 0)
    let v := if (smapFind v.outs.inDue n).any (·.2 == want) && v.outs.live.getLsbD n != want then v
      else { v with outs := { v.outs with inDue := smapKeep (· != n) v.outs.inDue } }
    if v.outs.live.getLsbD n == want || (smapFind v.outs.inDue n).isSome then v
    else if pinFilter v n = 0 then gioEdge v n want
    else { v with outs := { v.outs with inDue := smapPut v.outs.inDue n (v.now + pinFilter v n, want) } }

/-- The driven levels whose filter time has passed by a cycle count (R391). -/
def gioSettle (v : Vol) (t : Nat) : Vol :=
  v.outs.inDue.foldl (fun v d =>
    if d.2.1 ≤ t then gioEdge { v with outs := { v.outs with inDue := smapKeep (· != d.1) v.outs.inDue } } d.1 d.2.2 else v) v

/-- A filtered level of pin n changes at its pad (R391, R393): what the pin itself drives cannot be changed from outside. -/
def gioInput (v : Vol) (n : Nat) (level : Bool) : Vol :=
  match pinPad v n with
  | none => gioEdge v n level
  | some b =>
    if xor b (rb v (aPin n) 0) != level then v
    else
      let v := match smapFind v.outs.inDue n with
        | some d => { v with now := max v.now d.1, outs := { v.outs with inDue := smapKeep (· != n) v.outs.inDue } }
        | none => v
      gioEdge v n level

/-- GIO_ACT and GIO_SAFED (R401), and the level that a safe value of hold keeps (R391). -/
def gioShow (v : Vol) : Vol :=
  if !ready v pGio then v
  else
    let gather (f : Nat → Bool) : BitVec 64 := (List.range 64).foldl (fun b n => if f n then b ||| bit64 n else b) 0
    let last := gather fun n => if pinSafe v n then v.outs.glast.getLsbD n else (actOf v (144 + n)).data != 0
    let v := { v with outs := { v.outs with glast := last } }
    let v := putPair v (ra pGio 0x060) (gather fun n => pinLevel v n == some true)
    putPair v (ra pGio 0x068) (gather fun n => pinDir v n != 0 && pinSafe v n)

/-- What the GIO pins show after words, settings or the mode changed; the input levels follow the driven ones. -/
def gioApply (v : Vol) : Vol :=
  if !ready v pGio then v else (List.range 64).foldl gioDrive (gioShow (gioSettle v v.now))

/-- The boundary's latch of the input levels, as they stood when the boundary cycle began, and of the flow counters (R392). -/
def gioLatch (v : Vol) : Vol :=
  if !ready v pGio then v
  else
    let v := gioSettle v (v.now - 1)
    let v := putPair v (ra pGio 0x040) v.outs.live
    (List.range 48).foldl (fun v k =>
      if (flowSel v k).1 then rgSet v (ra pGio (0x2C0 + 4 * k)) (smapGet (fun _ => 0) v.outs.flow k) else v) v

/-- A write of a GIO register beside its fields: a change of INV turns the pin's input level over at once (R631). -/
def gioWrite (v : Vol) (off : Nat) (via : Via) (w : Word) : Vol :=
  let v' := regWrite v pGio off via w
  if 0x080 ≤ off ∧ off < 0x180 ∧ (rb v (ra pGio off) 0 != rb v' (ra pGio off) 0) then
    let n := (off - 0x080) / 4
    gioDrive (gioEdge v' n (!v'.outs.live.getLsbD n)) n
  else v'

/-- The pins whose input level is inverted (R391). -/
def invertedPins (v : Vol) : BitVec 64 :=
  (List.range 64).foldl (fun b n => if rb v (aPin n) 0 then b ||| bit64 n else b) 0

/-- The input levels now (R391, R401): those driven whose filter time has passed count. -/
def gioLive (v : Vol) : BitVec 64 :=
  v.outs.inDue.foldl (fun b d =>
    if v.now < d.2.1 then b else if d.2.2 then b ||| bit64 d.1 else b &&& ~~~(bit64 d.1)) v.outs.live

def gioView (v : Vol) (off : Nat) : Word :=
  if off = 0x048 then (gioLive v).setWidth 32
  else if off = 0x04C then (gioLive v >>> 32).setWidth 32
  else rg v (ra pGio off)

/-! ### Firing outputs -/

/-- The inactive side of a firing output is its default; a set bit of `fireOn` drives the load. -/
def fireOff (v : Vol) (m : BitVec 64) : Vol :=
  { v with outs := { v.outs with
      fireOn := v.outs.fireOn &&& ~~~m, armed := v.outs.armed &&& ~~~m
      due := smapKeep (fun c => !m.getLsbD c) v.outs.due, offAt := smapKeep (fun c => !m.getLsbD c) v.outs.offAt } }

/-- The pad level of firing output c (R365, R395): none, high-impedance, while the firing I/O domain is down. -/
def firePad (v : Vol) (c : Nat) : Option Bool :=
  if domUp v 35 then some (xor (v.outs.fireOn.getLsbD c) (bit (fg v (aStk1 (0x368 + 4 * (c / 32)))) (c % 32))) else none

/-! ### Trips -/

/-- TRP_MASK of group g as 128 bits, of which 120 name outputs (R357). -/
def tripMask (v : Vol) (g : Nat) : BitVec 128 :=
  let w (i : Nat) : BitVec 128 := (rg v (ra pTrp (0x180 + 16 * g + 4 * i))).setWidth 128 <<< (32 * i)
  w 0 ||| w 1 ||| w 2 ||| w 3

/-- The outputs that the latched groups mask (R345). -/
def tripWanted (v : Vol) : BitVec 128 :=
  (List.range 16).foldl (fun b g => if rb v (ra pTrp 0x0A0) g then b ||| tripMask v g else b) 0

/-- The outputs newly held by trips leave at once (R345, R389): firing outputs go inactive, valves release, motor groups
turn off, and the blocks raise "trip forcing began". -/
def tripForce (v : Vol) : Vol :=
  let new := tripWanted v &&& ~~~v.outs.held
  if new = 0 then v
  else
    let v := { v with outs := { v.outs with held := v.outs.held ||| new } }
    let v := fireOff v (new.setWidth 64)
    let v := (List.range 48).foldl (fun v x => if new.getLsbD (maskValve x) then valveApply v x else v) v
    let v := (List.range 2).foldl (fun v b =>
      raiseIf ((List.range 24).any fun j => new.getLsbD (maskValve (24 * b + j))) v (pVlv b) 1) v
    (List.range 8).foldl (fun v m => raiseIf (new.getLsbD (maskMotor m)) v (pMot m) 2) v

/-- Latch group g with a cause (R345, R348): the record is written unless one is kept, and TRP event g occurs. -/
def tripLatch (v : Vol) (g cause : Nat) : Vol :=
  if rb v (ra pTrp 0x0A0) g then v
  else
    let v := rbSet v (ra pTrp 0x0A0) g true
    let v := if rb v (ra pTrp (0x0C0 + 4 * g)) 31 then v
      else
        let v := rgSet v (ra pTrp (0x0C0 + 4 * g)) (BitVec.ofNat 32 (2 ^ 31 + cause))
        let v := rgSet v (ra pTrp (0x100 + 4 * g)) (v.tick.number.setWidth 32)
        rgSet v (ra pTrp (0x140 + 4 * g)) (BitVec.ofNat 32 (tickCyc v))
    tripForce (raiseEvent v pTrp g)

/-- The settings register of trip input i. -/
def tripCfg (v : Vol) (i : Nat) : Word := if i < 16 then rg v (ra pTrp (0x040 + 4 * i)) else rg v (ra pTrp (0x080 + 4 * (i - 16)))
def tripEnabled (v : Vol) (i : Nat) : Bool := if i < 16 then bit (tripCfg v i) 31 else bit (tripCfg v i) 0
def tripGroup (v : Vol) (i : Nat) : Nat := fld (tripCfg v i) 27 24

/-- Whether comparator i's tap is lost (R352): its block down, its CTL.EN 0 or its channel OFF. -/
def tapLost (v : Vol) (i : Nat) : Bool :=
  let c := tripCfg v i
  let ch := fld c 23 16
  let p := pMea (ch / 8)
  bit c 31 && bit c 15 && (!domUp v (pageDom p) || !rb v (aCtl p) 0 || rf v (ra p (0x100 + 0x40 * (ch % 8))) 3 0 == 0)

/-- The voltage that comparator i compares, in nV (R344): at its TRIPA pin, or at the PGA output of its tap channel. -/
def cmpLevel (v : Vol) (i : Nat) : Int :=
  let c := tripCfg v i
  if bit c 15 then smapGet (fun _ => 0) v.outs.pga (fld c 23 16) else smapGet (fun _ => 0) v.outs.tripa i

/-- The threshold of a TRP_CMP word in nV, times 4096 (R344): THR × 2.5 V / 4096, or THR, signed, × 2.5 V / 2048. -/
def cmpThreshold (c : Word) : Int := if bit c 15 then sfld c 11 0 * 5000000000 else (fld c 11 0 * 2500000000 : Nat)

/-- The hysteresis of a TRP_CMP word in nV (R358). -/
def cmpHyst (c : Word) : Int := ([0, 10000000, 25000000, 50000000].getD (fld c 13 12) 0 : Nat)

/-- Whether a voltage lies beyond the threshold of a TRP_CMP word, and whether it has returned: HYST back on the safe side
(R344). -/
def cmpBeyond (c : Word) (x : Int) : Bool :=
  if bit c 14 then decide (x * 4096 < cmpThreshold c) else decide (cmpThreshold c < x * 4096)
def cmpBack (c : Word) (x : Int) : Bool :=
  if bit c 14 then decide (cmpThreshold c ≤ (x - cmpHyst c) * 4096) else decide ((x + cmpHyst c) * 4096 ≤ cmpThreshold c)

/-- What comparator i shows next (R344, R352): between the threshold and the hysteresis it shows what it did; with EN 0 it shows
nothing. -/
def cmpNext (v : Vol) (i : Nat) : Bool :=
  tripEnabled v i && (tapLost v i || cmpBeyond (tripCfg v i) (cmpLevel v i)
    || (v.outs.cmpIn.getLsbD i && !cmpBack (tripCfg v i) (cmpLevel v i)))

/-- Whether trip input i is in its trip state (R344, R352). -/
def tripState (v : Vol) (i : Nat) : Bool :=
  tripEnabled v i &&
    (if i < 16 then v.outs.cmpIn.getLsbD i
      else v.outs.digLvl.getLsbD (i - 16) == bit (tripCfg v i) 1)

/-- Look at the trip inputs again (R344, R345, R352): TRP_IN follows, a tap newly lost sets TAPLOST, and inputs in their trip
state latch their groups, the lower number first. -/
def tripEval (v : Vol) : Vol :=
  if !domUp v 25 then v
  else
    let gone : BitVec 16 := BitVec.ofNat 16 ((List.range 16).map fun i => b2n (tapLost v i) * 2 ^ i).sum
    let v := if gone &&& ~~~v.outs.tapGone = 0 then v else setFault v pTrp 3
    let cmps : BitVec 16 := BitVec.ofNat 16 ((List.range 16).map fun i => b2n (cmpNext v i) * 2 ^ i).sum
    let v := { v with outs := { v.outs with tapGone := gone, cmpIn := cmps } }
    let ins := ((List.range 24).map fun i => b2n (tripState v i) * 2 ^ i).sum
    let v := rgSet v (ra pTrp 0x0A8) (BitVec.ofNat 32 ins)
    let v := (List.range 24).foldl (fun v i => if tripState v i then tripLatch v (tripGroup v i) i else v) v
    tripForce v

/-- The glitch filter of digital input j in c (R344, R358). -/
def tripFilter (v : Vol) (j : Nat) : Nat := [0, 20, 400].getD (fld (tripCfg v (16 + j)) 3 2) 0

/-- A trip input moves (R344): the source of comparator i to a voltage in nV, or the pin OTEMP of a digital input to a level (above
0 is high) that it has held for a number of cycles; a level that its filter has not passed changes nothing. -/
def tripInput (v : Vol) (i : Nat) (level : Int) (held : Nat) : Vol :=
  let o := v.outs
  let c := tripCfg v i
  tripEval { v with outs :=
    if i < 16 then
      (if bit c 15 then { o with pga := smapSet (fun _ => 0) o.pga (fld c 23 16) level }
        else { o with tripa := smapSet (fun _ => 0) o.tripa i level })
    else if held < tripFilter v (i - 16) then o
    else
      let b : BitVec 8 := BitVec.ofNat 8 (2 ^ (i - 16))
      { o with digLvl := if 0 < level then o.digLvl ||| b else o.digLvl &&& ~~~b } }

/-- A release request (R347): groups with an input in its trip state stay and set CLRREF. -/
def tripClear (v : Vol) (w : Word) : Vol :=
  (List.range 16).foldl (fun v g =>
    if !bit w g then v
    else if (List.range 24).any fun i => tripState v i && tripGroup v i == g then setFault v pTrp 0
    else rbSet v (ra pTrp 0x0A0) g false) v

/-- Whether a TRP register, or CTL.TESTEN, is fixed by the lock (R350). -/
def trpLocked (v : Vol) (off : Nat) : Bool :=
  rb v (ra pTrp 0x0B0) 0 && (off = 0x008 || (0x040 ≤ off && off < 0x0A0) || (0x180 ≤ off && off < 0x280))

/-- A write of a TRP register (R345, R347, R349, R350). -/
def trpWrite (v : Vol) (off : Nat) (via : Via) (w : Word) : Vol :=
  if off = 0x0A4 then (if via = .direct then tripClear v w else v)
  else if off = 0x0AC then
    (if via = .direct && rb v (aCtl pTrp) 0 then
        (List.range 16).foldl (fun v g => if bit w g then tripLatch v g 31 else v) v
      else v)
  else
    let v' := regWrite v pTrp off via w
    if trpLocked v off then (if rg v' (ra pTrp off) = rg v (ra pTrp off) then v' else setFault v pTrp 2)
    else tripEval v'

/-- TRP registers as read: STAT.LOCKED (R358). -/
def trpView (v : Vol) (off : Nat) (w : Word) : Word :=
  if off = 0x00C then w ||| BitVec.ofNat 32 (b2n (rb v (ra pTrp 0x0B0) 0)) else w

end Sys2Proof.Machine
end

