-- ==== Sys2Proof/Machine/StkOps.lean ====
section
/-! DEFINITION. Stoker (R370-R381) and mains sense (R366-R369). -/

namespace Sys2Proof.Machine

/-- 1.0, ACCMIN and ACCMAX in Q2.30 (R371, R375). -/
abbrev qOne : Int := 0x40000000
abbrev accMin : Int := -0x40000000
abbrev accMax : Int := 0x60000000
abbrev qHalf : Int := 0x20000000

abbrev aAcc (c : Nat) : Nat := aStk1 (0x240 + 4 * c)
abbrev aDem (c : Nat) : Nat := aStk1 (0x140 + 4 * c)

/-- Settings in force of firing channel c (R370). -/
def firePhase (v : Vol) (c : Nat) : Nat := ff v (aStkCfg c) 27 26
def fireClass (v : Vol) (c : Nat) : Nat := ff v (aStkCfg c) 25 24
def fireMode (v : Vol) (c : Nat) : Nat := ff v (aStkCfg c) 23 22
def firePulse (v : Vol) (c : Nat) : Bool := bit (fg v (aStkCfg c)) 20
def fireRated (v : Vol) (c : Nat) : Nat := ff v (aStkCfg c) 9 0

/-- The demand before its clamp (R371). -/
def rawDemand (v : Vol) (c : Nat) : Int :=
  let w := actOf v c
  if wordSafe v c then (fg v (aStkSafe c)).toInt
  else if firePower v c w then
    (w.data.toInt * 2 ^ 30).fdiv (fireRated v c * fireVnom v c * 10 : Nat)
  else w.data.toInt

def limitInt (lo hi x : Int) : Int := max lo (min hi x)

/-- The demand in use of channel c follows its word or its safe value (R363, R371): STK_ACT shows it. -/
def fireDemand (v : Vol) (c : Nat) : Vol := rgSet v (aDem c) (wordOfInt (limitInt 0 qOne (rawDemand v c)))

/-- Convert the active word of channel c (R371): a demand clamped from above sets STK_CLAMP. -/
def fireConvert (v : Vol) (c : Nat) : Vol :=
  let d := rawDemand v c
  let v := fireDemand v c
  if qOne < d then rbSet v (aStk1 (0x360 + 4 * (c / 32))) (c % 32) true else v

/-- Whether Stoker runs (R396, R552, R559). -/
def stkRunning (v : Vol) : Bool := ready v pStk && rb v (aCtl pStk) 0 && follows v 0

/-- Stop every firing output and clear the accumulators (R364, R396). -/
def stkClear (v : Vol) : Vol :=
  (List.range 64).foldl (fun v c => rgSet v (aAcc c) 0) (fireOff v (BitVec.allOnes 64))

/-! ### Mains sense -/

def phaseOf (v : Vol) (p : Nat) : Phase := v.outs.phases.getD p ⟨none, none, none, 0, false⟩
def setPhase (v : Vol) (p : Nat) (x : Phase) : Vol :=
  { v with outs := { v.outs with phases := v.outs.phases.set p x } }
def phaseLocked (v : Vol) (p : Nat) : Bool := rb v (aStat pMns) p
def mnsReg (off p : Nat) : Nat := ra pMns (off + 4 * p)

/-- The channels of a phase, as bits. -/
def phaseChans (v : Vol) (p : Nat) : BitVec 64 :=
  (List.range 64).foldl (fun b c => if firePhase v c = p then b ||| bit64 c else b) 0

/-- Cycles between an edge and the compensated crossing it stands for (R366): the filter time and the detector delay. -/
def mnsLag (v : Vol) (p : Nat) : Int :=
  ([0, 4000, 20000, 80000].getD (rf v (ra pMns 0x040) 6 4) 0 : Nat) + 4 * sfld (rg v (mnsReg 0x044 p)) 15 0

/-- Half of the last full cycle of phase p (R367). -/
def halfCycle (v : Vol) (p : Nat) : Nat := rf v (mnsReg 0x050 p) 23 0 / 2

/-- The predicted next crossing of phase p (R367): H after the last compensated one. -/
def nextCrossing (v : Vol) (p : Nat) : Nat := (phaseOf v p).last.getD v.now + halfCycle v p

/-- When phase p is lost for want of a crossing (R368): 1.5 H after the last compensated crossing, plus the detection lag. -/
def lossDeadline (v : Vol) (p : Nat) : Nat :=
  (phaseOf v p).last.getD v.now + 3 * halfCycle v p / 2 + [0, 4000, 20000, 80000].getD (rf v (ra pMns 0x040) 6 4) 0
    + (4 * sfld (rg v (mnsReg 0x044 p)) 15 0).toNat

/-- The firing offset of STK_FIRE in c (R372). -/
def fireOffset (v : Vol) : Nat := 400 * ff v (ra pStk 0x0BC) 7 0

/-- The window of MNS_CFG.FREQ in Hz (R398). -/
def mnsWindow (v : Vol) : Nat × Nat :=
  match rf v (ra pMns 0x040) 17 16 with
  | 0 => (45, 55)
  | 1 => (55, 65)
  | _ => (45, 65)

/-- Phase p is unlocked: nothing decided for it fires any more, and a level that is on ends at the next crossing (R372, R378). -/
def phaseUnlock (v : Vol) (p : Nat) : Vol :=
  let x := nextCrossing v p + fireOffset v
  let v := rbSet v (aStat pMns) p false
  let v := setPhase v p { phaseOf v p with good := 0, begun := false }
  let cs := phaseChans v p
  let offAt := (List.range 64).foldl (fun s c =>
    if cs.getLsbD c && v.outs.fireOn.getLsbD c && (smapFind s c).isNone then smapPut s c x else s) v.outs.offAt
  { v with outs := { v.outs with
      armed := v.outs.armed &&& ~~~cs, due := smapKeep (fun c => !cs.getLsbD c) v.outs.due, offAt := offAt } }

/-- Phase p is lost (R368). -/
def phaseLose (v : Vol) (p : Nat) : Vol :=
  if !phaseLocked v p then v else raiseEvent (setFault (phaseUnlock v p) pMns p) pMns (3 + p)

/-- No crossing of phase p comes by its deadline (R368). -/
def phaseTimeout (v : Vol) (p : Nat) : Vol :=
  if !phaseLocked v p then v else phaseLose { v with now := max v.now (lossDeadline v p) } p

/-- Phase p locks (R368, R374, R378). -/
def phaseLock (v : Vol) (p : Nat) : Vol :=
  let v := rgSet (rbSet v (aStat pMns) p true) (mnsReg 0x074 p) 0
  let v := setPhase v p { phaseOf v p with begun := false }
  let v := rgSet v (ra pStk (0x0A0 + 4 * p)) (BitVec.ofNat 32 (ff v (ra pStk (0x070 + 4 * p)) 31 16))
  let v := rfSet v (ra pStk (0x090 + 4 * p)) 15 0 0
  let v := { v with outs := { v.outs with missed := v.outs.missed &&& ~~~(BitVec.ofNat 3 (2 ^ p)) } }
  raiseEvent v pMns p

/-- A full cycle of m cycles ends on phase p (R367, R368). -/
def phaseCycle (v : Vol) (p m : Nat) : Vol :=
  let prev := rf v (mnsReg 0x050 p) 23 0
  let v := rgSet v (mnsReg 0x050 p) (BitVec.ofNat 32 (m % 2 ^ 24))
  let v := rgSet v (mnsReg 0x068 p) (BitVec.ofNat 32 (min (400000000000 / m) 0x1FFFF))
  let w := mnsWindow v
  let inWin := decide (m * w.1 ≤ 400000000) && decide (400000000 ≤ m * w.2)
  let x := phaseOf v p
  if !inWin then
    let v := raiseEvent (setFault (setPhase v p { x with good := 0 }) pMns 4) pMns 7
    phaseLose v p
  else
    let near := decide ((if m < prev then prev - m else m - prev) * 100 ≤ prev)
    let n := if x.good = 0 ∨ !near then 1 else x.good + 1
    let v := setPhase v p { x with good := n }
    if 4 ≤ n && !phaseLocked v p then phaseLock v p else v

/-- The phase sequence at a rising crossing of phase 0 at t (R369). -/
def phaseSequence (v : Vol) (t : Nat) : Vol :=
  let cfg := rg v (ra pMns 0x040)
  let per := rf v (mnsReg 0x050 0) 23 0
  match (phaseOf v 1).rise, (phaseOf v 2).rise with
  | some r1, some r2 =>
    if fld cfg 2 0 ≠ 7 ∨ fld cfg 9 8 = 0 ∨ per = 0 then v
    else
      let offs (r : Nat) : Nat := (((r : Int) - t).emod per).toNat * 3600 / per
      let v := rgSet v (ra pMns 0x080) (BitVec.ofNat 32 (offs r2 % 4096 * 65536 + offs r1 % 4096))
      let far (x e : Nat) : Bool := let d := (if x < e then e - x else x - e); decide (150 < min d (3600 - d))
      let e1 := if fld cfg 9 8 = 1 then 1200 else 2400
      if far (offs r1) e1 || far (offs r2) (3600 - e1) then raiseEvent (setFault v pMns 3) pMns 6 else v
  | _, _ => v

/-- STK_HELD counts the half-cycles of the lowest-numbered locked phase (R379). -/
def countHeld (v : Vol) (p : Nat) : Vol :=
  if (List.range 3).find? (phaseLocked v) = some p then rgIncSat v (ra pStk 0x0B8) 7 else v

/-- A zero crossing of phase p (R366-R369, R374, R379). -/
def zeroCross (v : Vol) (p : Nat) (rising : Bool) : Vol :=
  if !ready v pMns || !rb v (ra pMns 0x040) p then v
  else
    let t := (v.now - mnsLag v p : Int).toNat
    let v := if lossDeadline v p < v.now then phaseLose v p else v
    let was := phaseLocked v p
    let x := phaseOf v p
    let v :=
      match rising, x.rise with
      | true, some r =>
        let v := match x.fall with
          | some f => if r < f then
              rgSet v (mnsReg 0x084 p) (BitVec.ofNat 32 (((f : Int) - r - (t - f)).emod (2 ^ 24)).toNat)
            else v
          | none => v
        phaseCycle v p (max 1 (t - r))
      | _, _ => v
    let x := phaseOf v p
    let v := setPhase v p { x with last := some t, rise := if rising then some t else x.rise, fall := if rising then x.fall else some t }
    let v := if rising && p = 0 then phaseSequence v t else v
    let h := rf v (mnsReg 0x050 p) 23 0 / 2
    let v := rgSet v (mnsReg 0x05C p) (BitVec.ofNat 32 (h + 2 ^ 31 * b2n (!rising)))
    let v := if was && phaseLocked v p then
        (if (phaseOf v p).begun then rgInc v (mnsReg 0x074 p) else setPhase v p { phaseOf v p with begun := true })
      else v
    countHeld v p

/-- MNS_CFG: clearing a phase's EN bit unlocks it at once (R368). -/
def mnsWrite (v : Vol) (off : Nat) (via : Via) (w : Word) : Vol :=
  let old := rg v (ra pMns off)
  let v := regWrite v pMns off via w
  if off = 0x040 then
    (List.range 3).foldl (fun v p =>
      if fell old (rg v (ra pMns off)) p then setPhase (phaseUnlock v p) p ⟨none, none, none, 0, false⟩ else v) v
  else v

/-! ### The decision (R372-R379) -/

/-- The demand that a decision uses (R371, R379): after a hold expiry the safe demand. -/
def decisionDemand (v : Vol) (c : Nat) : Int :=
  if v.outs.holdSub then limitInt 0 qOne (fg v (aStkSafe c)).toInt else (rg v (aDem c)).toInt

/-- The firing delay of a phase-angle channel (R372). -/
def fireDelay (d : Int) (h : Nat) : Nat := ((qOne - d) * h / qOne).toNat / 4 * 4

/-- h of the half-cycle that a decision is for (R374). -/
def nextH (v : Vol) (p : Nat) : Nat := if (phaseOf v p).begun then (rg v (mnsReg 0x074 p)).toNat + 1 else 0

def onrunOf (v : Vol) (c : Nat) : Nat := smapGet noErr v.outs.onrun c
def offrunOf (v : Vol) (c : Nat) : Nat := smapGet noErr v.outs.offrun c
def accOf (v : Vol) (c : Nat) : Int := (rg v (aAcc c)).toInt
def minOn (v : Vol) (c : Nat) : Nat := ff v (aStkTim c) 29 24
def minOff (v : Vol) (c : Nat) : Nat := ff v (aStkTim c) 21 16

/-- The order of admission (R375): class, then the larger accumulator, then the lower channel. -/
def admitBefore (v : Vol) (a b : Nat) : Bool :=
  decide (fireClass v a < fireClass v b) ||
    (fireClass v a == fireClass v b && (decide (accOf v b < accOf v a) || (accOf v a == accOf v b && decide (a < b))))

def insertBy (lt : Nat → Nat → Bool) (x : Nat) : List Nat → List Nat
  | [] => [x]
  | y :: ys => if lt x y then x :: y :: ys else y :: insertBy lt x ys
def sortBy (lt : Nat → Nat → Bool) : List Nat → List Nat
  | [] => []
  | x :: xs => insertBy lt x (sortBy lt xs)

/-- First-fit admission under a limit: the granted channels and the total (R375). -/
def admitFits (v : Vol) (limit : Nat) : List Nat → Nat → List Nat × Nat
  | [], total => ([], total)
  | c :: rest, total =>
    if total + fireRated v c ≤ limit then
      let r := admitFits v limit rest (total + fireRated v c)
      (c :: r.1, r.2)
    else admitFits v limit rest total

/-- The channels that a decision of phase p treats: MODE not 0 and no trip (R375). -/
def decided (v : Vol) (p c : Nat) : Bool := firePhase v c == p && fireMode v c != 0 && !tripHeld v c

/-- Whether a channel is eligible (R373-R375). -/
def eligible (v : Vol) (p c : Nat) : Bool :=
  let d := decisionDemand v c
  let h := halfCycle v p
  let form :=
    match fireMode v c with
    | 1 => decide (qHalf ≤ accOf v c) && decide (0 < d)
    | 2 => decide ((fireDelay d h : Int) ≤ (h : Int) - 400 * ff v (ra pStk 0x0BC) 31 16)
    | _ =>
      let per := ff v (aStkTim c) 15 8
      decide ((nextH v p % per : Nat) < roundHalf (d * per) (2 ^ 30))
  form && (onrunOf v c != 0 || decide (minOff v c ≤ offrunOf v c))

/-- The demand enters the accumulator (R375). -/
def gather (v : Vol) (c : Nat) : Vol :=
  let d := decisionDemand v c
  let a := if fireMode v c = 1 ∧ d = 0 then 0 else limitInt accMin accMax (accOf v c + d)
  let v := rgSet v (aAcc c) (wordOfInt a)
  let s := aStk1 (0x350 + 4 * (c / 32))
  if a = accMax ∧ !rb v s (c % 32) then raiseEvent (rbSet v s (c % 32) true) pStk 1 else v

/-- The grants of channel c that have yet to fire. -/
def dueOf (v : Vol) (c : Nat) : List (Nat × Option Nat) := (smapFind v.outs.due c).getD []

/-- When a channel granted for the half-cycle that begins at x fires, and when its output ends if that is settled then (R372). -/
def firePlan (v : Vol) (c x : Nat) : Nat × Option Nat :=
  let p := firePhase v c
  let angle := fireMode v c == 2
  let start := if angle then x + fireDelay (decisionDemand v c) (halfCycle v p) else x + fireOffset v
  (start, if firePulse v c then some (start + 4000 * ff v (aStkTim c) 7 0)
    else if angle then some (x + halfCycle v p - 400 * ff v (ra pStk 0x0BC) 31 16)
    else none)

/-- What the decision for the half-cycle that begins at x does to channel c of the phase (R372, R375, R376): a level of a channel that
it denies ends at x + FIREOFS. -/
def settle (granted : List Nat) (x : Nat) (v : Vol) (c : Nat) : Vol :=
  let on := granted.contains c
  let plan := firePlan v c x
  let v := if !on then v
    else rgSet v (aAcc c) (if fireMode v c = 1 then wordOfInt (max (accOf v c - qOne) accMin) else 0)
  let v := rbSet v (aStk1 (0x340 + 4 * (c / 32))) (c % 32) on
  { v with outs := { v.outs with
      onrun := smapSet noErr v.outs.onrun c (if on then min 63 (onrunOf v c + 1) else 0)
      offrun := smapSet noErr v.outs.offrun c (if on then 0 else min 63 (offrunOf v c + 1))
      armed := if on then v.outs.armed ||| bit64 c else v.outs.armed &&& ~~~(bit64 c)
      due := if on then smapPut v.outs.due c ((dueOf v c ++ [plan]).drop ((dueOf v c).length - 1)) else v.outs.due
      offAt := if plan.2.isSome then v.outs.offAt
        else if on then smapKeep (· != c) v.outs.offAt
        else if v.outs.fireOn.getLsbD c || !(dueOf v c).isEmpty then smapPut v.outs.offAt c (x + fireOffset v)
        else v.outs.offAt } }

/-- One decision of phase p (R375). While Stoker does not run, the half-cycle of a locked phase passes with nothing granted
(R376; log entry 84). -/
def stokerDecide (v : Vol) (p : Nat) : Vol :=
  if !stkRunning v then
    (if ready v pStk && phaseLocked v p then ((List.range 64).filter fun c => firePhase v c == p).foldl (settle [] (nextCrossing v p)) v else v)
  else if !phaseLocked v p then
    (if v.outs.missed.getLsbD p then v
      else raiseEvent { v with outs := { v.outs with missed := v.outs.missed ||| BitVec.ofNat 3 (2 ^ p) } } pStk (5 + p))
  else
    let x := nextCrossing v p
    let v := { v with now := max v.now (x - 400 * ff v (ra pStk 0x0B0) 15 0) }
    let r (off : Nat) : Nat := ra pStk (off + 4 * p)
    let budget := if v.outs.extSub then rf v (r 0x060) 15 0 else ff v (r 0x050) 15 0
    let limit := min (ff v (r 0x040) 15 0) budget
    let step := ff v (r 0x070) 15 0
    let prev := rf v (r 0x090) 15 0
    let credit := if step = 0 then rf v (r 0x0A0) 15 0 else min (rf v (r 0x0A0) 15 0 + step) (ff v (r 0x070) 31 16)
    let ramp := if step = 0 then 0xFFFF else prev + credit
    let all := (List.range 64).filter fun c => firePhase v c == p
    let cs := all.filter (decided v p)
    let v := cs.foldl gather v
    let forced := cs.filter fun c => onrunOf v c != 0 && decide (onrunOf v c < minOn v c)
    let f := admitFits v limit (sortBy (admitBefore v) forced) 0
    let v := (forced.filter fun c => !f.1.contains c).foldl (fun v c =>
      let a := aStk1 (0x358 + 4 * (c / 32))
      if rb v a (c % 32) then v else raiseEvent (rbSet v a (c % 32) true) pStk 2) v
    let elig := cs.filter fun c => !forced.contains c && eligible v p c
    let e := admitFits v (min limit ramp) (sortBy (admitBefore v) elig) f.2
    let v := all.foldl (settle (f.1 ++ e.1) x) v
    let v := if step = 0 then v else rgSet v (r 0x0A0) (BitVec.ofNat 32 (credit - (e.2 - prev)))
    rgSet v (r 0x090) (BitVec.ofNat 32 (min limit ramp % 2 ^ 16 * 65536 + e.2 % 2 ^ 16))

/-- A granted channel fires at its firing instant (R372): unless its phase or Stoker stopped, or a trip holds it. -/
def stokerFires (v : Vol) (c : Nat) : Vol :=
  if stkRunning v && phaseLocked v (firePhase v c) && !tripHeld v c then
    match dueOf v c with
    | [] => v
    | d :: rest =>
      { v with now := max v.now d.1, outs := { v.outs with
          fireOn := v.outs.fireOn ||| bit64 c
          due := if rest.isEmpty then smapKeep (· != c) v.outs.due else smapPut v.outs.due c rest
          offAt := match d.2 with | some x => smapPut v.outs.offAt c x | none => v.outs.offAt } }
  else v

/-- A firing output's level or pulse ends, at its instant (R372): a burst or slow-PWM level goes on while the next half-cycle is granted. -/
def stokerFireEnds (v : Vol) (c : Nat) : Vol :=
  if !firePulse v c && fireMode v c != 2 && v.outs.armed.getLsbD c then v
  else { v with now := max v.now ((smapFind v.outs.offAt c).getD 0), outs := { v.outs with
      fireOn := v.outs.fireOn &&& ~~~(bit64 c), offAt := smapKeep (· != c) v.outs.offAt } }

/-- STK_HELD reached STK_HOLDMAX (R379). -/
def holdExpire (v : Vol) : Vol :=
  if stkRunning v && !v.outs.holdSub && decide (ff v (ra pStk 0x0B4) 6 0 ≤ rf v (ra pStk 0x0B8) 6 0) then
    raiseEvent (setFault { v with outs := { v.outs with holdSub := true } } pStk 2) pStk 4
  else v

/-- STK_EXTTMO boundaries passed with no budget write (R377). -/
def budgetExpire (v : Vol) : Vol :=
  let tmo := rf v (ra pStk 0x05C) 15 0
  if tmo ≠ 0 ∧ tmo ≤ v.outs.extCnt ∧ !v.outs.extSub then
    raiseEvent (setFault { v with outs := { v.outs with extSub := true } } pStk 1) pStk 3
  else v

/-- Stoker at a boundary, after the words and settings have been copied (R371, R377, R379): `changed` are the channels
whose word changed, `old` the settings in force before. -/
def stkBoundary (v : Vol) (changed : List Nat) (old : SMap Word) : Vol :=
  if !ready v pStk then v
  else
    let was (a : Nat) : Word := smapGet regReset old a
    let v := (List.range 64).foldl (fun v c =>
      let vn := ra pStk (0x080 + 4 * firePhase v c)
      let conv := was vn != fg v vn || (was (aStkCfg c) ^^^ fg v (aStkCfg c)) &&& 0x0C2003FF != 0
      let v := if conv && !changed.contains c && freshOf v c != 1 then
          (if (actOf v c).isPoison then v
            else if wordOk v c (actOf v c) then { v with outs := { v.outs with bad := smapSet noErr v.outs.bad c 0 } }
            else if isBad v c then v else checkWord v c)
        else v
      if conv || changed.contains c then fireConvert v c
      else if wordSafe v c && was (aStkSafe c) != fg v (aStkSafe c) then fireDemand v c
      else v) v
    let v := rgSet v (ra pStk 0x0B8) 0
    { v with outs := { v.outs with
        holdSub := false, extWrote := false
        extCnt := if v.outs.extWrote then 0 else v.outs.extCnt + 1
        extSub := v.outs.extSub && !v.outs.extWrote } }

/-! ### STK registers -/

/-- STK_ACC: clamped to ACCMIN … ACCMAX (R395). -/
def accWrite (v : Vol) (c : Nat) (via : Via) (w : Word) : Vol :=
  let old := rg v (aAcc c)
  let x : Word := match via with | .direct => w | .setBits => old ||| w | .clearBits => old &&& ~~~w
  rgSet v (aAcc c) (wordOfInt (limitInt accMin accMax x.toInt))

/-- A write of an STK register of page 0 (R377, R396): EN 0 stops the firing outputs at the write, not at the next boundary (DESIGN
CHOICE, log entry 120); a budget write restarts its timeout. -/
def stkWrite (v : Vol) (off : Nat) (via : Via) (w : Word) : Vol :=
  let v := regWrite v pStk off via w
  if off = 0x008 ∧ !rb v (aCtl pStk) 0 then stkClear v
  else if 0x050 ≤ off ∧ off < 0x05C then { v with outs := { v.outs with extWrote := true } }
  else v

/-- A write of page 1 (R395). -/
def stk1Write (v : Vol) (off : Nat) (via : Via) (w : Word) : Vol :=
  if 0x240 ≤ off ∧ off < 0x340 then accWrite v ((off - 0x240) / 4) via w else regWrite v (pStk + 1) off via w

/-- STK STAT as read: RUNNING, and a phase locked while Stoker runs is in use (R396). -/
def stkView (v : Vol) (off : Nat) (w : Word) : Word :=
  if off = 0x00C then
    let run := stkRunning v
    w ||| BitVec.ofNat 32 (b2n run + ((List.range 3).map fun p => b2n (run && phaseLocked v p) * 2 ^ (p + 1)).sum)
  else w

/-- Page 1 as read: STK_ACT is the demand in use (R371, R379). -/
def stk1View (v : Vol) (off : Nat) (w : Word) : Word :=
  if 0x140 ≤ off ∧ off < 0x240 then wordOfInt (decisionDemand v ((off - 0x140) / 4)) else w

/-! ### The outputs together -/

/-- Everything the outputs of the motor, valve and GIO blocks show after words, settings, mode or trips changed. -/
def outApply (v : Vol) : Vol :=
  let v := (List.range 8).foldl (fun v m => if ready v (pMot m) then motShow v m else v) v
  let v := (List.range 48).foldl valveApply v
  gioApply v

/-- The outputs at a boundary (R40 step 2, R361, R363, R371, R386-R392, R631): inputs and flow counters are latched;
words of committed channels become active, then the settings take effect; trips released since the last boundary let
go; committed flow-counter clears apply, and edges of the boundary cycle count after them. In SAFE no commit applies (R53). -/
def outBoundary (v : Vol) : Vol :=
  let v := gioLatch v
  let owner (i : Nat) : Nat := outOwner v i
  let owners := outWords.map owner
  let by' (i : Nat) : Nat := owners.getD i 15
  let oldForce := v.outs.force
  let v := { v with outs := { v.outs with force := smapKeep isForceReg v.regs } }
  let safe := v.sys.mode == .safe
  let step (acc : Vol × List Nat) (i : Nat) : Vol × List Nat :=
    let r := copyWord by' acc.1 i
    (r.1, if r.2 then acc.2 ++ [i] else acc.2)
  let r := if safe then (v, []) else outWords.foldl step (v, [])
  let v := r.1
  let v := stkBoundary v (r.2.filter (· < 64)) oldForce
  let v := { v with outs := { v.outs with held := tripWanted v } }
  let v := (List.range 8).foldl motBoundary v
  let cleared (k : Nat) : Bool :=
    let i := 208 + k
    !safe && follows v 3 && wordDue v (by' i) && !isBad v i && (actOf v i).data != 0
  outApply ((List.range 48).foldl (fun v k =>
    if cleared k then { v with outs := { v.outs with flow := smapSet (fun _ => 0) v.outs.flow k 0 } } else v) v)

/-- SAFE forces every output at once (R364): Stoker stops, groups, valves and pins take their safe values. -/
def outForceSafe (v : Vol) : Vol := outApply (stkClear v)

/-- An exit from SAFE (R558): every committed copy of a control-core channel is cleared and its output keeps its safe value
until a word committed after the exit comes; the next word of every channel is checked (R363). -/
def outExitSafe (v : Vol) : Vol :=
  outWords.foldl (fun v i =>
    let cc := decide (outOwner v i < 8)
    let v := { v with outs := { v.outs with
        comm := if cc then smapSet sramBlank v.outs.comm i TWord.zero else v.outs.comm
        fresh := smapSet noErr v.outs.fresh i (if cc then 1 else 2) } }
    if cc && decide (i < 64) then fireDemand v i else v) v

/-- A reset or a power loss of the block whose page is p: its channel words, settings in force and units return to reset. -/
def outReset (v : Vol) (p : Nat) : Vol :=
  let keepW (i : Nat) : Bool := outPage i != p
  let inPages (a : Nat) : Bool := blockPage ((a - 0x40000000) / 0x1000) == p
  let o := v.outs
  let stk := p == pStk
  let m := p - pMot 0
  let mot := decide (pMot 0 ≤ p) && decide (p ≤ pMot 7)
  { v with outs := { (if mot then (motStart v m).outs else o) with
      pend := smapKeep keepW o.pend, comm := smapKeep keepW o.comm, act := smapKeep keepW o.act
      fresh := smapKeep keepW o.fresh, bad := smapKeep keepW o.bad
      force := smapKeep (fun a => !inPages a) o.force
      motSet := smapKeep (fun a => !inPages a) o.motSet
      vlvAt := smapKeep (fun x => pVlv (x / 24) != p) o.vlvAt
      flow := if p = pGio then [] else o.flow
      glast := if p = pGio then 0 else o.glast
      live := if p = pGio then o.live ^^^ invertedPins v else o.live
      inDue := if p = pGio then [] else o.inDue
      fireOn := if stk then 0 else o.fireOn, armed := if stk then 0 else o.armed, due := if stk then [] else o.due
      offAt := if stk then [] else o.offAt
      onrun := if stk then [] else o.onrun, offrun := if stk then [] else o.offrun
      extWrote := o.extWrote && !stk, extSub := o.extSub && !stk, extCnt := if stk then 0 else o.extCnt
      holdSub := o.holdSub && !stk, missed := if stk then BitVec.ofNat 3 (7 - rf v (aStat pMns) 2 0) else o.missed
      phases := if p = pMns then List.replicate 3 ⟨none, none, none, 0, false⟩ else o.phases } }

end Sys2Proof.Machine
end

