-- ==== Sys2Proof/Machine/MeaOps.lean ====
section
/-! DEFINITION. The measurement array (R315-R343): windows, the conversion chain, cold junctions, curve memory and the
boundary's latch. -/

namespace Sys2Proof.Machine

def meaOf (v : Vol) (b : Nat) : Mea := smapGet (fun _ => Mea.reset) v.mea b
def setMea (v : Vol) (b : Nat) (m : Mea) : Vol := { v with mea := smapSet (fun _ => Mea.reset) v.mea b m }

/-- A register of channel i of block b. -/
abbrev aChan (b i off : Nat) : Nat := ra (pMea b) (off + 0x40 * i)

/-! ### The factory record (R328) -/

/-- Word w of the OTP factory record of block b. -/
def factAddr (b w : Nat) : Nat := 0x1080800 + 512 * b + 4 * w

def factWord (m : Mea) (w : Nat) : Word := smapGet (fun _ => 0) m.fact w

/-! ### The window's capture (R324) -/

/-- Whether a register of a block is captured at the start of a window: of CTL only EXINH counts. -/
def meaCaptured (o : Nat) : Bool :=
  o = 0x008 || o = 0x058 || (0x100 ≤ o && o < 0x300 && o % 0x40 < 0x18)

/-- A captured setting. -/
def capOf (m : Mea) (a : Nat) : Word := smapGet regReset (m.cap.getD []) a

/-- Whether channel i is the odd channel of an RTD3 pair (R318). -/
def isPartner (m : Mea) (b i : Nat) : Bool :=
  i % 2 == 1 && (let c := capOf m (aChan b (i - 1) 0x100); bit c 31 && fld c 3 0 == 4)

/-- Whether the block's excitation feeds a channel (R425): its mode is RTD2, RTD3, RTD4, COND or TC. VOLT, BRIDGE and LOOP channels
are not affected by a change of it. -/
def excited (m : Mea) (b i : Nat) : Bool := [2, 3, 4, 5, 7].contains (fld (capOf m (aChan b i 0x100)) 3 0)

/-- What a change of which makes the next two samples POISON (R324, R359, R425): MODE, GAIN, EXI, EN, EXINH on the channels that the
excitation feeds, and whether an RTD3 pair consumes the channel. -/
def settleKey (m : Mea) (b i : Nat) : Word × Word × Bool :=
  (capOf m (aChan b i 0x100) &&& 0x8000077F, if excited m b i then capOf m (aCtl (pMea b)) &&& 4 else 0, isPartner m b i)

/-- The next two samples of every channel of a block are POISON (R324). -/
def settleAll (m : Mea) : Mea := { m with settle := (List.range 8).map fun i => (i, 2) }

/-- Capture the settings at the start of a window. -/
def meaCapture (v : Vol) (b : Nat) : Vol :=
  let m := meaOf v b
  let new : SMap Word := smapKeep (fun a => (a - 0x40000000) / 0x1000 == pMea b && meaCaptured (a % 0x1000)) v.regs
  let m' := { m with cap := some new }
  let settle := (List.range 8).foldl (fun s i =>
    if m.cap.isNone || settleKey m b i != settleKey m' b i then smapSet noErr s i 2 else s) m.settle
  setMea v b { m' with settle := settle }

/-- A block reads its record after its reset, and is then READY, its first window begun while the tick generator runs (R328, R10, R324): a
record that fails its check sets FAULT.CAL and raises block event 8. -/
def meaFactory (nv : Nv) (v : Vol) (b : Nat) : Vol :=
  if !domUp v (pageDom (pMea b)) || !v.resetting.contains (pMea b) then v
  else
    let ws := (List.range 128).map fun w => flashWord nv (factAddr b w)
    let readable := (List.range 32).all fun u => decide (smapGet noErr nv.unitErr (factAddr b (4 * u)) < 2)
    let ok := readable && crc32c (bytesOf (ws.take 127)) == ws.getD 127 0
    let fact := ws.zipIdx.foldl (fun m (p : Word × Nat) => smapSet (fun _ => 0) m p.2 p.1) []
    let v := { v with resetting := v.resetting.filter (· != pMea b) }
    let v := setMea v b { Mea.reset with fact := fact, calOk := ok }
    let v := if v.tick.running then meaCapture v b else v
    if ok then rgOr v (aStat (pMea b)) 2
    else raiseEvent (setFault (rgClr v (aStat (pMea b)) 2) (pMea b) 4) (pMea b) 8

/-- The tick generator starts (R58, R324, R359): a window begins in every block that is READY. -/
def meaStart (v : Vol) : Vol := (List.range 24).foldl (fun v b => if ready v (pMea b) then meaCapture v b else v) v

/-! ### Decimation (R320, R323) -/

/-- An integer near a quotient: exact where it is one, else a neighbour that the spec leaves free (log entry 14). -/
def nearQuotient (n : Int) (d : Nat) : Int :=
  if d = 0 then 0
  else if n.emod d = 0 then n / d
  else n.fdiv d + (if Config.decimatorRoundsUp n d then 1 else 0)

/-- The triangle-weighted mean of the kept samples (R323). -/
def triangleMean (xs : List Int) : Int :=
  let m := xs.length
  let w (j : Nat) : Nat := min (j + 1) (m - j)
  nearQuotient (xs.zipIdx.foldl (fun s (p : Int × Nat) => s + p.1 * (w p.2 : Int)) 0) ((List.range m).map w).sum

/-- Half the difference of the means of the two halves, each without its first 4 samples (R320). -/
def reversalCode (xs : List Int) : Int :=
  let h := xs.length / 2
  let p := (xs.take h).drop 4
  let n := (xs.drop h).drop 4
  nearQuotient (p.sum * n.length - n.sum * p.length) (2 * p.length * n.length)

/-- The signed 24-bit code D. -/
def clampCode (d : Int) : Int := limitInt (-8388608) 8388607 d

/-! ### The chain (R326-R334) -/

/-- Nominal excitation currents in nA and shunts in Ω (R317). -/
def nominalCurrent (e : Nat) : Nat := [0, 10000, 20000, 50000, 100000, 200000, 500000, 1000000].getD e 0
def shuntOhms (e : Nat) : Option Nat :=
  if e = 1 then some 50 else if e = 2 then some 100 else if e = 3 then some 125 else if e = 4 then some 250 else none

/-- round(n / d) for a possibly negative d; none for d = 0 (R630). -/
def roundQ (n d : Int) : Option Int :=
  if d = 0 then none else if 0 < d then some (roundHalf n d.toNat) else some (roundHalf (-n) (-d).toNat)

/-- X of a mode from the calibrated code (R329): V is d1 x 2.5 x 10^9 / (G x 2^23) nV, cur the excitation in nA. -/
def formX (mode g : Nat) (d1 : Int) (cur shunt : Nat) : Option Int :=
  let vn : Int := d1 * 2500000000
  let vd : Int := g * 8388608
  if mode = 1 ∨ mode = 2 then roundQ vn (2 * vd)
  else if mode = 8 then roundQ vn (vd * shunt)
  else if mode = 6 then some (d1 * 128 / g)
  else if mode = 7 then roundQ (cur * 1000000000 * vd) vn
  else roundQ (vn * 100000) (vd * cur)

def inWord (x : Int) : Bool := decide (-2147483648 ≤ x) && decide (x ≤ 2147483647)

/-- Whether the input or X lies beyond the span of its mode (R316, R334): the modes but COND and LOOP span the full scale of
the code, resistance and conductance are not negative, resistance ends at 21 474 Ω, a loop current spans 0 to 25 mA (log entry 82). -/
def xBeyond (mode : Nat) (d1 x : Int) : Bool :=
  let rtd := mode == 3 || mode == 4 || mode == 5
  !inWord x || (decide (mode ≤ 6) && decide (8388608 < d1.natAbs)) || ((rtd || mode == 7) && decide (x < 0))
    || (rtd && decide (2147400000 < x)) || (mode == 8 && (decide (x < 0) || decide (25000000 < x)))

/-- The curve-memory reader from word index base (R331). -/
def curveRd (m : Mea) (base i : Nat) : Option Word :=
  if base + i < 1024 then some (smapGet (fun _ => 0) m.curve (base + i)) else none

/-- How linearisation ends (R331, R332). -/
inductive LinEnd where
  | ok (y : Int) (tag : Tag)
  | cause (c : Nat)
  deriving DecidableEq, Repr

/-- A table's outcome as a value or a cause: TABLE for its faults, CURVE for a POISON result (R331). -/
def linOf : TblEnd → LinEnd
  | .ok y _ => if y.isPoison then .cause 10 else .ok y.data.toInt y.tag
  | .tagFault | .tableFault => .cause 9

/-- The junction temperature of a TC channel in m°C (R336): a sensor, or a channel of the block that carries TEMP. -/
def junction (cfg : Word) (i : Nat) (cj : Int × Int) (fail : Bool × Bool) (res : Nat → Option TWord) : Option Int :=
  match fld cfg 23 22 with
  | 0 => if fail.1 then none else some cj.1
  | 1 => if fail.2 then none else some cj.2
  | _ =>
    let ch := fld cfg 26 24
    if ch = i then none
    else
      match res ch with
      | some w => if w.tag == Tag.temp then some w.data.toInt else none
      | none => none

/-- What a block's window gives all its channels; `en` is CTL.EN. `last` is D, X′ and the measured current as each channel's registers show
them: a window that forms none leaves them as they are (log entry 83). -/
structure WinCtx where
  m      : Mea
  inp    : BlockInput
  cj     : Int × Int
  refBad : Bool
  en     : Bool
  shunt  : Nat
  freeX  : Int
  last   : List (Int × Int × Nat)

/-- Convert channel i in the fixed order of R326. `res` answers a cold-junction channel's word. -/
def convertChan (w : WinCtx) (b i : Nat) (res : Nat → Option TWord) : MeaRes :=
  let cap (o : Nat) : Word := capOf w.m (aChan b i o)
  let cfg := cap 0x100
  let ctl := capOf w.m (aCtl (pMea b))
  let mode := fld cfg 3 0
  let exi := fld cfg 10 8
  let c : ChanInput := w.inp.chans.getD i ⟨[], false, 0, true⟩
  let l := w.last.getD i (0, 0, 0)
  let poisonRes (cause seen : Nat) (raw x : Int) (ex : Nat) (ln : Bool) : MeaRes := ⟨TWord.poison, cause, seen, raw, x, ex, ln⟩
  let off := !w.en || !(isPartner w.m b i || (bit cfg 31 && mode != 0))
  let common : List (Bool × Nat) :=
    [(off, 1), (isPartner w.m b i, 2), (smapGet noErr w.m.settle i != 0, 3), (w.refBad, 4)]
  let bits (cs : List (Bool × Nat)) : Nat := ((cs.filter fun p => p.1).map fun p => 2 ^ p.2).sum
  if off then poisonRes 1 (bits common) l.1 l.2.1 l.2.2 false
  else if isPartner w.m b i then poisonRes 2 (bits common) l.1 l.2.1 l.2.2 false
  else
    let inh := bit ctl 2
    let g := 2 ^ fld cfg 6 4
    let excited := mode == 3 || mode == 4 || mode == 5 || mode == 7
    let ec := if inh || exi == 0 then 0 else sfld (factWord w.m (14 * i + 6 + exi)) 31 16
    let cur := (roundHalf (nominalCurrent exi * (1048576 + ec)) 1048576).toNat
    let total := c.samples.length
    let bo := capOf w.m (ra (pMea b) 0x058)
    let drop := if mode = 2 ∧ !inh then min (fld bo 7 0) (total / 4) else 0
    let d := clampCode (if mode = 7 then reversalCode c.samples else triangleMean (c.samples.take (total - drop)))
    let gw := factWord w.m (14 * i + fld cfg 6 4)
    let d1 := roundHalf ((d - sfld gw 15 0) * (1048576 + sfld gw 31 16)) 1048576
    let xo := formX mode g d1 cur ((shuntOhms exi).getD w.shunt)
    let burnt := mode == 2 && !inh && decide (4000 * fld bo 23 16 < smapGet noErr w.m.burn i)
    let noComp := excited && !inh && !c.compliance
    let offCur := excited && !inh && c.compliance
      && decide (cur < (if c.exMeasured < cur then cur - c.exMeasured else c.exMeasured - cur) * 100)
    let x := xo.getD w.freeX
    let ovl := c.overload || decide (8388608 - 4096 ≤ d.natAbs) || xo.isNone || xBeyond mode d1 x
      || (mode == 8 && decide (21000000 < x))
    let opn := burnt || noComp || (mode == 8 && xo.isSome && decide (x < 3600000))
    let x1 := ((x - (cap 0x104).toInt) * ((cap 0x108).toNat : Int)).fdiv 16777216
    let haveX := xo.isSome && inWord x && inWord x1
    let shown := if inWord x && inWord x1 then x1 else w.freeX
    let ovl := ovl || (xo.isSome && inWord x && !inWord x1)
    let tj := if mode = 2 then junction cfg i w.cj (w.inp.cjFail0, w.inp.cjFail1) res else some 0
    let lin := cap 0x10C
    let yo : LinEnd :=
      if !haveX then .cause 0
      else if !bit lin 31 then .ok x1 (cfg.extractLsb' 16 4)
      else
        let main (e : Int) : LinEnd :=
          if inWord e then linOf (curveEval (curveRd w.m (fld lin 9 0)) true ⟨wordOfInt e, Tag.raw⟩) else .cause 7
        if mode = 2 then
          match tj with
          | none => .cause 0
          | some t =>
            match linOf (curveEval (curveRd w.m (fld lin 25 16)) false ⟨wordOfInt t, Tag.temp⟩) with
            | .ok cv _ => main (x1 + cv)
            | .cause k => .cause k
        else main x1
    let act := fld cfg 21 20
    let beyond := match yo with
      | .ok y _ => act != 0 && (decide (y < (cap 0x110).toInt) || decide ((cap 0x114).toInt < y))
      | .cause _ => false
    let causes : List (Bool × Nat) := common ++
      [(offCur, 5), (opn, 6), (ovl || yo == .cause 7, 7), (tj.isNone, 8),
        (yo == .cause 9, 9), (yo == .cause 10, 10), (beyond && act == 2, 11)]
    let on := causes.filter fun p => p.1
    let seen := bits causes
    let ex := if excited then c.exMeasured else l.2.2
    match on, yo with
    | [], .ok y t =>
      if t == Tag.poison then poisonRes 0 0 d shown ex true
      else ⟨⟨wordOfInt y, t⟩, 0, 0, d, x1, ex, beyond⟩
    | [], .cause k => poisonRes k 0 d shown ex true
    | (_, k) :: _, _ => poisonRes k seen d shown ex true

/-- The word of channel i with the channels it depends on converted first (R336); the fuel ends a circle of cold-junction
channels, which have no word. -/
def chanWord (w : WinCtx) (b : Nat) : Nat → Nat → MeaRes
  | 0, i => convertChan w b i fun _ => none
  | f + 1, i => convertChan w b i fun j => some (chanWord w b f j).word

/-- The fuel that channel i needs: how long its chain of cold-junction channels is, 8 when it closes a circle. -/
def chainLen (m : Mea) (b : Nat) : Nat → Nat → Nat
  | 0, _ => 0
  | f + 1, i =>
    let cfg := capOf m (aChan b i 0x100)
    if fld cfg 3 0 = 2 ∧ fld cfg 23 22 = 2 ∧ fld cfg 26 24 ≠ i then 1 + chainLen m b f (fld cfg 26 24) else 0

/-- A cold-junction sensor after its factory words, offset in µ°C and gain 1 + value / 2^24, and MEA_CJOFS, in m°C (R328, R336;
log entry 40). -/
def coldJunction (v : Vol) (m : Mea) (b s : Nat) (raw : Int) : Int :=
  let o := (factWord m (112 + 2 * s)).toInt
  let g := 16777216 + (factWord m (113 + 2 * s)).toInt
  let n := if Config.coldOffsetFirst then (raw + o) * g else raw * g + o * 16777216
  n.fdiv 16777216000 + (if n.emod 16777216000 = 0 then 0 else if Config.coldJunctionUp n then 1 else 0)
    + (rg v (ra (pMea b) (0x048 + 4 * s))).toInt

/-- The chain of one window of block b (R322-R339) for the channels of a mask: their results wait for the boundary; the faults and
block events of the window occur. -/
def meaConvert (v : Vol) (b mask : Nat) (inp : BlockInput) : Vol :=
  let v := if (meaOf v b).cap.isNone then meaCapture v b else v
  let m := meaOf v b
  let p := pMea b
  let bad := decide (rf v (ra p 0x054) 15 0 < inp.refPpm)
  let cj := (coldJunction v m b 0 inp.cj0, coldJunction v m b 1 inp.cj1)
  let last := (List.range 8).map fun i =>
    ((rg v (aChan b i 0x120)).toInt, (rg v (aChan b i 0x124)).toInt, (rg v (aChan b i 0x128)).toNat)
  let en := rb v (aCtl p) 0
  let w : WinCtx := ⟨m, inp, cj, bad || !m.calOk, en, Config.reservedShunt v.free, (Config.undefinedX v.free).toInt, last⟩
  let v := nextFree v
  let res := (List.range 8).map fun i =>
    let n := chainLen m b 8 i
    if n = 8 then convertChan w b i fun _ => none else chanWord w b n i
  let uses (s : Nat) : Bool := (List.range 8).any fun i =>
    let cfg := capOf m (aChan b i 0x100)
    mask.testBit i && en && !isPartner m b i && bit cfg 31 && fld cfg 3 0 == 2 && fld cfg 23 22 == s
  let win := (inp.chans.map fun c => c.samples.length).foldr max 0
  let v := if bad then raiseEvent (setFault v p 0) p 8 else v
  let v := if inp.cjFail0 && uses 0 then raiseEvent (setFault v p 1) p 9 else v
  let v := if inp.cjFail1 && uses 1 then raiseEvent (setFault v p 2) p 10 else v
  let v := if res.zipIdx.any fun r => mask.testBit r.2 && r.1.seen.testBit 9 then raiseEvent (setFault v p 3) p 11 else v
  setMea v b { m with
    next := some res, nextCj := cj, nextWin := win, burn := []
    settle := (List.range 8).foldl (fun s i => if mask.testBit i then smapSet noErr s i (smapGet noErr s i - 1) else s) m.settle
    nextRef := BitVec.ofNat 32 (b2n (!bad) * 2 ^ 31 + inp.refPpm % 65536) }

/-- The latch of one channel's result (R40, R335, R354). -/
def meaLatchChan (b : Nat) (v : Vol) (i : Nat) (r : MeaRes) : Vol :=
  let a (o : Nat) : Nat := aChan b i o
  let v := rgSet v (a 0x118) r.word.data
  let st := (rg v (a 0x11C) &&& 0xFFE) ||| BitVec.ofNat 32 (r.seen % 4096 + r.cause * 65536 + r.word.tag.toNat * 2 ^ 28)
  let v := rgSet v (a 0x11C) st
  let v := rgSet v (a 0x120) (wordOfInt r.raw)
  let v := rgSet v (a 0x124) (wordOfInt r.x)
  let v := rgSet v (a 0x128) (BitVec.ofNat 32 r.ex)
  let v := if r.word.isPoison then rgIncSat v (a 0x12C) 32 else v
  let m := meaOf v b
  let was := m.lines.getLsbD i
  let b8 : BitVec 8 := BitVec.ofNat 8 (2 ^ i)
  let v := setMea v b { m with lines := if r.line then m.lines ||| b8 else m.lines &&& ~~~b8 }
  raiseIf (r.line && !was) v (pMea b) i

/-- The boundary's latch of block b (R40, R335, R354): of the channels that a mask names. -/
def meaLatch (v : Vol) (b mask : Nat) : Vol :=
  let m := meaOf v b
  match m.next with
  | none => v
  | some res =>
    let p := pMea b
    let v := setMea v b { m with next := none }
    let v := rgSet (rgSet v (ra p 0x040) (wordOfInt m.nextCj.1)) (ra p 0x044) (wordOfInt m.nextCj.2)
    let v := rgSet (rgSet v (ra p 0x050) m.nextRef) (ra p 0x068) (BitVec.ofNat 32 (m.nextWin % 512))
    (res.zipIdx.filter fun r => mask.testBit r.2).foldl (fun v r => meaLatchChan b v r.2 r.1) v

/-- The window's end of block b: the chain runs and the next window's settings are captured (R322, R324). It runs while
the tick generator does (R359). -/
def meaWindow (v : Vol) (b : Nat) (inp : BlockInput) : Vol :=
  if !ready v (pMea b) || !v.tick.running then v else meaCapture (meaConvert v b 0xFF inp) b

/-- A wake conversion in BANKED (R343): the channels of CHMASK, latched at once. -/
def meaWake (v : Vol) (b : Nat) (inp : BlockInput) : Vol :=
  let w := ra (pMea b) 0x064
  if v.sys.mode == .banked && ready v (pMea b) && rb v w 31 then
    let mask := rf v w 23 16
    meaLatch (meaConvert (meaCapture v b) b mask inp) b mask
  else v

/-- A setting that the present window of block b uses: a wake window's are the registers' (R324, R343). -/
def meaSetting (v : Vol) (b a : Nat) : Word := if v.sys.mode == .banked then rg v a else capOf (meaOf v b) a

/-- The burnout pulse of a TC channel: the input voltage in its last sample, in µV (R337). -/
def meaBurnout (v : Vol) (b i microvolts : Nat) : Vol :=
  let m := meaOf v b
  let cfg := meaSetting v b (aChan b i 0x100)
  if ready v (pMea b) && bit cfg 31 && fld cfg 3 0 == 2 && !bit (meaSetting v b (aCtl (pMea b))) 2 && rb v (aCtl (pMea b)) 0 then
    setMea v b { m with burn := smapSet noErr m.burn i microvolts }
  else v

/-- The tagged word of channel n as latched; POISON while its block is down (R60, R359). -/
def meaWord (v : Vol) (n : Nat) : TWord :=
  let b := n / 8
  if ready v (pMea b) then ⟨rg v (aChan b (n % 8) 0x118), (rg v (aChan b (n % 8) 0x11C)).extractLsb' 28 4⟩ else TWord.poison

/-! ### Registers -/

/-- After an access of MEA_CRVDATA: IDX advances modulo 1024 when AINC is 1 (R341). -/
def curveAdvance (v : Vol) (b : Nat) : Vol :=
  let a := ra (pMea b) 0x05C
  if rb v a 31 then rfSet v a 9 0 (rf v a 9 0 + 1) else v

def curveIdx (v : Vol) (b : Nat) : Nat := rf v (ra (pMea b) 0x05C) 9 0
def curveWord (v : Vol) (b : Nat) : Word := smapGet (fun _ => 0) (meaOf v b).curve (curveIdx v b)

/-- MEA_CFG: a write of RTD3 to an odd channel, or of a reserved shunt in the LOOP mode that the write leaves, is a reserved code (R316,
R317, R14). -/
def meaCfgWrite (v : Vol) (b i : Nat) (via : Via) (w : Word) : Vol :=
  let off := 0x100 + 0x40 * i
  let a := ra (pMea b) off
  let old := rg v a
  let v' := regWrite v (pMea b) off via w
  let new := rg v' a
  let bad1 := fld new 3 0 == 4 && i % 2 == 1
  let v' := if bad1 then rfSet v' a 3 0 (fld old 3 0) else v'
  let bad2 := rf v' a 3 0 == 8 && (shuntOhms (fld new 10 8)).isNone
  let v' := if bad2 then rfSet v' a 10 8 (fld old 10 8) else v'
  if bad1 || bad2 then rgOr v' (aStat (pMea b)) (bitWord 30) else v'

/-- A write of an MEA register. -/
def meaWrite (v : Vol) (b off : Nat) (via : Via) (w : Word) : Vol :=
  if off = 0x060 then
    let m := meaOf v b
    let old := curveWord v b
    let x : Word := match via with | .direct => w | .setBits => old ||| w | .clearBits => old &&& ~~~w
    curveAdvance (setMea v b { m with curve := smapSet (fun _ => 0) m.curve (curveIdx v b) x }) b
  else if 0x100 ≤ off ∧ off < 0x300 ∧ off % 0x40 = 0 then tripEval (meaCfgWrite v b ((off - 0x100) / 0x40) via w)
  else if off = 0x008 then
    let v' := regWrite v (pMea b) off via w
    tripEval (if rb v' (aCtl (pMea b)) 0 == rb v (aCtl (pMea b)) 0 then v' else setMea v' b (settleAll (meaOf v' b)))
  else regWrite v (pMea b) off via w

/-- MEA registers as read: CRVDATA, and STAT.CONV (R354, R355). -/
def meaView (v : Vol) (b off : Nat) (w : Word) : Word :=
  if off = 0x060 then curveWord v b
  else if off = 0x00C then w ||| BitVec.ofNat 32 (b2n (ready v (pMea b) && rb v (aCtl (pMea b)) 0 && v.tick.running))
  else w

def meaOnRead (v : Vol) (b off : Nat) : Vol := if off = 0x060 then curveAdvance v b else v

end Sys2Proof.Machine
end

