-- ==== Sys2Proof/Machine/TickOps.lean ====
section
/-! DEFINITION. The tick generator (R40-R78): its double-buffered settings, the length of a tick under each source, the
sample drop, Kerf accounting and overrun. Boundary.lean puts the parts of a boundary in order. -/

namespace Sys2Proof.Machine

abbrev aTick (off : Nat) : Nat := ra pTick off

/-- An active copy of the tick page (R55). -/
def ta (v : Vol) (off : Nat) : Word := smapGet regReset v.tick.act (aTick off)
def taf (v : Vol) (off hi lo : Nat) : Nat := fld (ta v off) hi lo

/-- Whether a register of the tick page is double-buffered (R55). -/
def tickBuffered (off : Nat) : Bool :=
  (0x040 ≤ off && off < 0x064) || off == 0x088 || (0x0A0 ≤ off && off < 0x0C0) || (0x140 ≤ off && off < 0x160)
    || (0x200 ≤ off && off < 0x2C0)

def setTick (v : Vol) (f : Tick → Tick) : Vol := { v with tick := f v.tick }

/-- Whether core k takes part in the tick (TICK_CORES in force, R53, R72). -/
def takesPart (v : Vol) (k : Nat) : Bool := bit (ta v 0x088) k

/-! ### DROP and the minimum of R61 -/

/-- Whether channel n is routed to core k by the routes that `get` reads (R59). -/
def routed (get : Nat → Word) (k n : Nat) : Bool := bit (get (0x200 + 4 * (n / 4))) (8 * (n % 4) + k)

/-- The words that a drop writes for core k (R60). -/
def dropWords (get : Nat → Word) (k : Nat) : Nat :=
  let c := get (0x140 + 4 * k)
  if !bit c 0 then 0
  else (List.range 192).countP (routed get k) + if bit c 1 then 52 else 0

/-- TICK_DROPMIN for the settings that `get` reads and the divider sets in `div` (R61). -/
def dropMinOf (v : Vol) (get : Nat → Word) (div : Word) : Nat :=
  let w := ((List.range 8).map (dropWords get)).foldr max 0
  let base := 40 + 2 * w * (max (fld div 1 0) (fld div 17 16) + 1)
  if fld (get 0x040) 2 0 = 2 then max base (rf v (ra pYok 0x048) 10 0) else base

/-- TICK_DROPMIN of the pending copy (R61, R75). -/
def dropMin (v : Vol) : Nat := dropMinOf v (fun o => rg v (aTick o)) (rg v (ra pClk 0x044))

/-! ### APPLY (R55, R56) -/

/-- Whether the pending copy passes the check of R56. -/
def applyOk (v : Vol) : Bool :=
  let p (off hi : Nat) : Nat := rf v (aTick off) hi 0
  decide (dropMin v ≤ p 0x048 13) && decide (p 0x054 18 ≤ p 0x044 18) && decide (p 0x044 18 ≤ p 0x058 18)
    && (List.range 8).all fun k =>
      !rb v (aTick 0x088) k || decide (p 0x048 13 + 3 + p (0x0A0 + 4 * k) 18 + p 0x04C 18 ≤ p 0x054 18)

/-- The selected source is armed afresh (R52, R54): it has yet to come into phase, and MAINS waits for a complete cycle. -/
def armSource (v : Vol) : Vol :=
  rgClr (setTick v fun t => { t with inPhase := 0, mainsLeft := 0, mainsLong := 0, mainsZc := some v.now }) (aStat pTick) 0x12

/-- The check of an apply: the pending copy becomes active, or is refused whole (R56). An apply that takes effect arms the source
when it has been lost or another one is selected (R52): another SEL, or under MAINS another phase. A source in use goes on in
phase. One refused arms nothing (DESIGN CHOICE, log entry 95). -/
def applyCheck (v : Vol) : Vol :=
  let v := rgClr (rgClr v (aCtl pTick) 2) (aStat pTick) 8
  if applyOk v then
    let get (a : Nat) : Bool := decide (aTick 0x040 ≤ a) && decide (a < aTick 0x400) && tickBuffered (a - aTick 0)
    let old := ta v 0x040
    let v := setTick v fun t => { t with act := smapKeep get v.regs }
    let v := { v with tick := { v.tick with act := smapSet regReset v.tick.act (aTick 0x040) (ta v 0x040 &&& 0x37) } }
    let sel := taf v 0x040 2 0
    let other := fld old 2 0 != sel || (sel == 3 && fld old 5 4 != taf v 0x040 5 4)
    let v := if rb v (aStat pTick) 4 || other then armSource v else v
    raiseEvent v pTick 6
  else raiseEvent (setFault v pTick 17) pTick 5

/-! ### Sources (R46-R54) -/

/-- The source in use: SEL in force, INT in WARM (R53) and while STAT.FALLBACK is 1 (R52). -/
def tickSource (v : Vol) : Nat :=
  if v.sys.mode == .warm || rb v (aStat pTick) 4 then 0 else taf v 0x040 2 0

/-- Loss of the source (R52): the tick in progress ends at the last boundary + TICK_PERIOD or in the next cycle; before the first
boundary no tick is in progress, and that boundary stays 64 c behind the start (R54). -/
def sourceLoss (v : Vol) : Vol :=
  let v := setTick v fun t =>
    { t with next := if t.first then t.next else max (t.boundary + taf v 0x044 18 0) (v.now + 1), inPhase := 0 }
  let v := rgClr (rgOr v (aStat pTick) 16) (aStat pTick) 2
  let v := rfSet v (aTick 0x040) 10 8 0
  raiseEvent (setFault v pTick 16) pTick 3

/-- PTP reports loss of synchronisation (R52, R573) between two states: the source is lost when it is PTP. -/
def ptpLossNoted (v v' : Vol) : Vol :=
  if v'.tick.running && tickSource v' == 1 && rb v (aStat pPtp) 0 && !rb v' (aStat pPtp) 0 then sourceLoss v' else v'

/-- A boundary comes under YOKE without its marker (R52, R424): the source is lost. -/
def markMissing (v : Vol) : Bool := tickSource v == 2 && !v.tick.first && !v.yok.sof

/-- When MAINS is lost for want of a rising crossing (R52): 1.25 N TICK_PERIOD cycles after the last one since the source was
armed. -/
def mainsDeadline (v : Vol) : Nat :=
  let last := max (((phaseOf v (taf v 0x040 5 4)).rise).getD 0) (v.tick.mainsZc.getD 0)
  last + (5 * taf v 0x050 9 0 * taf v 0x044 18 0 + 3) / 4

/-- SOURCE_LOST (R52): the source in use is lost, at the time that its rule gives; PTP only while it is not synchronised, YOKE
only while the marker has not come. -/
def sourceLost (v : Vol) : Vol :=
  if !ready v pTick || !v.tick.running then v
  else
    match tickSource v with
    | 1 => if rb v (aStat pPtp) 0 then v else sourceLoss v
    | 2 => if markMissing v then sourceLoss { v with now := max v.now v.tick.next } else v
    | 3 => sourceLoss { v with now := max v.now (mainsDeadline v) }
    | _ => v

/-- A signed remainder nearest zero. -/
def nearRem (x : Int) (m : Nat) : Int :=
  if m = 0 then 0
  else
    let r := x.emod m
    if 2 * r < m then r else r - m

/-- The phase error against PTP time in half nanoseconds, a fifth of a cycle each (R48): positive when the boundary lies late. -/
def ptpPhase (v : Vol) : Int := nearRem (2 * ((ptpNanos v : Int) - (ta v 0x060).toNat)) (5 * taf v 0x044 18 0)

/-- The next tick under PTP (R48, R51), with LOCKED after 16 boundaries within 25 ns. TICK_PHERR and the slew take the error in
whole cycles, rounded down (log entry 57). -/
def ptpLength (v : Vol) : Vol × Nat :=
  let x := ptpPhase v
  let err := x.fdiv 5
  let v := rgSet v (aTick 0x064) (wordOfInt err)
  let near := decide (-50 ≤ x) && decide (x ≤ 50)
  let n := if near then min 16 (v.tick.inPhase + 1) else 0
  let v := setTick v fun t => { t with inPhase := n }
  let v :=
    if n = 16 then (if rb v (aStat pTick) 1 then v else raiseEvent (rgOr v (aStat pTick) 2) pTick 4)
    else if near then v else rgClr v (aStat pTick) 2
  let slew : Int := taf v 0x05C 7 0
  let len := (taf v 0x044 18 0 : Int) - limitInt (-slew) slew err
  (v, (limitInt (taf v 0x054 18 0) (taf v 0x058 18 0) len).toNat)

/-- The length of the last mains cycle of TICK_SRC.MPHASE, when it was measured whole after the source was armed (R50, R54). -/
def mainsCycle (v : Vol) : Option (Nat × Nat) :=
  let p := taf v 0x040 5 4
  match (phaseOf v p).rise with
  | none => none
  | some r =>
    let m := rf v (mnsReg 0x050 p) 23 0
    if m ≠ 0 ∧ (v.tick.mainsZc.getD 0) + m ≤ r then some (r, m) else none

/-- The next tick under MAINS (R50-R52); none when the length, of a mains cycle that opens or of one of its later ticks, falls
outside the bounds in force. The error e is taken to the nearest crossing, so it lies within half a mains cycle (DESIGN CHOICE, log
entry 123). LOCKED sets, with event 4, at
the boundary that opens a mains cycle with an error of at most 10 c, and clears at one with a larger error: the spec gives MAINS
no count (DESIGN CHOICE, log entry 96). -/
def mainsLength (v : Vol) : Vol × Option Nat :=
  if 0 < v.tick.mainsLeft then
    let long := decide (0 < v.tick.mainsLong)
    let len := v.tick.mainsLen + b2n long
    if len < taf v 0x054 18 0 ∨ taf v 0x058 18 0 < len then (v, none)
    else (setTick v fun t => { t with mainsLeft := t.mainsLeft - 1, mainsLong := t.mainsLong - 1 }, some len)
  else
    match mainsCycle v with
    | none => (v, some (taf v 0x044 18 0))
    | some (r, m) =>
      let n := taf v 0x050 9 0
      let e := nearRem ((v.now : Int) - r - ((ta v 0x060).toNat * 2 / 5 : Nat)) m
      let lim : Int := taf v 0x05C 7 0 * n
      let e' := limitInt (-lim) lim e
      let total := ((m : Int) - e').toNat
      let base := total / n
      let rem := total % n
      let v := rgSet v (aTick 0x064) (wordOfInt e)
      let near := decide (-10 ≤ e) && decide (e ≤ 10)
      let v := if near then (if rb v (aStat pTick) 1 then v else raiseEvent (rgOr v (aStat pTick) 2) pTick 4)
        else rgClr v (aStat pTick) 2
      let top := base + b2n (decide (0 < rem))
      if base < taf v 0x054 18 0 ∨ taf v 0x058 18 0 < top then (v, none)
      else
        (setTick v fun t => { t with mainsLeft := n - 1, mainsLong := rem - 1, mainsLen := base },
          some (base + b2n (decide (0 < rem))))

/-- A number held between bounds. -/
def limitNat (lo hi x : Nat) : Nat := min hi (max lo x)

/-- The length of the tick that opens now, by the source in use (R46-R53). -/
def tickLength (v : Vol) : Vol × Nat :=
  if v.sys.mode == .warm then (v, 400000)
  else
    let per := taf v 0x044 18 0
    match tickSource v with
    | 1 => ptpLength v
    | 2 =>
      let n := if v.yok.markLen = 0 then per else v.yok.markLen
      (v, if v.yok.role = 3 then n else limitNat (taf v 0x054 18 0) (taf v 0x058 18 0) n)
    | 3 =>
      match mainsLength v with
      | (v, some n) => (v, n)
      | (v, none) => (sourceLoss v, per)
    | _ => (v, per)

/-! ### The sample drop (R59-R61) -/

/-- The address of core k's drop area. -/
def dropBase (v : Vol) (k : Nat) : Nat := 0x10000000 + k * 0x100000 + taf v (0x140 + 4 * k) 17 10 * 0x400

/-- Write one word of core k's drop area. -/
def dropPut (v : Vol) (k i : Nat) (w : TWord) : Vol := sramPut v (dropBase v k + 4 * i) w

/-- Write channel words i of core k that the routes and a segment's test admit. -/
def dropChans (v : Vol) (k : Nat) (seg : Nat → Bool) (word : Nat → TWord) : Vol :=
  (List.range 192).foldl (fun v n => if seg n && routed (ta v) k n then dropPut v k n (word n) else v) v

/-- The auxiliary words of core k: inputs and flow counters as a function gives them (R60). -/
def dropAux (v : Vol) (k : Nat) (word : Nat → TWord) : Vol :=
  (List.range 52).foldl (fun v i => dropPut v k (192 + i) (word i)) v

/-- Whether core k has a drop area to be written: enabled, and its SRAM powered. -/
def dropOn (v : Vol) (k : Nat) : Bool := bit (ta v (0x140 + 4 * k)) 0 && domUp v (10 + k) && !wiping v (10 + k)
def dropAuxOn (v : Vol) (k : Nat) : Bool := dropOn v k && bit (ta v (0x140 + 4 * k)) 1

/-- A word of the tick number. -/
def numWord (v : Vol) (i : Nat) : TWord := ⟨(v.tick.number >>> (32 * i)).setWidth 32, Tag.raw⟩

/-- Auxiliary word i, at word 192 + i of the drop area, as this part latched it (R60): two words of input levels, 48 flow
counters, the tick number. -/
def auxWord (v : Vol) (i : Nat) : TWord :=
  if i < 2 then ⟨rg v (ra pGio (0x040 + 4 * i)), Tag.raw⟩
  else if i < 50 then ⟨rg v (ra pGio (0x2C0 + 4 * (i - 2))), Tag.count⟩
  else numWord v (i - 50)

/-- The sample drop of every core (R60). -/
def sampleDrop (v : Vol) : Vol :=
  (List.range 8).foldl (fun v k =>
    let v := if dropOn v k then dropChans v k (fun _ => true) (meaWord v) else v
    if dropAuxOn v k then dropAux v k (auxWord v) else v) v

/-! ### Kerf and overrun (R68-R74) -/

/-- The planned commit cycle of core k (R44). -/
def planned (v : Vol) (k : Nat) : Nat := taf v 0x048 13 0 + 3 + taf v (0x0A0 + 4 * k) 18 0

/-- Whether a pause holds the control cores (R431, R508): no overrun check, and TICK_OVRCNT stays. -/
def tickPaused (v : Vol) : Bool := v.yok.pause || v.lks.pauseAt.isSome

/-- The Kerf account of core k for the tick of `len` cycles that ends (R70, R71). Of a core that did not commit there is no C:
KERF_USE.CYC reads 0 and TICK_COMMITAT keeps its value (DESIGN CHOICE, log entry 97). -/
def kerfAccount (v : Vol) (len k : Nat) : Vol :=
  let src := smapGet (fun _ => 0) v.tick.kerfSrc k % 32 * 2 ^ 24
  match (if countsCommitted v k then smapFind v.tick.commits k else none) with
  | none => rgSet v (aTick (0x0C0 + 4 * k)) (BitVec.ofNat 32 src)
  | some c =>
    let use := (c - planned v k) % 2 ^ 19
    let v := rgSet v (aTick (0x0C0 + 4 * k)) (BitVec.ofNat 32 (src + use))
    let v := if rf v (aTick (0x0E0 + 4 * k)) 18 0 < use then rgSet v (aTick (0x0E0 + 4 * k)) (BitVec.ofNat 32 use) else v
    let v := rgSet v (aTick (0x100 + 4 * k)) (BitVec.ofNat 32 (c % 2 ^ 19))
    let v := if tickPaused v then v else rgSet v (aTick (0x120 + 4 * k)) 0
    let warn := rf v (aTick 0x084) 18 0
    raiseIf (decide (warn ≠ 0) && decide (len < c + warn)) v pTick (18 + k)

/-- Core k has overrun (R72 steps 1-4): counted, halted before its next bundle and marked for the release cycle.
TICK_OVRCNT stays at 15 once it is there (DESIGN CHOICE, log entry 98). -/
def overrun (v : Vol) (k : Nat) : Vol :=
  let v := discardPending v k
  let v := rgOr (setFault v pTick (8 + k)) (aTick (0x0C0 + 4 * k)) (bitWord 29)
  let v := rgIncSat (raiseEvent v pTick (10 + k)) (aTick (0x120 + 4 * k)) 4
  let c := coreOf v k
  if !coreUp v k || !c.run || c.dfHalt || ctlBit v k 5 then v
  else
    let b : BitVec 8 := BitVec.ofNat 8 (2 ^ k)
    let v := setCore v k { c with ovr := true }
    setTick v fun t => if xActive c then { t with resume := t.resume ||| b } else { t with enter := t.enter ||| b }

/-- Whether a core has reached TICK_OVRLIM (R73). -/
def overLimit (v : Vol) (k : Nat) : Bool := decide (rf v (aTick 0x080) 3 0 ≤ rf v (aTick (0x120 + 4 * k)) 3 0)

/-- The Kerf account and overrun check of all cores (R40 step 4); `check` is off in SAFE, in a cut pause or an activation
pause and at the first boundary. Answers whether the overrun limit was reached. -/
def kerfCheck (v : Vol) (len : Nat) (check : Bool) : Vol × Bool :=
  let step (a : Vol × Bool) (k : Nat) : Vol × Bool :=
    let v := kerfAccount a.1 len k
    if check && takesPart v k && !countsCommitted v k then
      let v := overrun v k
      (v, a.2 || overLimit v k)
    else (v, a.2)
  let r := (List.range 8).foldl step (v, false)
  (raiseIf r.2 r.1 pTick 7, r.2)

/-- Stretch DROP by n cycles (R68, R419). -/
def stretchDrop (v : Vol) (n : Nat) : Vol :=
  let v := setTick v fun t => { t with
    dropEnd := t.dropEnd + n
    kerfSrc := (List.range 8).foldl (fun m k => smapSet (fun _ => 0) m k (smapGet (fun _ => 0) m k ||| 8)) t.kerfSrc
    kerfDrop := (List.range 8).foldl (fun m k => smapSet (fun _ => 0) m k (smapGet (fun _ => 0) m k + n)) t.kerfDrop }
  let v := rgSet v (aTick 0x07C) (BitVec.ofNat 32 ((rf v (aTick 0x07C) 13 0 + n) % 2 ^ 14))
  raiseEvent v pTick 2

/-- DROP opens at the boundary (R41). A commit of the service core that a pause has held back waits on (R431, R508). -/
def openDrop (v : Vol) : Vol :=
  let v := rgSet v (aTick 0x07C) 0
  setTick v fun t => { t with
    inDrop := true, dropEnd := v.now + taf v 0x048 13 0, released := false, commits := []
    svcCommit := t.svcCommit && outsHeld v, kerfSrc := [], kerfDrop := [] }

/-- DROP ends (R41). -/
def dropEnds (v : Vol) : Vol :=
  if !v.tick.inDrop then v
  else
    let v := { v with now := max v.now v.tick.dropEnd }
    let v := setTick v fun t => { t with inDrop := false, release := v.now + 3 }
    raiseEvent v pTick 1

/-- The capture of PTP time at the boundary (R40 step 3). -/
def captureBts (v : Vol) : Vol :=
  let t := ptpNow v
  setTick v fun k => { k with btsNs := t.2.1, btsSec := t.1 }

/-! ### Registers (R54, R55, R58, R65, R75) -/

/-- What a write of a tick register does. EN written as 1 before the boundary at which EN 0 stops the generator takes the stop back
(DESIGN CHOICE, log entry 99). -/
def tickWrite (v : Vol) (off : Nat) (via : Via) (w : Word) : Vol :=
  let old := rg v (aTick off)
  let v := regWrite v pTick off via w
  let new := rg v (aTick off)
  if off = 0x008 then
    let ask := rose old new 1
    let v := if bit old 1 then rgOr v (aCtl pTick) 2 else v
    let v := if ask && !v.tick.everOn then applyCheck v
      else if ask then rgOr v (aStat pTick) 8 else v
    let v :=
      if rose old new 0 then
        (if v.tick.running then setTick v fun t => { t with stopReq := false }
          else meaStart (setTick v fun t => { t with
            running := true, everOn := true, stopReq := false, next := v.now + 64, first := true
            inPhase := 0, mainsLeft := 0, mainsLong := 0, mainsZc := some v.now }))
      else v
    if fell old new 0 then setTick v fun t => { t with stopReq := true } else v
  else if off = 0x08C then (if via == .direct && bit w 0 then commitService v else v)
  else v

/-- The views of the tick page. -/
def tickView (v : Vol) (off : Nat) (w : Word) : Word :=
  if off = 0x068 then v.tick.number.setWidth 32
  else if off = 0x070 then BitVec.ofNat 32 (b2n v.tick.inDrop * 2 ^ 31 + tickCyc v)
  else if off = 0x078 then BitVec.ofNat 32 (dropMin v % 2 ^ 14)
  else if off = 0x090 then BitVec.ofNat 32 (v.tick.btsNs % 2 ^ 30)
  else w

/-- The reads that latch other registers (R75). -/
def tickOnRead (v : Vol) (off : Nat) : Vol :=
  if off = 0x068 then rgSet v (aTick 0x06C) ((v.tick.number >>> 32).setWidth 32)
  else if off = 0x090 then
    rgSet (rgSet v (aTick 0x094) (BitVec.ofNat 32 v.tick.btsSec)) (aTick 0x098) (BitVec.ofNat 32 (v.tick.btsSec / 2 ^ 32 % 2 ^ 16))
  else v

end Sys2Proof.Machine
end

