-- ==== Sys2Proof/Machine/YokLink.lean ====
section
/-! DEFINITION. Yoke frames (R406-R409, R415) and the drive token's release (R404, R426). -/

namespace Sys2Proof.Machine

def setYok (v : Vol) (f : Yok → Yok) : Vol := { v with yok := f v.yok }

/-- Whether the link is up: YOK_LINK.UP (R406). -/
def linkUp (v : Vol) : Bool := ready v pYok && rb v (ra pYok 0x044) 31

/-- Whether both lanes hold symbol alignment on a link that runs: STAT.ALIGNED (R406, R438). -/
def linkAligned (v : Vol) : Bool := ready v pYok && rb v (aStat pYok) 0

/-- A command tells the level of YTOKI in this cycle (R438). -/
def tokenLevel (v : Vol) (b : Bool) : Vol := setYok v fun y => { y with tokI := b, tokAt := v.now }

/-- A number as n bytes, the least significant first. -/
def leBytes (n x : Nat) : List Byte := (List.range n).map fun i => BitVec.ofNat 8 (x / 256 ^ i)

/-- A frame: bytes 0 to 11 + LEN (R408). -/
def yokFrame (typ sub tick : Nat) (payload : List Byte) : List Byte :=
  let body := [BitVec.ofNat 8 typ, BitVec.ofNat 8 sub] ++ leBytes 2 payload.length ++ leBytes 4 tick ++ payload
  body ++ wordBytes (crc32c body)

/-- The tick number of a frame (R408). -/
def frameTick (f : List Byte) : Nat := (leWord f 4).toNat

/-- A frame that belongs to the boundary of a tick number enters the transmit queue. -/
def yokQueue (v : Vol) (tick typ sub : Nat) (payload : List Byte) : Vol :=
  setYok v fun y => { y with out := y.out ++ [yokFrame typ sub tick payload], outAt := y.outAt ++ [v.now] }

/-- Send a frame that belongs to the boundary of a tick number, when the link is up. -/
def yokSendAt (v : Vol) (tick typ sub : Nat) (payload : List Byte) : Vol :=
  if linkUp v then yokQueue v tick typ sub payload else v

/-- The low word of the tick number, as frames carry it. -/
def tickWord (v : Vol) : Nat := v.tick.number.toNat % 2 ^ 32

/-- Send a frame of this tick. -/
def yokSend (v : Vol) (typ sub : Nat) (payload : List Byte) : Vol := yokSendAt v (tickWord v) typ sub payload

/-- How many frames of the transmit queue have begun by a cycle (R406, R416): the first from c4 of the tick, each when the one before has
ended and it is in the queue; a byte, the two control symbols of SOF and EOF with them, takes 1.6 c. Times are in fifths of a cycle. -/
def framesBegun (free now : Nat) : List (List Byte) → List Nat → Nat
  | f :: fs, q :: qs =>
    let t := max free (5 * q)
    if 5 * now < t then 0 else 1 + framesBegun (t + 8 * (f.length + 4)) now fs qs
  | _, _ => 0

/-- A frame enters the transmit queue at its head, behind the frame in transmission (R416). -/
def yokAhead (v : Vol) (f : List Byte) : Vol :=
  let n := framesBegun (5 * (v.tick.boundary + 4)) v.now v.yok.out v.yok.outAt
  setYok v fun y => { y with
    out := y.out.take n ++ [f] ++ y.out.drop n, outAt := y.outAt.take n ++ [v.now] ++ y.outAt.drop n }

/-- A CTRL frame: its payload is padded to 16 bytes (R415). -/
def yokCtrl (v : Vol) (op : Nat) (payload : List Byte) : Vol :=
  yokSend v 7 op (payload ++ List.replicate (16 - payload.length) 0)

/-- Whether a frame is sound: its check sequence, type, SUB and length (R409). -/
def frameOk (f : List Byte) : Bool :=
  let len := byteAt f 2 + 256 * byteAt f 3
  let typ := byteAt f 0
  let sub := byteAt f 1
  let n := byteAt f 12
  decide (f.length = 12 + len) && leWord f (8 + len) == crc32c (f.take (8 + len)) &&
    (if typ = 1 ∨ typ = 3 then sub == 0 && len == 32
      else if typ = 2 then (decide (sub < 4) && len == 216) || (sub == 4 && len == 200)
      else if typ = 4 then len == 0 && (decide (sub ≤ 4) || sub == 7 || decide (0x80 ≤ sub))
      else if typ = 5 then sub == 0 && len == 40
      else if typ = 6 then decide (sub < 128) && decide (1 ≤ n) && decide (n ≤ 48) && len == (8 + 4 * n + (n + 1) / 2 + 1) / 2 * 2
      else if typ = 7 then decide (1 ≤ sub) && decide (sub ≤ 9) && len == 16
      else false)

/-- The payload of a frame. -/
def payloadOf (f : List Byte) : List Byte := (f.drop 8).take (f.length - 12)

/-- A discarded frame: counted, FAULT.CRC, and NAKed when it was a MARK, SNAP or STATE (R409). -/
def frameDiscard (v : Vol) (nak : Option Nat) : Vol :=
  let v := setFault (rgInc v (ra pYok 0x06C)) pYok 0
  match nak with
  | some s => yokSend v 4 s []
  | none => v

/-- Release the drive token (R404); a lead tells its twin why in a CTRL DOWN (R426). -/
def yokRelease (v : Vol) (why : Nat) : Vol :=
  let v := if v.yok.token then yokCtrl v 3 [BitVec.ofNat 8 why] else v
  setYok v fun y => { y with token := false, relAt := none, role := if y.role = 1 then 0 else y.role }

/-- Locksmith writes the image tag, words 0 and 1 of the active manifest hash, to YOK_IMG (R415, R437, R507): where the block is down,
when it comes up (DEDUCED, log entry 137). -/
def yokTag (v : Vol) : Vol :=
  if domUp v (pageDom pYok) then
    rgSet (rgSet v (ra pYok 0x074) (rg v (ra (pLks + 3) 0x0C0))) (ra pYok 0x078) (rg v (ra (pLks + 3) 0x0C4))
  else v

/-- The whole link after the block's reset: alone and without the token; the levels of the strap and of YTOKI stay. -/
def yokReset (v : Vol) : Vol := { v with yok := { Yok.reset with prime := v.yok.prime, tokI := v.yok.tokI, tokAt := v.yok.tokAt } }

end Sys2Proof.Machine
end

