-- ==== Sys2Proof/Machine/SysOps.lean ====
section
/-! DEFINITION. Block and domain resets (R10, R545), power domains (R548-R551), modes (R552-R559), clocks and their
failures (R531-R542), whole-part resets and the watchdog (R543-R547), and what writes of the SYS, CLK, PWR and RST pages
do. -/

namespace Sys2Proof.Machine

def setSysP (v : Vol) (f : Sys → Sys) : Vol := { v with sys := f v.sys }

/-! ### Block resets (R10, R284, R308) -/

/-- The blocks of a power domain, by first page (R548). -/
def domBlocks (d : Nat) : List Nat := allBlocks.filter fun p => pageDom p == d

/-- End the outstanding accesses of cores to addresses that a test names with a response (R284, R287). -/
def endHeld (v : Vol) (hit : Nat → Bool) (code : Nat) : Vol :=
  (List.range 9).foldl (fun v k => onHeld v k fun h => if hit h.addr && h.resp.isNone then { h with resp := some code } else h) v

/-- Whether an address lies in a page of the block whose first page is p. -/
def inBlock (p a : Nat) : Bool := decide (0x40000000 ≤ a) && (blockPages p).contains ((a - 0x40000000) / 0x1000)

/-- The requests of a reset master that are not granted are withdrawn (R288): of every ID, or of one. -/
def withdraw (v : Vol) (m : Nat) (id : Option Nat) : Vol :=
  let mine (n i : Nat) : Bool := n == m && (id == none || id == some i)
  { v with parked := v.parked.filter fun r => !mine r.master r.id
           mtx := { v.mtx with late := v.mtx.late.filter fun r => !mine r.1 r.2.1 } }

/-- What a block holds beside its registers returns to its reset state. -/
def familyReset (v : Vol) (p : Nat) : Vol :=
  let v := outReset v p
  match pageInfo p with
  | none => v
  | some inf =>
    match inf.blk with
    | .tick => { v with tick := Tick.reset }
    | .tal0 => { v with tally := Tally.reset }
    | .core | .core8 => mbxAbort (resetCore (withdraw v inf.inst none) inf.inst) inf.inst
    | .dma => { withdraw v (9 + inf.inst) none with dma := smapKeep (fun c => c / 8 != inf.inst) v.dma }
    | .whs => { v with whs := Whs.reset }
    | .flc => { v with flc := Flc.reset }
    | .mea => setMea v inf.inst Mea.reset
    | .yok => mbxAbort (yokReset (withdraw v 14 none)) 10
    | .ldg => { withdraw v 12 none with ldg := Ldg.reset }
    | .lks0 => { withdraw v 13 none with lks := { Lks.reset with
        chal := v.lks.chal, entry := v.lks.entry, noSign := v.lks.noSign, tampered := v.lks.tampered } }
    | .eth => { v with eth := Eth.reset }
    | .ptp => { v with ptp := Ptp.reset }
    | .can => canPut v inf.inst Can.reset
    | .hsp => mbxAbort { withdraw v 15 (some 1) with hsp := Hsp.reset } 9
    | .svc => { withdraw v 15 (some 2) with svc := { Svc.reset with vbus := v.svc.vbus } }
    | .sys => setSysP v fun s => { s with tempArmed := true }
    | .mtx => { v with mtx := { Mtx.reset with late := v.mtx.late } }
    | .dbg => withdraw v 15 (some 0)
    | .clk | .pwr | .rst | .tal1 | .tal2 | .tal3 | .mbx0 | .mbx1 | .trp | .stk0 | .stk1 | .mns | .mot | .vlv | .gio | .nand
    | .lks1 | .lks2 | .lks3 => v

/-- Read-only registers that show what lies outside their block, which a block reset leaves as it is (R19, log entry 44): the
crystal's readiness, whether the PLLs have locked (R562) and the strap; the domains that are up; the active plane and
Locksmith's marks in FLC STAT (R30, R270). -/
def keptRegs (p : Nat) : List Nat :=
  if p = pClk then [0x00C, 0x050, 0x054, 0x088]
  else if p = pPwr then [0x04C, 0x050, 0x054]
  else if p = pFlc then [0x00C]
  else []

/-- What a block reset leaves of a register that keeps a part: STAT of CLK keeps XTRDY, and ONRC while PLL_SYS has not locked;
that of FLC the marks and the active plane. -/
def keptPart (v : Vol) (p off : Nat) (w : Word) : Word :=
  if off ≠ 0x00C then w
  else if p = pClk then w &&& (if rb v (ra pClk 0x050) 0 then 0x2 else 0x12)
  else w &&& 7

/-- Wipe the registers of the block whose first page is p (R19): RST_CAUSE returns to the bit of the last reset (R566). A running
watchdog goes on with its period (R547, log entry 44). -/
def wipeBlock (v : Vol) (p : Nat) : Vol :=
  let v := if p = pClk then rcNoted v else v
  let kept := (keptRegs p).map fun o => (ra p o, keptPart v p o (rg v (ra p o)))
  let v := wipePages v (blockPages p)
  let v := kept.foldl (fun v r => rgSet v r.1 r.2) v
  if p = pRst then rgSet v (ra pRst 0x040) v.sys.cause else v

/-- The block whose first page is p enters reset (R10, R284): outstanding accesses answer RESET; trips see lost taps. -/
def blockReset (v : Vol) (p : Nat) : Vol :=
  let v := endHeld v (inBlock p) 3
  let v := ptpLossNoted v (wipeBlock (familyReset v p) p)
  let v := { v with resetting := if v.resetting.contains p then v.resetting else v.resetting ++ [p] }
  outApply (tripEval v)

/-- A block's reset ends (R10): a measurement block waits for its factory record; outputs that are held safe show it (R345, R559). -/
def blockResetEnds (v : Vol) (p : Nat) : Vol :=
  let free := { v with resetting := v.resetting.filter (· != p) }
  match pageInfo p with
  | some ⟨.mea, _, _⟩ => v
  | some ⟨.mot, m, _⟩ => outApply (motStart free m)
  | some ⟨.vlv, _, _⟩ | some ⟨.gio, _, _⟩ => outApply free
  | _ => free

/-- A write of CTL.SOFTRST (R7, R351, and the LKS header): Locksmith ignores it, and the trip matrix does while locked or
latched. -/
def softReset (v : Vol) (p : Nat) : Vol :=
  if p = pLks then setFault v pLks 5
  else if p = pTrp && (rb v (ra pTrp 0x0B0) 0 || rf v (ra pTrp 0x0A0) 15 0 != 0) then setFault v pTrp 1
  else blockReset v p

/-- The target port of an address (R36, R39), 31 for the default target. -/
def portOf (a : Nat) : Nat :=
  if a < 0x1084000 then 0
  else
    match place a with
    | some p => if p.dom < 18 then p.dom - 9 else if p.dom = 18 then 9 else 10 + (p.dom - 81) / 4
    | none =>
      let p := (a - 0x40000000) / 0x1000
      if a < 0x40000000 || (pageInfo p).isNone then 31
      else
        if p < 5 then 14 else if p < 0x10 then 15 else if p < 0x20 then 16 else if p < 0x30 then 17
        else if p = 0x38 ∨ 0xA0 ≤ p then 18 else if p < 0x50 then 19 else if p < 0x60 then 20 else if p < 0x70 then 21
        else if p < 0x80 then 22 else 23

/-- The power domain of an address (R548). -/
def addrDom (a : Nat) : Nat :=
  if a < 0x1090000 then flashDom a
  else
    match place a with
    | some p => p.dom
    | none => if a < 0x40000000 then 0 else pageDom ((a - 0x40000000) / 0x1000)

/-- Whether the region that Whetstone tests touches domain d (R263, R275): a shared region spans the 16 banks. -/
def whsHolds (v : Vol) (d : Nat) : Bool :=
  let e := addrDom ((rg v (ra pWhs 0x04C)).toNat / 256 * 256)
  v.whs.testing && (if 81 ≤ e then decide (81 ≤ d) else e == d)

/-- A reset of power domain d (R545): its blocks, and the wipe of an SRAM domain. -/
def domainReset (v : Vol) (d : Nat) : Vol :=
  let v := (domBlocks d).foldl softReset v
  let v := if whsHolds v d then { v with whs := { v.whs with testing := false } } else v
  let v := wipeSram v d
  setSysP v fun s => { s with domReset := if s.domReset.contains d then s.domReset else s.domReset ++ [d] }

/-- RST_DOM (R545): refused for Locksmith and the trip matrix. -/
def domainResetReq (v : Vol) (d : Nat) : Vol :=
  if d = 22 ∨ d = 25 then setFault v pRst 1
  else if d = 0 ∨ 96 < d ∨ !domUp v d then v
  else domainReset v d

/-- Every block of domain d is READY again (R545). -/
def domainResetEnds (v : Vol) (d : Nat) : Vol :=
  if !v.sys.domReset.contains d || (domBlocks d).any v.resetting.contains then v
  else
    let v := setSysP v fun s => { s with domReset := s.domReset.filter (· != d) }
    let a := ra pRst 0x060
    let v := if rb v a 31 then v else rgSet v a (BitVec.ofNat 32 (2 ^ 31 + d))
    raiseEvent v pRst 2

/-! ### Power domains (R548-R551) -/

/-- The bit of domain d in the domain registers at an offset of PWR. -/
def pwrBit (v : Vol) (off d : Nat) : Bool := d != 0 && rb v (ra pPwr (off + 4 * ((d - 1) / 32))) ((d - 1) % 32)
def setPwrBit (v : Vol) (off d : Nat) (b : Bool) : Vol := rbSet v (ra pPwr (off + 4 * ((d - 1) / 32))) ((d - 1) % 32) b

/-- Whether a transaction to domain d is outstanding, or Whetstone holds a region of it (R286, R551, R275). -/
def domBusy (v : Vol) (d : Nat) : Bool :=
  (List.range 9).any (fun k => (heldOf (coreOf v k)).any fun h => addrDom h.addr == d && h.resp.isNone && decide (k + 1 ≠ d))
  || whsHolds v d

/-- Switch domain d off (R551): receiver resets, the state of its blocks lost, PWR_STAT clear; with domain 21, which BANKED alone
switches off, the planes' marks go too, until Locksmith's boot (R557). -/
def domainOff (v : Vol) (d : Nat) : Vol :=
  let v := if 1 ≤ d ∧ d ≤ 9 then mbxAbort v (d - 1) else v
  let off (v : Vol) (p : Nat) : Vol :=
    let v := ptpLossNoted v (wipeBlock (familyReset v p) p)
    { v with resetting := v.resetting.filter (· != p) }
  let v := (domBlocks d).foldl off v
  let v := setPwrBit (setPwrBit v 0x04C d false) 0x040 d false
  let v := if d = 21 then rgClr v (aStat pFlc) 7
    else if d = 40 then rgClr v (ra pClk 0x050) 1
    else if d = 41 then rgClr (rgClr v (ra pClk 0x054) 1) (ra pClk 0x040) 2
    else v
  let v := setSysP v fun s =>
    { s with downHeld := s.downHeld.filter (· != d), domReset := s.domReset.filter (· != d), wipes := smapErase s.wipes d }
  outApply (tripEval v)

/-- The reason for which a power-down of domain d is refused, 0 for none (R549, R351, R471). -/
def downRefusal (v : Vol) (d : Nat) : Nat :=
  let up (l : List Nat) : Bool := l.any (domUp v)
  if [9, 18, 21, 22, 23, 32, 40].contains d || d == 19 + activePlane v then 1
  else if d = 24 ∧ rb v (aCtl pTick) 0 then 2
  else if d = 41 ∧ up [29, 31, 52, 53, 54, 55] then 3
  else if d = 25 ∧ up ([35] ++ (List.range 10).map (42 + ·)) then 4
  else if (d = 56 ∨ (52 ≤ d ∧ d ≤ 55)) ∧ rb v (aStat pLdg) 0 then 5
  else 0

/-- A request to power domain d down (R549, R551): refused, deferred behind a transaction, or done. -/
def domainDownReq (v : Vol) (d : Nat) : Vol :=
  let r := downRefusal v d
  if r ≠ 0 then
    let v := setFault (setPwrBit v 0x040 d true) pPwr 1
    let a := ra pPwr 0x07C
    if rb v a 31 then v else rgSet v a (BitVec.ofNat 32 (2 ^ 31 + r * 256 + d))
  else if v.sys.powering.contains d then
    setSysP (setPwrBit v 0x040 d false) fun s => { s with powering := s.powering.filter (· != d) }
  else if !domOn v d then setPwrBit v 0x040 d false
  else if domBusy v d then
    setSysP (setPwrBit v 0x040 d false) fun s => { s with downHeld := if s.downHeld.contains d then s.downHeld else s.downHeld ++ [d] }
  else domainOff v d

/-- Power-downs that waited for a transaction continue (R551). -/
def settleDowns (v : Vol) : Vol := v.sys.downHeld.foldl (fun v d => if domBusy v d then v else domainOff v d) v

/-- Whether a domain holds an SRAM (R548). -/
def hasSram (d : Nat) : Bool := (decide (10 ≤ d) && decide (d ≤ 18)) || (decide (81 ≤ d) && decide (d ≤ 96))

/-- The wipe of an SRAM domain that has been switched on runs (R266, R550): it answers RESET, and PWR_STAT follows with its end. -/
def wipeRuns (v : Vol) (d : Nat) : Vol :=
  if hasSram d && domOn v d then setSysP v fun s => { s with wipes := smapSet (fun _ => 0) s.wipes d (v.now + wipeCycles d) } else v

/-- Domain d comes up (R550): an SRAM wiped, its blocks after their reset; measurement blocks still read their
records; mailboxes that waited for it wait no more. -/
def domainOn (v : Vol) (d : Nat) : Vol :=
  let v := setSysP v fun s => { s with powering := s.powering.filter (· != d), wipes := smapErase s.wipes d }
  let v := setPwrBit (setPwrBit v 0x040 d true) 0x04C d true
  let v := wipeSram v d
  let up (v : Vol) (p : Nat) : Vol :=
    match pageInfo p with
    | some ⟨.mea, _, _⟩ => { v with resetting := if v.resetting.contains p then v.resetting else v.resetting ++ [p] }
    | some ⟨.mot, m, _⟩ => motStart v m
    | some ⟨.yok, _, _⟩ => yokTag v
    | _ => v
  let v := (domBlocks d).foldl up v
  outApply (tripEval (mbxWoken v d))

/-- Power-good of domain d (R550): 64 c of reset, then the domain is up. -/
def powerGoodOf (v : Vol) (d : Nat) : Vol :=
  if !v.sys.powering.contains d then v else domainOn { v with now := v.now + 64 } d

/-- Power-good fails (R550): the domain goes off again, PWR_FAIL, UPFAIL and source 6. -/
def powerGoodFails (v : Vol) (d : Nat) : Vol :=
  if !v.sys.powering.contains d then v
  else
    let v := setSysP v fun s => { s with powering := s.powering.filter (· != d) }
    let v := setPwrBit (setPwrBit v 0x040 d false) 0x064 d true
    raiseEvent (setFault v pPwr 0) pPwr 1

/-- A write of PWR_ON (R549-R551, R564). -/
def pwrOnWrite (v : Vol) (w : Nat) (old new : Word) : Vol :=
  (List.range 32).foldl (fun v i =>
    let d := 32 * w + i + 1
    if rose old new i then startPower (setPwrBit v 0x040 d false) d
    else if fell old new i then domainDownReq v d else v) v

def pwrWrite (v : Vol) (off : Nat) (via : Via) (x : Word) : Vol :=
  let old := rg v (ra pPwr off)
  let v := regWrite v pPwr off via x
  if 0x040 ≤ off ∧ off < 0x04C then pwrOnWrite v ((off - 0x040) / 4) old (rg v (ra pPwr off)) else v

/-- PWR as read: STAT.SEQ (R565), which a wipe that still runs keeps at 1; PWR_STAT without the SRAM domains whose wipe runs (R550). -/
def pwrView (v : Vol) (off : Nat) (w : Word) : Word :=
  let wipes (d : Nat) : Bool := decide (v.now < smapGet (fun _ => 0) v.sys.wipes d)
  if 0x04C ≤ off ∧ off < 0x058 then
    w &&& ~~~(BitVec.ofNat 32 ((List.range 32).map fun i => b2n (wipes (32 * ((off - 0x04C) / 4) + i + 1)) * 2 ^ i).sum)
  else
  if off = 0x00C then w ||| BitVec.ofNat 32 (b2n (!v.sys.powering.isEmpty || !v.sys.downHeld.isEmpty || v.sys.wipes.any fun x => decide (v.now < x.2))) else w

/-- Supply warnings (R565): bit 0 VDD_CORE, 1 VDDA, 2 VDDIO33. -/
def supplyWarn (v : Vol) (low : Nat) : Vol :=
  let a := ra pPwr 0x080
  let old := rf v a 2 0
  let v := rfSet v a 2 0 low
  raiseIf (decide (low &&& (7 - old) ≠ 0)) v pPwr 0

/-- A measurement of VBAT (R564, R565). -/
def vbatSet (v : Vol) (mv : Nat) : Vol :=
  let was := rb v (ra pPwr 0x080) 3
  let low := decide (mv < 2200)
  let v := rbSet (rgSet v (ra pPwr 0x084) (BitVec.ofNat 32 mv)) (ra pPwr 0x080) 3 low
  raiseIf (low && !was) v pPwr 2

/-! ### SAFE (R555, R558, R364) -/

/-- Modes from which SAFE is entered at once (R553). -/
def safeAtOnce (m : Mode) : Bool :=
  match m with
  | .warm | .run | .shadow | .service => true
  | .cold | .reset | .banked | .safe => false

/-- A transition ends (R553): the mode, SYS_TRANSUS and source 8. -/
def transitionEnds (v : Vol) (m : Mode) : Vol :=
  let us := (wall v - v.sys.reqAt) / 400
  let v := rgSet v (ra pSys 0x068) (BitVec.ofNat 32 (us % 2 ^ 20))
  raiseEvent (setSysP v fun s => { s with mode := m, target := none }) pSys 0

/-- Record the first source routed to SAFE (R299). -/
def safeCause (v : Vol) (n : Nat) : Vol :=
  let a := ra pTal 0x084
  if rb v a 31 then v else rgSet v a (BitVec.ofNat 32 (2 ^ 31 + n))

/-- Probation starts (R511): its seconds, LKS_PLANE.PROB and event 2. -/
def probStart (v : Vol) : Vol :=
  let v := { v with lks := { v.lks with probEnd := wall v + rf v (ra pLks 0x060) 15 0 * 400000000 } }
  raiseEvent (rgOr v (ra pLks 0x05C) 16) pLks 2

/-- The part is in SAFE (R555): outputs forced, control cores halted before their next bundles, the service core's PQ set, the
token released. -/
def safeEntered (v : Vol) : Vol :=
  let v := yokRelease v (if rb v (aStat pClk) 4 then 2 else 1)
  let v := transitionEnds v .safe
  let v := { v with tally := { v.tally with stopped := v.tally.stopped || rb v (ra (pTal + 3) 0x040) 1 } }
  let v := (List.range 8).foldl (fun v k => onCore v k fun c => { c with safeHalt := true }) v
  let v := rgOr v (aCtl (pCore 8)) 8
  let v := if v.lks.pauseAt.isSome && !v.lks.fallback then probStart v else v
  let v := { v with lks := { v.lks with pauseAt := none, resumeDue := false, fallback := v.lks.fallback && v.lks.pauseAt.isNone } }
  outForceSafe v

/-- Entry into SAFE (R553, R555): it overtakes a transition in progress, also one that would leave SAFE. In BANKED and during the reset
sequence SAFE follows the end of the exit or sequence (log entry 45). -/
def enterSafe (v : Vol) : Vol :=
  if safeAtOnce v.sys.mode then safeEntered (setSysP v fun s => { s with reqAt := wall v, target := none })
  else if v.sys.mode == .banked || v.sys.mode == .reset then setSysP v fun s => { s with safeAfter := true }
  else setSysP v fun s => { s with target := none }

/-- A change of mode at a boundary that leaves SAFE (R558). -/
def leaveSafe (v : Vol) : Vol :=
  let v := outExitSafe v
  let v := setTick v fun t => { t with commits := [], svcCommit := false, restart := (ta v 0x088).setWidth 8, enter := 0, resume := 0 }
  v

/-! ### BANKED (R556, R557) -/

/-- Domains that PWR_BANKKEEP may name (R556). -/
def bankable (d : Nat) : Bool := (10 ≤ d && d ≤ 18) || d ≥ 81 || (57 ≤ d && d ≤ 80) || d == 27 || d == 30

/-- Whether PWR_BANKKEEP is acceptable: no other domain and at most one measurement block. -/
def keepOk (v : Vol) : Bool :=
  let ds := (List.range 96).map (· + 1)
  ds.all (fun d => !pwrBit v 0x070 d || bankable d) && decide (ds.countP (fun d => pwrBit v 0x070 d && 57 ≤ d && d ≤ 80) ≤ 1)

/-- Entry into BANKED (R556): outputs safe, the generator stopped, unkept domains down, PLLs and crystal off. -/
def enterBanked (v : Vol) : Vol :=
  let xt := rb v (ra pSys 0x050) 0
  let v := outForceSafe (setSysP v fun s => { s with mode := .banked })
  let v := transitionEnds v .banked
  let v := setTick v fun t => { t with running := false, stopReq := false }
  let ds := (List.range 96).map (· + 1)
  let v := ds.foldl (fun v d => if domOn v d && !pwrBit v 0x070 d then domainOff v d else v) v
  let v := rgClr (rgClr v (ra pClk 0x048) 1) (ra pClk 0x04C) 1
  let v := rgClr (rgClr v (ra pClk 0x050) 3) (ra pClk 0x054) 3
  let v := rgSet (rcNoted v) (ra pClk 0x040) 0
  let v := if xt then v else rgClr v (aStat pClk) 2
  setSysP v fun s => { s with powering := [], downHeld := [], xtalOn := xt, bankAt := wall v }

/-- Steps 3 to 5 of the reset sequence once both PLLs have locked (R544, R557): the trees run from PLL_SYS, and the domains
of PWR_ON's reset value come up together, each SRAM behind its wipe; reset is released (R171, log entry 134) and Locksmith's
boot follows. -/
def seqPowered (v : Vol) : Vol :=
  let v := rgClr (rgSet (rcNoted v) (ra pClk 0x040) 3) (aStat pClk) 16
  let v := setSysP v fun s => { s with wait := .boot, divs := rg v (ra pClk 0x044) }
  let ds := ((List.range 96).map (· + 1)).filter fun d =>
    bit (BitVec.ofNat 32 ([0x81FE0100, 0x00000180, 0].getD ((d - 1) / 32) 0)) ((d - 1) % 32) && !domOn v d
  let sleep := 64 + (ds.map fun d => if hasSram d then wipeCycles d else 0).foldl max 0
  let v := ds.foldl domainOn (if ds.isEmpty then v else { v with now := v.now + sleep })
  setSysP v fun s => { s with relAt := if s.bankExit then s.relAt else v.now }

/-- Step 3: both PLLs are enabled and the sequence waits for them. -/
def seqPlls (v : Vol) : Vol :=
  let v := rgOr (rgOr v (ra pClk 0x048) 1) (ra pClk 0x04C) 1
  setSysP v fun s => { s with wait := .plls }

/-- The exit from BANKED starts (R557): source n is recorded; with the crystal kept the PLLs start at once. -/
def bankedWake (v : Vol) (n : Nat) : Vol :=
  if v.sys.mode ≠ .banked ∨ v.sys.bankExit then v
  else
    let v := rgSet v (ra pSys 0x05C) (BitVec.ofNat 32 (2 ^ 31 + n))
    let v := setSysP v fun s => { s with bankExit := true, reqAt := wall v }
    if v.sys.xtalOn then seqPlls v
    else setSysP v fun s => { s with wait := .crystal, xtalOn := true, xtalAt := wall v, xtalSeen := false }

/-! ### Mode requests (R553, R554) -/

def modeOfCode (n : Nat) : Option Mode := [Mode.cold, .reset, .banked, .warm, .run, .shadow, .service, .safe][n]?

/-- Whether R553 has a row for a request from one mode to another. -/
def modeRow (a b : Mode) : Bool :=
  match a, b with
  | .service, .run | .service, .warm | .run, .warm | .warm, .service | .warm, .run | .run, .service => true
  | .run, .banked | .warm, .banked | .service, .banked | .safe, .banked => true
  | .safe, .run | .safe, .service => true
  | _, .safe => true
  | _, _ => false

/-- The mode that a transition in progress leads to, none between transitions (R553, R561): also the reset sequence and the exit from
BANKED are transitions (log entry 144). -/
def sysGoal (v : Vol) : Option Mode :=
  if v.sys.bankExit then some (if v.sys.safeAfter then .safe else .service)
  else if v.sys.mode == .reset then some .service
  else v.sys.target

/-- The reason for which a request for a mode is refused, 0 for none (R554). -/
def modeRefusal (v : Vol) (code : Nat) : Nat :=
  let m := v.sys.mode
  let t := (modeOfCode code).getD .cold
  if (sysGoal v).isSome then 1
  else if code = 0 ∨ code = 1 ∨ code = 5 then 2
  else if t = m then 0
  else if !modeRow m t then 3
  else if m = .safe ∧ rb v (ra pTal 0x084) 31 then 4
  else if rb v (aStat pClk) 4 || !rb v (ra pClk 0x050) 0 then 5
  else if t = .warm ∧ 2 < (List.range 8).countP (takesPart v) then 6
  else if t = .banked ∧ rb v (aStat pLdg) 0 then 7
  else if t = .banked ∧ !keepOk v then 8
  else if (t = .run ∨ t = .warm) ∧ !rb v (aCtl pTick) 0 then 9
  else 0

/-- A transition takes effect (R553): the divider sets follow the mode (R535). -/
def applyMode (v : Vol) (t : Mode) : Vol :=
  let v := if v.sys.mode == .safe then leaveSafe v else v
  if t = .banked then enterBanked v
  else
    let d := rg v (ra pClk 0x044)
    let v := if t = .warm then setSysP v fun s => { s with divs := (s.divs &&& 0x0000FFFF) ||| (d &&& 0xFFFF0000) } else v
    transitionEnds v t

/-- A request for a mode (R553, R554): SAFE at once and never refused, the mode in force completes at once, another takes
effect at the next boundary, or at once while no boundary comes (log entry 46). -/
def modeRequest (v : Vol) (code : Nat) : Vol :=
  if code = 7 then
    (if v.sys.mode == .safe then transitionEnds (setSysP v fun s => { s with reqAt := wall v }) .safe
      else
        let v := if v.sys.mode == .banked then bankedWake v 0 else v
        enterSafe v)
  else
    let r := modeRefusal v code
    if r ≠ 0 then raiseEvent (rgSet v (ra pSys 0x048) (BitVec.ofNat 32 r)) pSys 1
    else
      let t := (modeOfCode code).getD .service
      let v := setSysP v fun s => { s with reqAt := wall v, target := some t }
      if t = v.sys.mode then transitionEnds v t
      else if v.tick.running then v
      else
        outApply (applyMode v t)

/-- What a write of a SYS register does (R553, R559, R560). -/
def sysPageWrite (v : Vol) (off : Nat) (via : Via) (w : Word) : Vol :=
  if off = 0x044 then
    let v := regWrite v pSys off via w
    modeRequest v (rf v (ra pSys off) 2 0)
  else if off = 0x060 then
    setSysP v fun s => { s with rtcSec := asked via s.rtcSec w }
  else regWrite v pSys off via w

/-- SYS as read (R560, R561). -/
def sysPageView (v : Vol) (off : Nat) (w : Word) : Word :=
  if off = 0x040 then
    let t := ((sysGoal v).getD v.sys.mode).code
    BitVec.ofNat 32 (b2n (sysGoal v).isSome * 0x10000 + t * 256 + v.sys.mode.code)
  else if off = 0x060 then v.sys.rtcSec
  else if off = 0x064 then BitVec.ofNat 32 (min 32767 ((wall v - v.sys.rtcAt) * 32768 / 400000000))
  else w

/-- A new die temperature (R560, R561). -/
def tempSet (v : Vol) (t : Word) : Vol :=
  if !ready v pSys then v
  else
  let hi := (rg v (ra pSys 0x058)).toInt
  let v := rgSet v (ra pSys 0x054) t
  if t.toInt ≤ hi - 5000 then setSysP v fun s => { s with tempArmed := true }
  else if hi < t.toInt && v.sys.tempArmed then raiseEvent (setSysP v fun s => { s with tempArmed := false }) pSys 2
  else v

/-! ### Clocks (R531-R542) -/

/-- A clock failure (R539): FAULT bit i, the trees to the RC and the PLL_IO clocks stopped as the table says, source 0; the
token is released, whichever clock it is (R404). PTP loses its synchronisation and CAN leaves the bus while ONRC is 1 (R573, R577). -/
def clockFail (v : Vol) (i : Nat) (toRc stopIo : Bool) : Vol :=
  let v := setFault v pClk i
  let was := rb v (aStat pClk) 4
  let v := if toRc && !was then ptpLossNoted v (ptpSynced (rgClr (rgOr (rcNoted v) (aStat pClk) 16) (ra pClk 0x040) 1) false) else v
  let v := if stopIo then rgClr v (ra pClk 0x040) 2 else v
  let v := yokRelease v 2
  let v := if v.sys.mode == .safe then setSysP v fun s => { s with target := none } else v
  raiseEvent v pClk 0

/-- PLL j coasts (R539). -/
def coast (v : Vol) (j : Nat) : Vol :=
  if !rb v (ra pClk (0x050 + 4 * j)) 0 || rb v (ra pClk (0x050 + 4 * j)) 1 then v
  else
    let v := raiseEvent (rgOr v (ra pClk (0x050 + 4 * j)) 2) pClk 1
    clockFail v (1 + j) (j == 0) (j == 1)

/-- The count that monitor i expects (R538). -/
def monExpect (i : Nat) : Nat := [800, 1024, 1024, 1311].getD i 0

/-- A window of clock monitor i ends (R538, R539). -/
def monWindow (v : Vol) (i count : Nat) : Vol :=
  let xt := rb v (aStat pClk) 1
  let runs := domUp v 23 && (i == 0 || (xt && (i == 3 || rb v (ra pClk (0x048 + 4 * (i - 1))) 0)))
  if !runs then v
  else
    let v := rgSet v (ra pClk (0x060 + 4 * i)) (BitVec.ofNat 32 count)
    let e := monExpect i
    let off := if count < e then e - count else count - e
    let good := decide (off ≤ rf v (ra pClk 0x058) 7 0)
    let v := if i = 0 ∧ good ∧ v.sys.xtalOn then setSysP v fun s => { s with xtalSeen := true } else v
    if good || (i == 0 && !xt) then v
    else clockFail v i (i == 0 || i == 1) (i == 0 || i == 2)

/-- The crystal start-up delay that the straps set, in units of 2.5 ns (R533). -/
def xtalDelay (v : Vol) : Nat := 800000 * 4 ^ rf v (ra pClk 0x088) 1 0

/-- The crystal is ready (R533): its start-up delay has passed, and a window of monitor 0 since the oscillator was enabled; the sequence
goes on to the PLLs. -/
def crystalIsReady (v : Vol) : Vol :=
  if !v.sys.xtalOn || !v.sys.xtalSeen then v
  else
    let v := rgOr (wallTo v (v.sys.xtalAt + xtalDelay v)) (aStat pClk) 2
    if v.sys.wait == .crystal then seqPlls v else v

/-- PLL j locks (R534). -/
def pllLocks (v : Vol) (j : Nat) : Vol :=
  if !rb v (ra pClk (0x048 + 4 * j)) 0 || !(domUp v (40 + j) || v.sys.wait == .plls) || !rb v (aStat pClk) 1 || rb v (ra pClk (0x050 + 4 * j)) 1 then v
  else
    let v := rgOr v (ra pClk (0x050 + 4 * j)) 1
    if v.sys.wait == .plls && rb v (ra pClk 0x050) 0 && rb v (ra pClk 0x054) 0 then seqPowered v else v

/-- A refused switch or PLL disable (R534, R540): STAT.REFUSED and, for a switch, source 2. -/
def clkRefuse (v : Vol) (ev : Bool) : Vol := raiseIf ev (rgOr v (aStat pClk) 32) pClk 2

/-- The effect of a forced test gate-off of domain d (R287): each of its blocks with transactions outstanding answers them SLAVE
and is reset, whatever refuses its CTL.SOFTRST; the first abort is recorded. -/
def forceGate (v : Vol) (d : Nat) : Vol :=
  (domBlocks d).foldl (fun v p =>
    let waits (k : Nat) : Option Nat := ((heldOf (coreOf v k)).find? fun h => inBlock p h.addr && h.resp.isNone).map fun h => h.addr
    match (List.range 9).find? fun k => (waits k).isSome with
    | none => v
    | some k =>
      let a := (waits k).getD 0
      let v := blockReset (endHeld v (inBlock p) 2) p
      let v := if rb v (ra pMtx 0x094) 31 then v
        else rgSet (rgSet v (ra pMtx 0x094) (BitVec.ofNat 32 (2 ^ 31 + portOf a * 65536 + k))) (ra pMtx 0x098) (BitVec.ofNat 32 a)
      raiseEvent (setFault v pMtx 2) pMtx 2) v

/-- What a write of a CLK register does (R534, R535, R537, R540, R542, R562). -/
def clkWrite (v : Vol) (off : Nat) (via : Via) (w : Word) : Vol :=
  let a := ra pClk off
  let old := rg v a
  let v1 := regWrite (if off = 0x040 then rcNoted v else v) pClk off via w
  let new := rg v1 a
  if off = 0x040 then
    let bad := (bit new 0 && !rb v (ra pClk 0x050) 0) || (bit new 1 && !rb v (ra pClk 0x054) 0)
    if bad then clkRefuse v true
    else if rose old new 0 then rgClr v1 (aStat pClk) 16 else v1
  else if off = 0x044 then
    (if taf v 0x048 13 0 < dropMinOf v (ta v) new then clkRefuse (rgSet v1 a old) true else v1)
  else if off = 0x048 ∨ off = 0x04C then
    let j := (off - 0x048) / 4
    if fell old new 0 then
      (if rb v (ra pClk 0x040) j then clkRefuse v false else rgClr v1 (ra pClk (0x050 + 4 * j)) 3)
    else v1
  else if 0x07C ≤ off ∧ off < 0x088 then
    (List.range 32).foldl (fun v i => if rose old new i then forceGate v (32 * ((off - 0x07C) / 4) + i + 1) else v) v1
  else v1

/-- CLK as read: the ready bits (R563). -/
def clkView (v : Vol) (off : Nat) (w : Word) : Word :=
  if off = 0x00C then
    (w &&& ~~~(0xD : Word)) ||| BitVec.ofNat 32 (1 + b2n (rb v (ra pClk 0x050) 0) * 4 + b2n (rb v (ra pClk 0x054) 0) * 8)
  else w

/-! ### Whole-part resets (R19, R543, R544) -/

/-- A whole-part reset of the cause with RST_CAUSE bit b (R543, R544): all SRAM, registers and buffers are wiped. The VBAT
domain's RTC and counter shadow, pin levels and the straps stay; the crystal keeps running but after a power-on or
brown-out, whose strap code `xt` is. -/
def wholeReset (v : Vol) (b : Nat) (xt : Option Nat) : Vol :=
  let strap := match xt with | some n => n | none => rf v (ra pClk 0x088) 1 0
  let xtrdy := xt.isNone && rb v (aStat pClk) 1
  let s := { Sys.reset with rtcSec := v.sys.rtcSec, rtcAt := v.sys.rtcAt, coldTamp := v.sys.coldTamp
                            ctrShadow := v.sys.ctrShadow, cause := bitWord b, reqAt := wall v, wait := SeqWait.crystal
                            rcAt := v.now, rcSum := wall v - v.now, relAt := v.now, xtalAt := wall v }
  let o := { Outs.reset with live := v.outs.live ^^^ invertedPins v, digLvl := v.outs.digLvl, tripa := v.outs.tripa, pga := v.outs.pga }
  let r := { Vol.reset with now := v.now, free := v.free + 4, sys := s, outs := o, svc := { Svc.reset with vbus := v.svc.vbus }
                            yok := { Yok.reset with prime := v.yok.prime, tokI := v.yok.tokI, tokAt := v.yok.tokAt }, lks := { Lks.reset with chal := v.free }, stuck := v.stuck
                            nand := v.nand }
  let r := rgSet (rgSet r (ra pRst 0x040) (bitWord b)) (ra pClk 0x088) (BitVec.ofNat 32 strap)
  let r := rgSet r (ra pClk 0x050) 0
  let r := rgSet r (ra pClk 0x054) 0
  let r := if xtrdy then seqPlls r else rgClr r (aStat pClk) 2
  outApply (tripEval ((List.range 8).foldl motStart r))

/-- VDD_CORE is lost with VBAT present (R553): the part is in COLD and keeps what the VBAT domain holds. -/
def coreSupplyLost (v : Vol) : Vol :=
  let r := wholeReset v 0 (some 0)
  let r := rgSet r (ra pRst 0x040) 0
  setSysP { r with lks := { r.lks with meshAt := wall r } } fun s => { s with mode := .cold, cause := 0, wait := .idle, xtalOn := false, mesh2 := rf v (ra pLks 0x094) 1 0 == 2 }

/-- The end of the reset sequence or of the exit from BANKED (R544 step 7, R557, R567): SERVICE, then SAFE when a source routed to SAFE
came meanwhile; the exit from BANKED is then one transition, to SAFE in place of SERVICE (R553). -/
def sequenceEnds (v : Vol) (safe : Bool) : Vol :=
  let goSafe := safe || v.sys.safeAfter
  let exits := v.sys.bankExit
  let v := setSysP v fun s => { s with
    wait := .idle, bankExit := false, safeAfter := false
    wdAt := if exits then s.wdAt + (wall v - s.bankAt) else s.wdAt }
  if exits && goSafe then safeEntered v
  else
    let v := outApply (transitionEnds v .service)
    if goSafe then enterSafe v else v

/-! ### Watchdog (R547) and the RST page -/

/-- The period of the running watchdog, in ms. -/
def wdPeriod (v : Vol) : Nat := v.sys.wdPer

/-- The watchdog's time, counted on the RC, which stands in BANKED (R547). -/
def wdNow (v : Vol) : Nat := if v.sys.mode == .banked then v.sys.bankAt else wall v

/-- Milliseconds the watchdog has left (R547, R566). -/
def wdLeft (v : Vol) : Nat := if v.sys.wdRunning then wdPeriod v - (wdNow v - v.sys.wdAt) / 400000 else 0

def wdWarning (v : Vol) : Vol :=
  if !v.sys.wdRunning || v.sys.wdExpired || v.sys.mode == .banked then v
  else raiseEvent (wallTo v (v.sys.wdAt + wdPeriod v * 300000)) pRst 0

def wdExpiry (v : Vol) : Vol :=
  if !v.sys.wdRunning || v.sys.wdExpired || v.sys.mode == .banked then v
  else
    let v := wallTo v (v.sys.wdAt + wdPeriod v * 400000)
    raiseEvent (setSysP v fun s => { s with wdExpired := true }) pRst 1

/-- The watchdog reset, 100 µs after the expiry (R547). -/
def wdReset (v : Vol) : Vol :=
  if v.sys.wdExpired then wholeReset (wallTo v (wall v + 40000)) 3 none else v

/-- What a write of an RST register does (R543, R545, R547, R566); no write changes a watchdog that runs (log entry 44). -/
def rstWrite (v : Vol) (off : Nat) (via : Via) (w : Word) : Vol :=
  if off = 0x044 then (if via == .direct && w == 0xA5C3 then wholeReset v 4 none else v)
  else if 0x048 ≤ off ∧ off < 0x054 then
    (if via == .direct then
        (List.range 32).foldl (fun v i => if bit w i then domainResetReq v (32 * ((off - 0x048) / 4) + i + 1) else v) v
      else v)
  else if off = 0x054 then
    (if via == .direct && bit w 31 && fld w 15 0 == 0 then
        (if smapGet (fun _ => 0) v.rwoUsed (ra pRst off) = 0 then rgOr v (aStat pRst) (bitWord 30) else v)
      else
        let v := regWrite v pRst off via w
        if rb v (ra pRst off) 31 && !v.sys.wdRunning then
          setSysP v fun s => { s with wdRunning := true, wdAt := wdNow v, wdExpired := false, wdPer := rf v (ra pRst off) 15 0 }
        else v)
  else if off = 0x058 then
    (if via != .direct then v
      else if w == 0xC35A then
        (if v.sys.wdRunning && !v.sys.wdExpired then setSysP v fun s => { s with wdAt := wdNow v } else v)
      else setFault v pRst 0)
  else regWrite v pRst off via w

def rstView (v : Vol) (off : Nat) (w : Word) : Word := if off = 0x05C then BitVec.ofNat 32 (wdLeft v) else w

end Sys2Proof.Machine
end

