-- ==== Sys2Proof/Machine/TalOps.lean ====
section
/-! DEFINITION. Tally (R295-R304, R312): its registers, the claim of each core, the service-core interrupt and the handing of
a pending source to its route. -/

namespace Sys2Proof.Machine

/-- The pending source of highest priority among those that a test admits; the lowest number wins a tie (R300, R301). -/
def bestSource (v : Vol) (ok : Nat → Bool) : Option Nat :=
  (List.range 512).foldl (fun b n =>
    if srcPending v n && ok n then
      match b with
      | some m => if talPri v m < talPri v n then some n else b
      | none => some n
    else b) none

/-- TAL_CLAIM[k] (R301). -/
def talClaim (v : Vol) (k : Nat) : Word :=
  match bestSource v (fun n => talRoute v n == k) with
  | some n => BitVec.ofNat 32 (2 ^ 31 + talPri v n * 2 ^ 24 + n)
  | none => 0

/-- The source whose interrupt the part asserts at the service core (R300). -/
def intSource (v : Vol) : Option Nat :=
  let th := rf v (ra pTal 0x080) 2 0
  bestSource v fun n => talRoute v n == 8 && decide (th < talPri v n)

/-- Note the sources of word i that a change made pending: they wait to be handed to their routes. -/
def notePending (v v' : Vol) (i : Nat) : Vol :=
  (List.range 32).foldl (fun w b =>
    let n := 32 * i + b
    if srcPending v' n && !srcPending v n then { w with tally := { w.tally with handed := w.tally.handed &&& ~~~srcBit n } } else w) v'

/-- Clear both latches of the sources of word i that a mask names (R298). -/
def clearLatches (v : Vol) (i : Nat) (m : Word) : Vol :=
  let b : BitVec 512 := m.setWidth 512 <<< (32 * i)
  { v with tally := { v.tally with edge := v.tally.edge &&& ~~~b, soft := v.tally.soft &&& ~~~b } }

/-- What a write of a TAL register does (R298, R312). -/
def talWrite (v : Vol) (p off : Nat) (via : Via) (w : Word) : Vol :=
  if p = pTal + 2 ∧ 0x040 ≤ off ∧ off < 0x080 then
    let i := (off - 0x040) / 4
    let old := rg v (ra p off)
    let v' := regWrite v p off via w
    notePending v (clearLatches v' i (old &&& ~~~(rg v' (ra p off)))) i
  else if p = pTal + 2 ∧ 0x080 ≤ off ∧ off < 0x0C0 then
    (if via == .setBits then v else clearLatches v ((off - 0x080) / 4) w)
  else if p = pTal + 2 ∧ 0x100 ≤ off ∧ off < 0x140 then
    (if via != .direct then v
      else
        let i := (off - 0x100) / 4
        let on := w &&& rg v (ra p (0x040 + 4 * i))
        notePending v { v with tally := { v.tally with soft := v.tally.soft ||| (on.setWidth 512 <<< (32 * i)) } } i)
  else if p = pTal + 1 ∧ 0x040 ≤ off then notePending v (regWrite v p off via w) ((off - 0x040) / 32)
  else if p = pTal + 3 ∧ off = 0x040 then
    (let v := regWrite v p off via w
     { v with tally := { v.tally with stopped := false } })
  else regWrite v p off via w

/-- 32 sources as a word. -/
def sourceWord (f : Nat → Bool) (i : Nat) : Word := BitVec.ofNat 32 ((List.range 32).map fun b => b2n (f (32 * i + b)) * 2 ^ b).sum

/-- TAL registers as read (R298, R301, R312). -/
def talView (v : Vol) (p off : Nat) (w : Word) : Word :=
  if p = pTal ∧ 0x040 ≤ off ∧ off < 0x064 then talClaim v ((off - 0x040) / 4)
  else if p = pTal + 2 ∧ 0x080 ≤ off ∧ off < 0x0C0 then sourceWord (srcPending v) ((off - 0x080) / 4)
  else if p = pTal + 2 ∧ 0x0C0 ≤ off ∧ off < 0x100 then sourceWord (line v) ((off - 0x0C0) / 4)
  else w

/-- A trace entry for a source whose pending bit rises (R304); after an entry into SAFE with STOPSAFE none is written until
TAL_TRCTL is (log entry 107). A fifth in one cycle is not traced and sets TRLOST. -/
def talTrace (v : Vol) (n : Nat) : Vol :=
  let p := pTal + 3
  let c := rg v (ra p 0x040)
  if !bit c 0 || v.tally.stopped then v
  else if v.tally.traceAt = v.now ∧ 4 ≤ v.tally.traced then setFault v pTal 0
  else
    let e := rf v (ra p 0x044) 4 0
    let v := { v with tally := { v.tally with
      traceAt := v.now, traced := if v.tally.traceAt = v.now then v.tally.traced + 1 else 1 } }
    let v := rgSet v (ra p (0x080 + 8 * e)) (BitVec.ofNat 32 (2 ^ 31 + tickCyc v % 2 ^ 19 * 512 + n))
    let v := rgSet v (ra p (0x084 + 8 * e)) (v.tick.number.setWidth 32)
    let wrap := rb v (ra p 0x044) 31 || e == 31
    rgSet v (ra p 0x044) (BitVec.ofNat 32 (b2n wrap * 2 ^ 31 + (e + 1) % 32))

/-- A source enters the relay queue to the twin (R435). -/
def relaySend (v : Vol) (n : Nat) : Vol :=
  if !twinLinked v || 8 ≤ v.yok.relayTx.length then setFault v pYok 5
  else setYok v fun y => { y with relayTx := y.relayTx ++ [n] }

/-- A pending source is handed to its route, once each time it becomes pending (R299, R303, R304, R555). -/
def tallyHand (v : Vol) (n : Nat) : Vol :=
  if !srcPending v n || v.tally.handed.getLsbD n || v.sys.mode == .cold then v
  else
    let v := { v with tally := { v.tally with handed := v.tally.handed ||| srcBit n } }
    let v := talTrace v n
    let v := if rb v (ra (pTal + 2) (0x140 + 4 * (n / 32))) (n % 32) then bankedWake v n else v
    if talRoute v n = 9 then
      let v := safeCause v n
      let v := if v.sys.mode == .banked then bankedWake v n else v
      enterSafe v
    else if talRoute v n = 10 then relaySend v n
    else v

end Sys2Proof.Machine
end

