-- ==== Sys2Proof/Machine/WhsFlcOps.lean ====
section
/-! DEFINITION. The flash controller's commands (R243-R245, R268-R271) and Whetstone: region tests, the fast pass and the
flash signature (R260-R265, R272-R275). -/

namespace Sys2Proof.Machine

/-! ### The flash controller -/

/-- Write n words of flash or config flash from an address. -/
def flashPut (nv : Nv) (a : Nat) : List Word → Nv
  | [] => nv
  | w :: rest => flashPut { nv with flash := smapSet flashBlank nv.flash a w } (a + 4) rest

/-- Give the 16-byte units of a range of n bytes a number of wrong bits. -/
def unitsPut (nv : Nv) (a n : Nat) (e : Nat → Nat) : Nv :=
  (List.range (n / 16)).foldl (fun nv i => { nv with unitErr := smapSet noErr nv.unitErr (a + 16 * i) (e i) }) nv

/-- Erase n bytes of flash or config flash: every bit reads 1 (R244). -/
def flashErase (nv : Nv) (a n : Nat) : Nv :=
  let keep (x : Nat) : Bool := !(decide (a ≤ x) && decide (x < a + n))
  { nv with flash := smapKeep keep nv.flash, unitErr := smapKeep keep nv.unitErr }

/-- An erase of n bytes that fails (R502): which words and units it reaches is free (log entry 140). -/
def flashErased (nv : Nv) (a n free : Nat) : Nv :=
  let keep (x : Nat) : Bool := !(decide (a ≤ x) && decide (x < a + n) && Config.eraseReaches free x)
  { nv with flash := smapKeep keep nv.flash, unitErr := smapKeep keep nv.unitErr }

/-- A program of n bytes whose read-back disagrees (R244): its words, and the wrong bits of their units, are free (log entry 17). -/
def flashFailed (nv : Nv) (a n free : Nat) : Nv :=
  unitsPut (flashPut nv a ((List.range (n / 4)).map fun i => Config.failedWord (free + i))) a n fun i => Config.failedUnit (free + i)

/-- Whether n bytes of flash from an address are erased. -/
def flashIsBlank (nv : Nv) (a n : Nat) : Bool :=
  !(nv.flash.any fun c => decide (a ≤ c.1) && decide (c.1 < a + n)) &&
    !(nv.unitErr.any fun c => decide (a ≤ c.1) && decide (c.1 < a + n))

/-- The bytes that command op works on: from where, and how many (R244, R268). -/
def flcSpan (op a : Nat) : Nat × Nat :=
  if op = 1 then (a, if a < 0x1000000 then 128 else 16)
  else if op = 3 then (a / 0x800000 * 0x800000, 0x800000)
  else (a / 0x10000 * 0x10000, 0x10000)

/-- The FAULT bit for which command op at an address is refused at its start (R243, R244); EPLANE of config flash has no
plane, and in BLANK plane A may be programmed (R493). Probation locks the inactive plane (R511). -/
def flcRefusal (nv : Nv) (v : Vol) (op a : Nat) : Option Nat :=
  if 0x1080000 ≤ a ∨ (op = 3 ∧ 0x1000000 ≤ a) then some 2
  else if a < 0x1000000 ∧ ((a / 0x800000 = activePlane v ∧ lifeCycle nv ≠ 0) ∨ (op ≠ 4 ∧ rb v (ra pLks 0x05C) 4)) then some 0
  else if op = 1 ∧ a % (flcSpan op a).2 ≠ 0 then some 2
  else if op = 1 ∧ !flashIsBlank nv a (flcSpan op a).2 then some 1
  else none

/-- An erase or programming of plane p starts: its verified mark and its key go (R30, R481). -/
def planeUnverify (v : Vol) (p : Nat) : Vol :=
  let v := rbSet v (aStat pFlc) p false
  { v with lks := { v.lks with slots := smapSet (fun _ => []) v.lks.slots (1 + p) [] } }

/-- The start of an FLC command with FLC_ADDR and FLC_PBUF as they stand (R243, R244, R269). -/
def flcStart (nv : Nv) (v : Vol) (op : Nat) : Vol :=
  let a := (rg v (ra pFlc 0x044)).toNat
  match flcRefusal nv v op a with
  | some f => raiseEvent (rfSet (setFault v pFlc f) (ra pFlc 0x040) 2 0 0) pFlc 1
  | none =>
    let n := (flcSpan op a).2 / 4
    let v := { v with flc := ⟨op, a, if op = 1 then (List.range n).map fun i => rg v (ra pFlc (0x100 + 4 * i)) else []⟩ }
    let v := if op ≠ 4 ∧ a < 0x1000000 then planeUnverify v (a / 0x800000) else v
    rgOr v (aStat pFlc) (bitWord 29)

/-- What a write of an FLC register does (R269): an OP written while a command runs is ignored. -/
def flcWrite (nv : Nv) (v : Vol) (off : Nat) (via : Via) (w : Word) : Vol :=
  if off ≠ 0x040 then regWrite v pFlc off via w
  else
    let old := rg v (ra pFlc off)
    let v1 := regWrite v pFlc off via w
    let op := rf v1 (ra pFlc off) 2 0
    if v.flc.op ≠ 0 then
      (if fld w 2 0 ≠ 0 && via != .clearBits then setFault (rgSet v1 (ra pFlc off) old) pFlc 3 else rgSet v1 (ra pFlc off) old)
    else if op ≠ 0 then flcStart nv v1 op
    else v1

/-- The command ends after `us` microseconds (R244, R245, R269). `good` says whether a program's read-back agrees; a failed
one leaves free contents. -/
def flcDone (nv : Nv) (v : Vol) (us : Nat) (good : Bool) : Nv × Vol :=
  let op := v.flc.op
  if op = 0 then (nv, v)
  else
    let (a, n) := flcSpan op v.flc.addr
    let v1 := { rgClr (rfSet v (ra pFlc 0x040) 2 0 0) (aStat pFlc) (bitWord 29) with flc := Flc.reset }
    let v1 := rgSet v1 (ra pFlc 0x048) (BitVec.ofNat 32 us)
    if op = 1 then
      if good then (unitsPut (flashPut nv a (v.flc.buf.take (n / 4))) a n fun _ => 0, raiseEvent v1 pFlc 0)
      else
        (flashFailed nv a n v.free, raiseEvent (setFault { v1 with free := v.free + 32 } pFlc 4) pFlc 1)
    else if op = 4 then
      (nv, if flashIsBlank nv a n then raiseEvent v1 pFlc 0 else raiseEvent (setFault v1 pFlc 1) pFlc 1)
    else (flashErase nv a n, raiseEvent v1 pFlc 0)

/-! ### Whetstone -/

/-- The memory with number m of WHS_SEL: its first word, its size in bytes and its power domains. -/
def whsMem (m : Nat) : Nat × Nat × List Nat :=
  if m < 8 then (0x10000000 + m * 0x100000, 0x40000, [10 + m])
  else if m = 8 then (0x10800000, 0x80000, [18])
  else (0x20000000, 0x200000, (List.range 16).map (81 + ·))

/-- The memories of a selection whose domains are up (R263). -/
def whsMems (v : Vol) (sel : Word) : List Nat :=
  (List.range 10).filter fun m => bit sel m && (whsMem m).2.2.all (domUp v)

/-- The first region at or after an address in the walk over the selected memories (R263). -/
def whsFrom (v : Vol) (a : Nat) : Option Nat :=
  (whsMems v (rg v (ra pWhs 0x040))).findSome? fun m =>
    let (b, n, _) := whsMem m
    if b + n ≤ a then none else some (max a b)

def setWhs (v : Vol) (f : Whs → Whs) : Vol := { v with whs := f v.whs }

/-- A background pass is complete (R263). -/
def whsPassEnds (v : Vol) : Vol :=
  let v := rgInc v (ra pWhs 0x050)
  let v := rgSet v (ra pWhs 0x054) (BitVec.ofNat 32 ((wall v - v.whs.passAt) / 400))
  raiseEvent v pWhs 0

/-- The walk stands at the first region at or after an address, or the pass ends and it starts over; answers whether a
region is left. -/
def whsMove (v : Vol) (a : Nat) : Vol × Bool :=
  let put (v : Vol) (x : Nat) : Vol := rgSet v (ra pWhs 0x04C) (BitVec.ofNat 32 x)
  match whsFrom v a with
  | some x => (put v x, true)
  | none =>
    match whsFrom v 0 with
    | some x => (put (whsPassEnds v) x, true)
    | none => (v, false)

/-- Whether a fast pass runs: CTL.FAST (R273). -/
def fastBusy (v : Vol) : Bool := rb v (aCtl pWhs) 1

/-- A word is saved into the shadow buffer (R260, R261): as its read through the check bits shows it, with fresh check bits, or
with ones that report it uncorrectable. -/
def whsSave (v : Vol) (a : Nat) : Vol :=
  match sramRead v a 16 with
  | (v, some w) => { v with sram := smapSet sramBlank v.sram a w, sramErr := smapSet noErr v.sramErr a 0 }
  | (v, none) => { v with sramErr := smapSet noErr v.sramErr a 2 }

/-- A region goes behind the shadow buffer and is saved (R260, R261, R263). While the region is under test its 64 words in `sram`
and `sramErr` are the shadow buffer, which every access reaches, and the restore leaves them in the memory (log entry 27). -/
def whsRegionStart (v : Vol) : Vol :=
  if !ready v pWhs || !rb v (aCtl pWhs) 0 || v.whs.testing || fastBusy v then v
  else
    match whsMove v (rg v (ra pWhs 0x04C)).toNat with
    | (v, false) => v
    | (v, true) =>
      let a := (rg v (ra pWhs 0x04C)).toNat
      let v := if whsFrom v 0 = some a ∧ v.whs.retries = 0 ∧ !v.whs.retest then setWhs v fun w => { w with passAt := wall v } else v
      let v := (List.range 64).foldl (fun v i => whsSave v (a + 4 * i)) v
      setWhs v fun w => { w with testing := true, saved := v.now, retest := false }

/-- A word goes back into memory: with fresh check bits, or, if it was uncorrectable, with ones that together with a stuck bit still
report it so (R261, R262). -/
def whsWriteBack (v : Vol) (a : Nat) : Vol :=
  if v.stuck.contains a && smapGet noErr v.sramErr a == 2 then { v with sramErr := smapSet noErr v.sramErr a 1 } else v

/-- The region is restored; power-downs that waited for it continue (R275). -/
def whsRestore (v : Vol) : Vol :=
  let a := (rg v (ra pWhs 0x04C)).toNat
  settleDowns ((List.range 64).foldl (fun v i => whsWriteBack v (a + 4 * i)) (setWhs v fun w => { w with testing := false }))

/-- March and restore of the region end (R261, R262): whether the failing cell is stuck, so that each read of its word corrects it,
is free (log entry 105). -/
def whsRegionDone (v : Vol) (fail : Option MarchFail) : Vol :=
  if !v.whs.testing then v
  else
    let a := (rg v (ra pWhs 0x04C)).toNat
    let v := match fail with
      | none => v
      | some f =>
        let v := if rb v (aFault pWhs) 0 then v
          else rgSet (rgSet v (ra pWhs 0x05C) (BitVec.ofNat 32 (a + 4 * f.word.val))) (ra pWhs 0x060)
            (BitVec.ofNat 32 (f.bit.val * 256 + f.elem.val))
        let w := a + 4 * f.word.val
        let v := if Config.stuckCell v.free && !v.stuck.contains w then { v with stuck := w :: v.stuck } else v
        raiseEvent (setFault (nextFree v) pWhs 0) pWhs 2
    let v := setWhs (whsRestore v) fun w => { w with retries := 0 }
    (whsMove v (a + 256)).1

/-- The region has not reached its restore in time (R263): four retries, then it is skipped. -/
def whsRegionTimeout (v : Vol) : Vol :=
  if !v.whs.testing then v
  else
    let a := (rg v (ra pWhs 0x04C)).toNat
    let v := { v with now := max v.now (v.whs.saved + rf v (ra pWhs 0x048) 15 0) }
    let v := whsRestore v
    if v.whs.retries < 4 then setWhs v fun w => { w with retries := w.retries + 1 }
    else (whsMove (setWhs (rgInc v (ra pWhs 0x058)) fun w => { w with retries := 0 }) (a + 256)).1

/-- A fast pass starts: a region under test is restored and will be tested again (R264). -/
def whsFastStart (v : Vol) : Vol :=
  let v := rgOr v (aCtl pWhs) 2
  if v.whs.testing then whsRestore (setWhs v fun w => { w with retest := true }) else v

/-- The fast pass ends after `len` cycles (R264): it read every word of its memories. -/
def whsFastDone (v : Vol) (len : Nat) (marchFail : Bool) : Vol :=
  if !fastBusy v then v
  else
    let spans := (whsMems v (rg v (ra pWhs 0x064))).map whsMem
    let within (a : Nat) : Bool := spans.any fun s => decide (s.1 ≤ a) && decide (a < s.1 + s.2.1)
    let check (acc : Vol × Bool) (c : Nat) : Vol × Bool :=
      if !within c then acc
      else
        match sramRead acc.1 c 16 with
        | (v, some _) => (v, acc.2)
        | (v, none) => (v, true)
    let (v, bad) := ((v.sramErr.map (·.1)) ++ v.stuck.filter fun a => smapGet noErr v.sramErr a = 0).foldl check (v, marchFail)
    let v := rgSet (rgClr v (aCtl pWhs) 2) (ra pWhs 0x068) (BitVec.ofNat 32 len)
    let v := if v.yok.st = 1 then { v with yok := { v.yok with fast := some (!bad) } } else v
    let v := if bad then raiseEvent (setFault v pWhs 1) pWhs 2 else v
    raiseEvent v pWhs 1

/-- The 16 bytes that a flash unit holds: wrong bits change them (log entry 12). -/
def storedUnit (nv : Nv) (u : Nat) : List Byte :=
  let bs := flashBytes nv u 16
  let e := unitErrAt nv u
  if e = 0 then bs else Config.bytes 16 (Config.wrongUnit u e bs)

/-- Whetstone reads the next line of the active plane into the signature (R265). -/
def whsFlashLine (nv : Nv) (v : Vol) : Vol :=
  if !ready v pWhs || !rb v (aCtl pWhs) 2 then v
  else
    let act := activePlane v
    let i := v.whs.fline
    let v := if i = 0 then setWhs v fun w => { w with fsum := 0xFFFFFFFF, bad := !planeVerified v act } else v
    let sum := ((List.range 8).flatMap fun u => storedUnit nv (act * 0x800000 + 128 * i + 16 * u)).foldl (crc32Byte crc32cPoly) v.whs.fsum
    if i < 65535 then setWhs v fun w => { w with fline := i + 1, fsum := sum }
    else
      let sig := ~~~sum
      let v := rgSet (setWhs v fun w => { w with fline := 0 }) (ra pWhs 0x080) sig
      if rb v (aStat pWhs) 2 then
        (if sig = rg v (ra pWhs 0x084) then v else raiseEvent (setFault v pWhs 2) pWhs 3)
      else if v.whs.bad then v
      else rgOr (rgSet v (ra pWhs 0x084) sig) (aStat pWhs) 4

/-- The active plane has changed (R265): the flash pass restarts without a reference. -/
def whsPlaneSwitched (v : Vol) : Vol := setWhs (rgClr v (aStat pWhs) 4) fun w => { w with fline := 0 }

/-- What a write of a WHS register does (R264, R273). -/
def whsWrite (v : Vol) (off : Nat) (via : Via) (w : Word) : Vol :=
  if off ≠ 0x008 then regWrite v pWhs off via w
  else
    let was := fastBusy v
    let v := regWrite v pWhs off via w
    if was then rgOr v (aCtl pWhs) 2
    else if fastBusy v then whsFastStart v
    else v

/-- WHS as read: STAT.TESTING and STAT.FASTBUSY (R273). -/
def whsView (v : Vol) (off : Nat) (w : Word) : Word :=
  if off = 0x00C then w ||| BitVec.ofNat 32 (b2n (fastBusy v) * 2 + b2n v.whs.testing) else w

end Sys2Proof.Machine
end

