-- ==== Sys2Proof/Machine/YokOps.lean ====
section
/-! DEFINITION. Twin operation (R403-R440): what each received frame does, what a part does at its boundary, and attach,
detach, takeover and handover. -/

namespace Sys2Proof.Machine

abbrev aYok (off : Nat) : Nat := ra pYok off
/-- The own image tag as Locksmith wrote it (R415, R437): YOK_IMG. -/
def yokImg (v : Vol) (i : Nat) : Word := rg v (aYok (0x074 + 4 * i))
def yf (v : Vol) (off hi lo : Nat) : Nat := rf v (aYok off) hi lo

/-! ### The own frames of a boundary (R410-R416) -/

/-- The bytes of the digest of a boundary (R422): the tick number, then each channel word as committed; zeros for a
service-core channel. -/
def digestBytes (v : Vol) : List Byte :=
  leBytes 8 v.tick.number.toNat ++ outWords.flatMap fun i =>
    if outOwner v i = 8 then List.replicate 5 0
    else wordBytes (actOf v i).data ++ [(actOf v i).tag.setWidth 8]

/-- The own digest of the last boundary: YOK_DGLOC. -/
def dgLoc (v : Vol) : BitVec 64 := (rg v (aYok 0x054)).setWidth 64 <<< 32 ||| (rg v (aYok 0x050)).setWidth 64

/-- The digest of this boundary is formed; the one before goes into its frame (R422). -/
def yokDigest (v : Vol) : Vol :=
  let d := crc64 (digestBytes v)
  let v := setYok v fun y => { y with dig := dgLoc v }
  rgSet (rgSet v (aYok 0x050) (d.setWidth 32)) (aYok 0x054) ((d >>> 32).setWidth 32)

/-- A relay entry as it travels (R410). -/
def relayBytes (l : List Nat) (i : Nat) : List Byte :=
  match l[i]? with
  | some n => leBytes 2 (0x8000 + n % 512)
  | none => [0, 0]

/-- The own verdict of YOK_VERD: PASS is cause 0 (R427). -/
def verdPass (v : Vol) : Bool := rb v (aYok 0x064) 31 && yf v 0x064 1 0 == 0

/-- FLAGS that MARK and RPLY share: SAFE, VVALID, VPASS and NOCMP. -/
def yokFlags (v : Vol) : Nat :=
  b2n (v.sys.mode == .safe) + b2n (v.yok.st == 2) * 8 + b2n (v.yok.st == 2 && verdPass v) * 16 + b2n v.yok.ownNo * 32

/-- The MARK of this boundary (R410). -/
def markPayload (v : Vol) (hand : Bool) : List Byte :=
  leBytes 8 v.tick.number.toNat ++ leBytes 4 (v.tick.next - v.now) ++ leBytes 8 v.yok.dig.toNat
    ++ [BitVec.ofNat 8 (yokFlags v + b2n (rb v (aStat pClk) 4) * 2 + b2n hand * 4), BitVec.ofNat 8 (yf v 0x060 3 0)]
    ++ relayBytes v.yok.relayTx 0 ++ relayBytes v.yok.relayTx 1 ++ List.replicate 6 0

/-- The RPLY of this boundary (R411). -/
def rplyPayload (v : Vol) : List Byte :=
  leBytes 8 v.tick.number.toNat ++ leBytes 8 v.yok.dig.toNat
    ++ [BitVec.ofNat 8 (yokFlags v + b2n v.yok.xbeyond * 64 + b2n v.yok.dropFail * 128),
      BitVec.ofNat 8 (yf v 0x060 3 0 + min v.yok.resends 3 * 16)]
    ++ relayBytes v.yok.relayTx 0 ++ relayBytes v.yok.relayTx 1 ++ List.replicate 10 0

/-- Two tags in a byte (R412). -/
def tagPair (a b : Tag) : Byte := a.setWidth 8 ||| (b.setWidth 8 <<< 4)

/-- The tags of n words, two to a byte. -/
def tagBytes (w : Nat → TWord) (n : Nat) : List Byte :=
  (List.range ((n + 1) / 2)).map fun i => tagPair (w (2 * i)).tag (if 2 * i + 1 < n then (w (2 * i + 1)).tag else 0)

/-- The payload of snapshot segment s (R412). -/
def snapPayload (v : Vol) (s : Nat) : List Byte :=
  if s < 4 then
    let w (i : Nat) : TWord := meaWord v (48 * s + i)
    ((List.range 48).flatMap fun i => wordBytes (w i).data) ++ tagBytes w 48
  else (List.range 2).flatMap (fun i => wordBytes (rg v (ra pGio (0x040 + 4 * i))))
    ++ (List.range 48).flatMap fun k => wordBytes (rg v (ra pGio (0x2C0 + 4 * k)))

/-- The waiting MBOX operations that travel in this tick: at most four (R436). -/
def sendMail (v : Vol) : Vol :=
  let v' := (v.yok.mboxQ.take 4).foldl (fun v p => yokSend v 5 0 p) v
  setYok v' fun y => { y with mboxQ := y.mboxQ.drop 4 }

/-! ### Attach at the lead (R430) -/

/-- The words of the attach regions. -/
def attWords (v : Vol) : Nat := ((List.range 8).map fun r => yf v (0x094 + 8 * r) 16 0).sum
def attRegions (v : Vol) : List Nat :=
  (List.range 8).flatMap fun r =>
    (List.range (yf v (0x094 + 8 * r) 16 0)).map fun i => (rg v (aYok (0x090 + 8 * r))).toNat + 4 * i

/-- Addresses grouped into runs of at most 48 consecutive words (R414). -/
def wordRuns : List Nat → List (List Nat)
  | [] => []
  | a :: rest =>
    match wordRuns rest with
    | (b :: bs) :: more => if b = a + 4 ∧ bs.length < 47 then (a :: b :: bs) :: more else [a] :: (b :: bs) :: more
    | other => [a] :: other

/-- The words at the addresses of a run as the Yoke engine reads them (R252): what it sends of an uncorrectable word is free (log
entry 106). -/
def runWords (v : Vol) (run : List Nat) : Vol × List TWord :=
  run.foldl (fun acc a =>
    match sramRead acc.1 a 14 with
    | (v, some w) => (v, acc.2 ++ [w])
    | (v, none) => (nextFree v, acc.2 ++ [⟨Config.eccWord v.free, Tag.raw⟩])) (v, [])

/-- One STATE frame with the words at the addresses of a run (R414). -/
def sendRun (v : Vol) (run : List Nat) : Vol :=
  let n := run.length
  let (v, ws) := runWords v run
  let w (i : Nat) : TWord := ws.getD i TWord.zero
  let body := leBytes 4 (run.headD 0) ++ [BitVec.ofNat 8 n, 0, 0, 0] ++ (List.range n).flatMap (fun i => wordBytes (w i).data)
    ++ tagBytes w n ++ if ((n + 1) / 2) % 2 = 1 then [0] else []
  let q := v.yok.seq
  setYok (yokSend v 6 q body) fun y =>
    { y with seq := (q + 1) % 128, flight := ((q, run, y.attPh == 4) :: y.flight.filter (fun f => f.1 != q)).take 128
             dirty := run.foldl (fun m a => smapErase m a) y.dirty }

/-- The words that the rest of a tick's link time carries after the frames of R416, at 8 c each. -/
def linkWords (v : Vol) (mail : Nat) : Nat := (v.tick.next - v.now - 1912 - 84 * mail) / 8

/-- The attach ends without success (R430): FAULT.ATTFAIL and event 7; a paused lead releases at its next boundary. -/
def attachFails (v : Vol) : Vol :=
  let joiner := v.yok.role == 3
  let v := setYok v fun y => { y with
    attPh := 0, attTicks := 0, cutTicks := 0, dirty := [], bulk := [], flight := [], joinDue := false, joinAt := none
    role := if joiner then 0 else y.role }
  raiseEvent (setFault (if joiner then rgClr v (aCtl pYok) 4 else v) pYok 6) pYok 7

/-- Attach is complete on this side (R430, R309): event 5; kept mail travels. -/
def attachEnds (v : Vol) (role noCmp : Nat) : Vol :=
  let v := setYok v fun y => { y with
    role := role, twin := true, attPh := 0, attTicks := 0, cutTicks := 0, pause := false, dirty := [], bulk := [], flight := []
    joinDue := false, joinAt := none, noCmp := noCmp, noRply := 0, st := 0, twinV := none, xcnt := [], mboxQ := [] }
  let v := rgSet (rgClr v (aCtl pYok) 4) (aYok 0x060) 0
  mbxCarryKept (raiseEvent v pYok 5)

/-- The joining part becomes shadow (R430, R432, R553): from RUN alone. -/
def becomeShadow (v : Vol) (noCmp : Nat) : Vol :=
  if v.sys.mode = .run then
    attachEnds (transitionEnds (setSysP v fun s => { s with reqAt := wall v }) .shadow) 2 noCmp
  else attachFails v

/-- The lead's part of an attach at a boundary (R430, R431); `mail` frames went before. -/
def attachLead (v : Vol) (mail : Nat) : Vol :=
  let v := setYok v fun y => { y with attTicks := y.attTicks + 1 }
  let room := linkWords v mail
  let marked : List Nat := v.yok.dirty.map fun p => p.1
  if v.yok.attPh = 2 then
    let v := (wordRuns (v.yok.bulk.take room)).foldl sendRun v
    setYok v fun y => { y with bulk := y.bulk.drop room, attPh := if y.bulk.length ≤ room then 3 else 2 }
  else if v.yok.attPh = 3 then
    if marked.length ≤ yf v 0x084 12 0 then
      let v := setYok v fun y => { y with
        attPh := 4, pause := true, cutTicks := 0, cutSent := (marked.take room).length
        cutAt := v.tick.number.toNat % 2 ^ 32, cutAcks := [] }
      (wordRuns (marked.take room)).foldl sendRun v
    else (wordRuns (marked.take room)).foldl sendRun v
  else if v.yok.attPh = 4 then
    let v := setYok v fun y => { y with cutTicks := y.cutTicks + 1 }
    let v := setYok v fun y => { y with cutSent := y.cutSent + (marked.take room).length }
    (wordRuns (marked.take room)).foldl sendRun v
  else v

/-- A joining part's view of the phases at its boundary (R430): no frame names boundary A, so the cut is taken to have begun when the tick
behind it, after the tick in which bulk ended, brought no more words than YOK_CUTMAX and fewer than its link time carries (DEDUCED, log
entry 62). -/
def attachJoin (v : Vol) : Vol :=
  let last := (tickWord v + 2 ^ 32 - 1) % 2 ^ 32
  let y := v.yok
  let words := if y.gotTick.1 = last then y.gotTick.2 else 0
  let after := decide (0 < (last + 2 ^ 32 - y.cutAt) % 2 ^ 32) && decide ((last + 2 ^ 32 - y.cutAt) % 2 ^ 32 < 2 ^ 31)
  let cut := y.attPh == 3 && after && decide (words ≤ yf v 0x084 12 0) && decide (8 * words + 1912 + 336 < y.markLen)
  setYok v fun y => { y with
    attTicks := y.attTicks + 1, attPh := if cut then 4 else y.attPh
    cutTicks := if cut then 1 else if y.attPh = 4 then y.cutTicks + 1 else 0 }

/-! ### Detach (R429) -/

/-- A part detaches: DETACH is sent when the link allows, event 1, mailboxes of receiver 10 are reset (R308). The next
boundary completes it. -/
def yokDetach (v : Vol) : Vol :=
  let v := if v.yok.attPh ≠ 0 ∨ v.yok.role = 3 then attachFails v else v
  if !v.yok.twin then rgClr v (aCtl pYok) 8
  else
    let v := yokCtrl v 8 []
    let v := setYok v fun y => { y with twin := false, detachDue := true, relayTx := [], mboxQ := [], attCold := false, st := 0 }
    mbxAbort (raiseEvent v pYok 1) 10

/-- The boundary after a detach (R429): a lead runs on alone, a shadow enters SAFE. A shadow that gave a snapshot up detaches
here (R419). -/
def detachBoundary (v : Vol) : Vol :=
  if !v.yok.detachDue then v
  else
    let v := if v.yok.twin then yokDetach v else v
    let shadow := v.yok.role == 2
    let v := setYok (rgClr v (aCtl pYok) 8) fun y => { y with detachDue := false, takeDue := false, role := 0 }
    if shadow then enterSafe v else v

/-! ### Comparison, self-test and verdict (R423, R427, R428) -/

/-- A mismatch is detected (R427): unless a test is pending, the fast pass starts, or the running one is adopted. -/
def selfTestStarts (v : Vol) : Vol :=
  if v.yok.st ≠ 0 then v
  else
    let v := setYok v fun y => { y with st := 1, twinV := none, fast := none }
    let v := rgSet v (aYok 0x064) 0
    if ready v pWhs && !fastBusy v then whsFastStart v else v

/-- NOCMP of the frame of this boundary (R422, R430, R432, R438). -/
def ownNoCmp (v : Vol) : Bool :=
  !rb v (aYok 0x040) 8 || v.yok.attCold || decide (v.yok.attPh ≠ 0) || decide (0 < v.yok.noCmp)

/-- The comparison of the own digest with the twin's, and the counts (R423); `noCmp` when one of the two frames carries NOCMP.
Answers whether a count has reached YOK_CFG.MMLIM. -/
def yokCompare (v : Vol) (own twin : BitVec 64) (noCmp : Bool) (twinCount : Nat) : Vol × Bool :=
  let v := rgSet (rgSet v (aYok 0x058) (twin.setWidth 32)) (aYok 0x05C) ((twin >>> 32).setWidth 32)
  let v :=
    if noCmp then v
    else if own = twin then rgSet v (aYok 0x060) 0
    else selfTestStarts (raiseEvent (rgIncSat v (aYok 0x060) 4) pYok 2)
  let lim := yf v 0x040 3 0
  (v, decide (lim ≤ yf v 0x060 3 0) || decide (lim ≤ twinCount))

/-- The verdict (R427): memory, reference, or a fast pass that has not ended. -/
def formVerdict (v : Vol) : Vol :=
  let refBad := (List.range 24).any fun b => ready v (pMea b) && rb v (aCtl (pMea b)) 0 && !rb v (ra (pMea b) 0x050) 31
  let c := if v.yok.fast = some false then 1 else if refBad then 2 else if v.yok.fast.isNone then 3 else 0
  setYok (rgSet v (aYok 0x064) (BitVec.ofNat 32 (2 ^ 31 + b2n (v.yok.twinV == some true) * 256 + c))) fun y => { y with st := 2 }

/-- The twin's verdict as it arrives; one that has not counts as FAIL. -/
def twinVerdict (v : Vol) (flags : Nat) : Vol :=
  if flags.testBit 3 && v.yok.st != 0 then
    let p := flags.testBit 4
    rbSet (setYok v fun y => { y with twinV := some p }) (aYok 0x064) 8 p
  else v

/-- Both verdicts act (R428): a detach follows the boundary's own frames; a lead whose verdict alone is FAIL releases its token and enters
SAFE at its c1120. -/
def verdictActs (v : Vol) : Vol :=
  let own := verdPass v
  let twin := v.yok.twinV == some true
  let lead := v.yok.role == 1
  let v := setYok v fun y => { y with st := 0 }
  if own && twin then raiseEvent v pYok 3
  else if own && !twin then
    setYok v fun y => if lead then { y with detachDue := true } else { y with takeDue := true }
  else if !own && twin then
    setYok v fun y => if lead then { y with relAt := some (v.now + 1120, false) } else { y with safeDue := true, detachDue := true }
  else setYok v fun y => { y with safeDue := true }

/-- What a part decides as its boundary comes, before the boundary's own actions (R405, R419, R423, R424, R427-R429):
heartbeat, comparison, verdict. -/
def yokDecide (v : Vol) : Vol :=
  if !ready v pYok then v
  else
    let st := v.yok.st
    let v := setYok v fun y => { y with out := [], outAt := [], noMark := y.noMark + 1, noRply := if y.rply.isEmpty then y.noRply + 1 else 0, rply := [] }
    let v :=
      if v.yok.role = 2 ∧ v.yok.twin ∧ v.sys.mode = .shadow ∧ !v.yok.sof then setYok (setFault v pYok 2) fun y => { y with takeDue := true }
      else if v.yok.role = 3 ∧ 2 ≤ v.yok.attPh ∧ !v.yok.sof then attachFails v
      else v
    let v :=
      if v.yok.role = 2 ∧ !v.yok.mark.isEmpty then
        let m := v.yok.mark
        let r := yokCompare v (dgLoc v) (BitVec.ofNat 64 ((leWord m 12).toNat + (leWord m 16).toNat * 2 ^ 32))
          (ownNoCmp v || (byteAt m 20).testBit 5) (byteAt m 21 % 16)
        setYok r.1 fun y => { y with safeDue := y.safeDue || r.2 }
      else v
    if v.yok.takeDue || v.yok.safeDue || !v.yok.twin then v
    else if st = 2 then verdictActs v
    else if st = 1 then formVerdict v
    else v

/-- R425: where a takeover changes the excitation of a block (R424 step 5), the samples of its excited and TC channels are POISON at
this boundary and the next three. -/
def takeoverSettle (v : Vol) : Vol :=
  (List.range 24).foldl (fun v b =>
    let m := meaOf v b
    let hit (i : Nat) : Bool := excited m b i
    let poison (r : MeaRes × Nat) : MeaRes :=
      if hit r.2 && r.1.cause != 1 then { r.1 with word := TWord.poison, cause := 3, seen := r.1.seen ||| 8 } else r.1
    if !ready v (pMea b) || !rb v (aYok 0x040) 10 || !rb v (aCtl (pMea b)) 2 then v
    else setMea v b { m with
      next := m.next.map fun rs => rs.zipIdx.map poison
      settle := (List.range 8).foldl (fun s i => if hit i then smapSet noErr s i 3 else s) m.settle }) v

/-! ### The snapshot at the shadow (R412, R418, R419, R421) -/

/-- Word i of a segment: data and tag. -/
def snapWord (p : List Byte) (i : Nat) : TWord :=
  ⟨leWord p (4 * i), BitVec.ofNat 4 (byteAt p (192 + i / 2) / 16 ^ (i % 2))⟩

/-- The cross-check of one channel (R421): its count of ticks beyond tolerance, 16 once it has been reported. -/
def crossCheck (v : Vol) (n : Nat) (twin : TWord) : Vol :=
  let t := rg v (aYok (0x100 + 4 * n))
  if v.yok.role ≠ 2 || !rb v (aYok 0x040) 9 || !bit t 31 then setYok v fun y => { y with xcnt := smapErase y.xcnt n }
  else
    let own := meaWord v n
    let diff := own.data.toInt - twin.data.toInt
    let beyond := if own.isPoison || twin.isPoison then own.isPoison != twin.isPoison
      else own.tag != twin.tag || decide ((fld t 30 0 : Int) < max diff (-diff))
    let c := if beyond then smapGet noErr v.yok.xcnt n + 1 else 0
    let told := decide (yf v 0x040 7 4 ≤ c)
    let v := setYok v fun y => { y with xcnt := smapSet noErr y.xcnt n (if told then 16 else c) }
    if !told || decide (16 < c) then v
    else
      let v := rbSet v (aYok (0x0D0 + 4 * (n / 32))) (n % 32) true
      let v := if rb v (aYok 0x0E8) 31 then v else rgSet v (aYok 0x0E8) (BitVec.ofNat 32 (2 ^ 31 + n))
      raiseEvent (setYok v fun y => { y with xbeyond := true }) pYok 4

/-- A checked segment reaches the drop areas (R418) and is compared (R421). -/
def snapApply (v : Vol) (s : Nat) (p : List Byte) : Vol :=
  let aux (v : Vol) (i : Nat) : TWord :=
    if i < 2 then ⟨leWord p (4 * i), Tag.raw⟩ else if i < 50 then ⟨leWord p (4 * i), Tag.count⟩ else numWord v (i - 50)
  let v := (List.range 8).foldl (fun v k =>
    if s < 4 then (if dropOn v k then dropChans v k (fun n => n / 48 == s) (fun n => snapWord p (n % 48)) else v)
    else if dropAuxOn v k then dropAux v k (aux v) else v) v
  if s < 4 then (List.range 48).foldl (fun v i => crossCheck v (48 * s + i) (snapWord p i)) v else v

/-- POISON in every routed channel word and every auxiliary word (R419). -/
def snapPoison (v : Vol) : Vol :=
  (List.range 8).foldl (fun v k =>
    let v := if dropOn v k then dropChans v k (fun _ => true) (fun _ => TWord.poison) else v
    if dropAuxOn v k then dropAux v k (fun _ => TWord.poison) else v) v

/-- The boundary's drop on a shadow or a joining part (R41, R418): the segments held so far are written, later ones as they
come; resends asked for before the boundary stretch this DROP. -/
def snapDrop (v : Vol) : Vol :=
  let v := if v.yok.resends = 0 then v else stretchDrop v (520 * v.yok.resends)
  let v := v.yok.snaps.foldl (fun v s => snapApply v s.1 s.2) v
  setYok v fun y => { y with snapOpen := true }

/-- DROP ends on a shadow to which a third resend would have been needed (R419). -/
def snapGivenUp (v : Vol) : Vol :=
  if !v.yok.noSnap then v
  else
    let v := setFault (snapPoison v) pYok 1
    setYok v fun y => { y with noSnap := false, dropFail := true, detachDue := true }

/-- A MARK or SNAP segment failed its check (R409, R419): at most two resends in a tick, each stretching DROP by 520 c. -/
def askResend (v : Vol) (seg : Nat) : Vol :=
  if v.yok.role ≠ 2 then frameDiscard v (some seg)
  else if 2 ≤ v.yok.resends then setYok (frameDiscard v none) fun y => { y with noSnap := true }
  else
    let v := rgInc (frameDiscard v (some seg)) (aYok 0x068)
    let v := setYok v fun y => { y with resends := y.resends + 1 }
    if v.yok.snapOpen && v.tick.inDrop then stretchDrop v 520 else v

/-! ### The boundary (R404, R405, R416, R433) -/

/-- Frames, attach, digest and drop of the boundary that has just occurred: `v.now` is the boundary, `v.tick.next` the next
one. -/
def yokBoundary (v : Vol) : Vol :=
  if !ready v pYok then v
  else
    let v := yokDigest v
    let hand := rb v (aCtl pYok) 4 && v.yok.role == 1 && v.yok.twin
    let v := setYok v fun y => { y with ownNo := ownNoCmp v, noCmp := y.noCmp - 1 }
    let v := if v.yok.pause && v.yok.attPh != 4 then setYok v fun y => { y with pause := false } else v
    let v := if v.yok.role = 3 then attachJoin v else v
    let due := v.yok.joinDue || (match v.yok.joinAt with | some n => decide (n ≤ v.tick.number.toNat) | none => false)
    let v := if v.yok.role == 3 && due then becomeShadow v 1 else v
    let v :=
      if v.yok.token then
        let v := yokSend v 1 0 (markPayload v hand)
        let v := (List.range 5).foldl (fun v s => yokSend v 2 s (snapPayload v s)) v
        let ends := cutEnds v
        let v := if ends then attachEnds v 1 1 else v
        let mail := min 4 v.yok.mboxQ.length
        let v := if twinLinked v then sendMail v else v
        if ends then yokCtrl v 9 (leBytes 8 v.tick.number.toNat)
        else if 2 ≤ v.yok.attPh ∧ v.yok.role = 1 then attachLead v mail else v
      else if v.yok.role = 2 then
        let v := yokSend v 3 0 (rplyPayload v)
        let v := setYok v fun y => { y with xbeyond := false, dropFail := false }
        if twinLinked v then sendMail v else v
      else v
    let sent := linkUp v && (v.yok.token || v.yok.role == 2)
    let v := setYok v fun y => { y with
      relayTx := if sent then y.relayTx.drop 2 else y.relayTx, sof := false, mark := [] }
    if hand then setYok (rgClr v (aCtl pYok) 16) fun y => { y with relAt := some (v.now + 1120, true) } else v

/-- Cycle c1120 of a tick that a lead leaves has passed (R428, R433): it releases YTOKO and enters SAFE; after a handover it tells no
DOWN and detaches. -/
def yokReleases (v : Vol) : Vol :=
  match v.yok.relAt with
  | none => v
  | some (t, hand) =>
    if v.now < t then v
    else
      let v := setYok v fun y => { y with relAt := none }
      if !v.yok.token then v
      else if hand then
        let v := setYok v fun y => { y with token := false, role := if y.role = 1 then 0 else y.role }
        enterSafe (setYok (yokDetach v) fun y => { y with detachDue := false })
      else enterSafe v

/-- YTOKI has been low for 80 c: a part that holds no token and has waited takes it (R404, R405); one that was still attached has
lost its twin, which is a detach (R308). -/
def tokenClaims (v : Vol) : Vol :=
  let v := tokenLevel v false
  let y := v.yok
  if !ready v pYok || y.token || v.sys.mode != .run || rb v (aCtl pYok) 2 || decide (y.noMark < if y.prime then 2 else 8) then v
  else
    let v := if y.twin then yokDetach v else v
    setYok v fun y => { y with token := true, role := 1, takeDue := false, detachDue := false }

/-- The shadow takes over (R424, R425, R433): `freed` says whether YTOKI has been low for 80 c by c400. -/
def takesOver (v : Vol) (freed : Bool) : Vol :=
  if !ready v pYok || v.yok.role ≠ 2 || !v.yok.takeDue || v.sys.mode != .shadow then v
  else if freed then
    let v := setYok (tokenLevel v false) fun y => { y with
      token := true, role := 1, takeDue := false, safeDue := false, detachDue := false, st := 0, noRply := 0, noSnap := false }
    let v := transitionEnds (setSysP v fun s => { s with reqAt := wall v }) .run
    let v := raiseEvent v pYok 0
    let v := if tickSource v = 2 then sourceLoss v else v
    if rb v (aYok 0x040) 10 then
      (List.range 24).foldl (fun v b => if ready v (pMea b) then rgClr v (aCtl (pMea b)) 4 else v) v
    else v
  else
    let v := raiseEvent (setFault v pYok 4) pYok 7
    let v := yokDetach (setYok v fun y => { y with takeDue := false })
    enterSafe (setYok (tokenLevel v true) fun y => { y with role := 0, detachDue := false })

/-- Both YTOKO nets are high (R440). -/
def tokensConflict (v : Vol) : Vol :=
  if !ready v pYok || !v.yok.token then v
  else
    let v := setYok (tokenLevel v true) fun y =>
      if y.prime then y else { y with token := false, relAt := none, role := if y.role = 1 then 0 else y.role }
    raiseEvent (setFault v pYok 4) pYok 7

/-! ### Frames received (R409-R415) -/

/-- Whether a part takes frames: its link is up and runs. -/
def takesFrames (v : Vol) : Bool := linkUp v && rb v (aCtl pYok) 0

/-- Whether a frame is sound and of the type and, for CTRL, the operation that its arrival is named after. -/
def frameIs (f : List Byte) (typ : Nat) (sub : Option Nat) : Bool :=
  frameOk f && byteAt f 0 == typ && (match sub with | some s => byteAt f 1 == s | none => true)

/-- Relayed sources arrive in bytes i to i + 3 of a payload (R435, R440). -/
def relaysArrive (v : Vol) (p : List Byte) (i : Nat) : Vol :=
  let one (v : Vol) (x : Nat) : Vol :=
    if x < 0x8000 then v
    else if !twinLinked v || decide (8 ≤ v.yok.relayRx.length) then setFault v pYok 5
    else raiseEvent (setYok v fun y => { y with relayRx := y.relayRx ++ [x % 512] }) pYok 6
  one (one v (byteAt p i + 256 * byteAt p (i + 1))) (byteAt p (i + 2) + 256 * byteAt p (i + 3))

/-- The MARK SOF places the boundary (R417), no nearer than TICK_MINLEN and no farther than TICK_MAXLEN from the last (R51) but on a
joining part (R430): the first of a tick alone, a resent MARK moves nothing, and none moves the first boundary (R54). STAT.LOCKED sets without event 4 (DESIGN CHOICE, log entry 96). -/
def placeBoundary (v : Vol) : Vol :=
  if v.yok.sof then v
  else
    let v := setYok (tokenLevel v true) fun y => { y with sof := true, snaps := [], snapOpen := false, resends := 0, noSnap := false }
    if v.tick.running ∧ tickSource v = 2 then
      let at' := v.now + 1196 - yf v 0x044 9 0
      let v := rgSet v (aYok 0x04C) (BitVec.ofInt 32 ((at' : Int) - v.tick.next) &&& 0xFFFF)
      let at' := if v.yok.role = 3 then at' else limitNat (v.tick.boundary + taf v 0x054 18 0) (v.tick.boundary + taf v 0x058 18 0) at'
      rgOr (setTick v fun t => { t with next := if t.first then t.next else at' }) (aStat pTick) 2
    else v

/-- A MARK arrives (R410, R417, R424, R433). -/
def markArrives (v : Vol) (f : List Byte) : Vol :=
  if !takesFrames v then v
  else if v.yok.token then if frameIs f 1 none then v else frameDiscard v (some 7)
  else
    let v := placeBoundary v
    if !frameIs f 1 none then askResend v 7
    else
      let p := payloadOf f
      let flags := byteAt p 20
      let v := setYok v fun y => { y with
        mark := p, markLen := (leWord p 8).toNat % 2 ^ 19, noMark := 0
        takeDue := y.takeDue || (y.role == 2 && (flags.testBit 0 || flags.testBit 1 || flags.testBit 2)) }
      twinVerdict (relaysArrive v p 22) flags

/-- A snapshot segment arrives (R412, R418). -/
def snapArrives (v : Vol) (f : List Byte) : Vol :=
  if !takesFrames v then v
  else
    let s := byteAt f 1
    if !frameIs f 2 none then askResend v (if s < 5 then s else ((List.range 5).find? fun i => (smapFind v.yok.snaps i).isNone).getD 0)
    else if v.yok.token then v
    else
      let p := payloadOf f
      let v := setYok v fun y => { y with snaps := smapPut y.snaps s p }
      if v.yok.snapOpen && v.tick.inDrop && decide (2 ≤ v.yok.role) then snapApply v s p else v

/-- A RPLY arrives (R411, R423); at a part that has just detached its relays are dropped with RELAYLOST (R440). -/
def rplyArrives (v : Vol) (f : List Byte) : Vol :=
  if !takesFrames v then v
  else if !frameIs f 3 none then frameDiscard v none
  else if v.yok.role ≠ 1 || !v.yok.twin then relaysArrive v (payloadOf f) 18
  else
    let p := payloadOf f
    let flags := byteAt p 16
    let v := setYok v fun y => { y with rply := p }
    let same := decide ((leWord p 0).toNat + (leWord p 4).toNat * 2 ^ 32 = v.tick.number.toNat)
    let r := yokCompare v v.yok.dig (BitVec.ofNat 64 ((leWord p 8).toNat + (leWord p 12).toNat * 2 ^ 32))
      (v.yok.ownNo || flags.testBit 5 || !same) (byteAt p 17 % 16)
    let v := twinVerdict (relaysArrive r.1 p 18) flags
    if r.2 then enterSafe v else v

/-- A NAK arrives at the lead (R416, R419, R430): the named frame is sent again, behind the frame in transmission, at most twice in a tick for MARK and SNAP;
the words of a STATE frame are marked again. -/
def nakArrives (v : Vol) (f : List Byte) : Vol :=
  if !takesFrames v then v
  else if !frameIs f 4 none then frameDiscard v none
  else if !v.yok.token then v
  else
    let s := byteAt f 1
    if 128 ≤ s then
      match v.yok.flight.find? fun e => e.1 == s - 128 with
      | none => v
      | some e => setYok v fun y => { y with
          dirty := e.2.1.foldl (fun m a => smapSet noErr m a 1) y.dirty, flight := y.flight.filter fun g => g.1 != e.1
          cutSent := y.cutSent - if e.2.2 then e.2.1.length else 0 }
    else
      let named (g : List Byte) : Bool := if s = 7 then byteAt g 0 == 1 else byteAt g 0 == 2 && byteAt g 1 == s
      match v.yok.out.find? named with
      | none => v
      | some g =>
        if 2 ≤ v.yok.out.countP (fun x => decide (byteAt x 0 ≤ 2)) - 6 then v
        else rgInc (yokAhead v g) (aYok 0x068)

/-- An MBOX frame arrives (R413, R436): master 14 performs the operation. -/
def mailArrives (v : Vol) (f : List Byte) : Vol :=
  if !takesFrames v then v
  else if !frameIs f 5 none then frameDiscard v none
  else
    let p := payloadOf f
    let m := byteAt p 0
    let op := byteAt p 1
    let db := leWord p 4
    if 24 ≤ m then v
    else if op = 1 then
      if mbxFull v m then
        let v := mbxPost v m 14 db
        { v with yok := { v.yok with mboxQ := v.yok.mboxQ ++ [[BitVec.ofNat 8 m, 4] ++ List.replicate 38 0] } }
      else
        let v := (List.range 8).foldl (fun v i => rgSet v (aMbx m (0x20 + 4 * i)) (leWord p (8 + 4 * i))) v
        mbxPost v m 14 db
    else if op = 2 then mbxRing v m 14 db
    else if op = 3 then mbxDone v m 14
    else if op = 4 then rbSet (rbSet v (aMbx m 0x04) 31 false) (aMbx m 0x04) 29 true
    else v

/-- A STATE frame arrives at a joining part (R414, R430): its words are written by master 14 where they lie in tagged SRAM
that is up. -/
def stateArrives (v : Vol) (f : List Byte) : Vol :=
  if !takesFrames v then v
  else if !frameIs f 6 none then frameDiscard v (some (128 + byteAt f 1 % 128))
  else if v.yok.role ≠ 3 then v
  else
    let p := payloadOf f
    let a := (leWord p 0).toNat
    let n := byteAt p 4
    let w (i : Nat) : TWord := ⟨leWord p (8 + 4 * i), BitVec.ofNat 4 (byteAt p (8 + 4 * n + i / 2) / 16 ^ (i % 2))⟩
    let put (v : Vol) (i : Nat) : Vol :=
      match place (a + 4 * i) with
      | some q => if q.win = .direct ∧ q.tagged ∧ domUp v q.dom then sramPut v q.key (w i) else v
      | none => v
    let v := (List.range n).foldl put v
    let t := frameTick f
    let v := setYok v fun y => { y with
      got := y.got + n, gotTick := (t, n + if y.gotTick.1 = t then y.gotTick.2 else 0)
      attPh := if y.attPh = 2 ∧ y.need ≤ y.got + n then 3 else y.attPh
      cutAt := if y.attPh = 2 ∧ y.need ≤ y.got + n then t else y.cutAt }
    if 3 ≤ v.yok.attPh then yokSendAt v t 7 7 (leBytes 4 v.yok.gotTick.2 ++ List.replicate 12 0) else v

/-- A CTRL frame arrives: a sound one of operation `sub` acts. The ECHO exchange needs aligned lanes alone, since it brings the link
up (R406). -/
def ctrlArrives (v : Vol) (f : List Byte) (sub : Nat) (act : Vol → List Byte → Vol) : Vol :=
  if !(if sub ≤ 2 then linkAligned v && rb v (aCtl pYok) 0 else takesFrames v) then v
  else if frameIs f 7 (some sub) then act v (payloadOf f) else frameDiscard v none

/-- ECHO is answered (R407). -/
def echoArrives (v : Vol) (p : List Byte) : Vol := yokQueue v (tickWord v) 7 2 (p.take 4 ++ List.replicate 12 0)

/-- ECHOA gives the latency, and the link is up (R406, R407). -/
def echoaArrives (v : Vol) (_ : List Byte) : Vol :=
  match v.yok.echoAt with
  | none => v
  | some t => rgOr (rfSet (setYok v fun y => { y with echoAt := none }) (aYok 0x044) 9 0 ((v.now - t - 64) / 2)) (aYok 0x044) (bitWord 31)

/-- DOWN (R424, R426): the shadow takes over at its next boundary; a joining part's attach fails. -/
def downArrives (v : Vol) (_ : List Byte) : Vol :=
  let v := setYok (tokenLevel v false) fun y => { y with takeDue := y.takeDue || y.role == 2 }
  if v.yok.role = 3 then attachFails v else v

/-- The image tag in the first 8 bytes of a payload. -/
def takeTimg (v : Vol) (p : List Byte) : Vol := rgSet (rgSet v (aYok 0x07C) (leWord p 0)) (aYok 0x080) (leWord p 4)

/-- ATTREQ reaches a part (R430, R432): the lead accepts or refuses. -/
def attreqArrives (v : Vol) (p : List Byte) : Vol :=
  if !v.yok.token || v.yok.attPh ≠ 0 then v
  else
    let v := takeTimg v p
    let cold := byteAt p 8 == 1
    let same := leWord p 0 == yokImg v 0 && leWord p 4 == yokImg v 1
    let why := if !cold && !same then 1 else if !cold && decide (65536 < attWords v) then 2 else if v.yok.st ≠ 0 then 3 else 0
    if why ≠ 0 then yokCtrl v 6 [BitVec.ofNat 8 why]
    else
      let v := yokCtrl v 5 (wordBytes (yokImg v 0) ++ wordBytes (yokImg v 1) ++ leBytes 4 (attWords v))
      let v := setYok v fun y => { y with attCold := cold, role := 1 }
      if cold then attachEnds v 1 0
      else setYok v fun y => { y with attPh := 2, attTicks := 0, bulk := attRegions v, dirty := [], flight := [], seq := 0 }

/-- ATTACC reaches the joining part (R430, R432): bulk begins, or a cold shadow at the next boundary. -/
def attaccArrives (v : Vol) (p : List Byte) : Vol :=
  if v.yok.role ≠ 3 || v.yok.attPh ≠ 1 then v
  else
    let v := takeTimg v p
    if v.yok.attCold then setYok v fun y => { y with joinDue := true }
    else setYok v fun y => { y with
      attPh := if (leWord p 8).toNat = 0 then 3 else 2, need := (leWord p 8).toNat, got := 0, gotTick := (0, 0), cutTicks := 0
      cutAt := (tickWord v + 1) % 2 ^ 32 }

/-- ATTREF reaches the joining part (R430, R438): the attach fails, with IMGDIFF for reason 1. -/
def attrefArrives (v : Vol) (p : List Byte) : Vol :=
  if v.yok.role ≠ 3 then v
  else attachFails (if byteAt p 0 = 1 then setFault v pYok 7 else v)

/-- CUTACK of a tick reaches the lead (R430): the cut words received in the frames of that tick. Ticks before boundary A do not count
(log entry 62). -/
def cutackArrives (v : Vol) (tick : Nat) (p : List Byte) : Vol :=
  if v.yok.attPh ≠ 4 || decide (2 ^ 31 ≤ (tick + 2 ^ 32 - v.yok.cutAt) % 2 ^ 32) then v
  else setYok v fun y => { y with cutAcks := smapPut y.cutAcks tick (leWord p 0).toNat }

/-- CUTEND names the boundary P (R430): at or after it the joining part is shadow. -/
def cutendArrives (v : Vol) (p : List Byte) : Vol :=
  if v.yok.role ≠ 3 then v
  else
    let n := (leWord p 0).toNat + (leWord p 4).toNat * 2 ^ 32
    if n ≤ v.tick.number.toNat then becomeShadow v 1
    else setYok v fun y => { y with joinAt := some n }

/-! ### The link and the commands of firmware -/

/-- Both lanes hold symbol alignment (R406, R407): the ECHO exchange begins whose answer brings the link up. -/
def linkRises (v : Vol) : Vol :=
  if !ready v pYok || !rb v (aCtl pYok) 0 || rb v (aStat pYok) 0 then v
  else
    let v := rgOr v (aStat pYok) 1
    yokQueue (setYok v fun y => { y with echoAt := some v.now }) (tickWord v) 7 1 (List.replicate 16 0)

/-- The link goes down (R429): a part that was up with it detaches. -/
def linkFalls (v : Vol) : Vol :=
  if !linkAligned v then v
  else
    let up := linkUp v
    let v := rgClr (rgClr v (aYok 0x044) (bitWord 31)) (aStat pYok) 1
    if up then yokDetach v else v

/-- Two boundaries without a valid RPLY (R429). -/
def rplyMissed (v : Vol) : Vol :=
  if v.yok.role = 1 ∧ v.yok.twin ∧ 2 ≤ v.yok.noRply then yokDetach (setFault v pYok 3) else v

/-- The limits of an attach (R430). -/
def attachExpires (v : Vol) : Vol :=
  let y := v.yok
  if (y.attPh ≠ 0 ∧ yf v 0x088 19 0 ≤ y.attTicks) ∨ (y.attPh = 4 ∧ 15 ≤ y.cutTicks) then attachFails v else v

/-- A write of YOK CTL or another YOK register (R429, R430, R433, R438). -/
def yokWrite (v : Vol) (off : Nat) (via : Via) (w : Word) : Vol :=
  let a := aYok off
  let old := rg v a
  let v := regWrite v pYok off via w
  let new := rg v a
  if off ≠ 0x008 then v
  else
    let v := if fell old new 0 then linkFalls v else v
    let v := if v.yok.role = 3 then rgOr v a 4 else v
    let v := if rose old new 3 then yokDetach v else v
    let v :=
      if rose old new 4 ∧ (v.yok.role ≠ 1 ∨ !v.yok.twin ∨ v.yok.st ≠ 0) then rgClr v a 16 else v
    if rose old new 2 then
      if v.yok.role ≠ 0 || v.yok.token then raiseEvent (setFault (rgClr v a 4) pYok 6) pYok 7
      else
        let cold := fld new 6 5 == 1
        let v := setYok v fun y => { y with role := 3, attPh := 1, attCold := cold, attTicks := 0, got := 0, joinDue := false, joinAt := none }
        yokCtrl v 4 (wordBytes (yokImg v 0) ++ wordBytes (yokImg v 1) ++ [if cold then 1 else 0])
    else v

/-- The level of YTOKI (R438): as told in this cycle, else free (log entry 136). -/
def twinToken (v : Vol) : Bool := if v.yok.tokAt = v.now then v.yok.tokI else Config.ytoki v.now

/-- YOK as read (R435, R437, R438). -/
def yokView (v : Vol) (off : Nat) (w : Word) : Word :=
  let y := v.yok
  if off = 0x00C then
    w ||| BitVec.ofNat 32 ((y.attPh - 1) * 512 + b2n (y.st != 0) * 256 + b2n y.prime * 128 + b2n (twinToken v) * 64 + b2n y.token * 32 + y.role * 8)
  else if off = 0x070 then
    match y.relayRx with
    | n :: _ => BitVec.ofNat 32 (2 ^ 31 + n)
    | [] => 0
  else if off = 0x08C then BitVec.ofNat 32 (y.dirty.length % 2 ^ 17)
  else w

/-- A read of YOK_RELAY removes the entry (R437). -/
def yokOnRead (v : Vol) (off : Nat) : Vol :=
  if off = 0x070 then setYok v fun y => { y with relayRx := y.relayRx.drop 1 } else v

end Sys2Proof.Machine
end

