-- ==== Sys2Proof/Machine/LdgOps.lean ====
section
/-! DEFINITION. Ledger's streams (R449-R471): records, leaves, seals, pages and blocks, and what writes of its registers do.
The commands and submissions that use the bus are in LdgBus. -/

namespace Sys2Proof.Machine

abbrev aLdg (off : Nat) : Nat := ra pLdg off
def lst (v : Vol) (s : Nat) : LStream := smapGet (fun _ => LStream.empty) v.ldg.streams s
def setLdg (v : Vol) (f : Ldg → Ldg) : Vol := { v with ldg := f v.ldg }
def setLst (v : Vol) (s : Nat) (f : LStream → LStream) : Vol :=
  setLdg v fun l => { l with streams := smapSet (fun _ => LStream.empty) l.streams s (f (lst v s)) }

/-- The NAND interface runs on the PLL_IO clocks (R531, R539). -/
def nandClocked (v : Vol) : Bool := rb v (ra pClk 0x040) 1

/-- Ledger runs: its block is ready and CTL.EN is 1. -/
def ldgRuns (v : Vol) : Bool := ready v pLdg && rb v (aCtl pLdg) 0
def ldgMounted (v : Vol) : Bool := rb v (aStat pLdg) 0

/-- Bytes padded with 0 to a length. -/
def padTo (n : Nat) (l : List Byte) : List Byte := l ++ List.replicate (n - l.length) 0

/-- Whether Locksmith signs (R466, R525): slot 0 holds the identity key and no tamper or glitch has come since the reset. -/
def canSign (v : Vol) : Bool := !v.lks.noSign && !(smapGet (fun _ => []) v.lks.slots 0).isEmpty

/-- The identity-key operation that is next in the order of the requests (R483): a stream's seal, 64 for a QUOTE, or 65 for one of the service port. -/
def idNext (v : Vol) : Option Nat := v.lks.idq.find? fun s => 64 ≤ s || (lst v s).signing.isSome

/-- The geometry: LUNs per target, pages per block, blocks per LUN. -/
def ldgLuns (v : Vol) : Nat := rf v (aLdg 0x044) 19 16
def ldgPages (v : Vol) : Nat := rf v (aLdg 0x044) 15 0
def ldgBlocks (v : Vol) : Nat := rf v (aLdg 0x048) 19 0

/-! ### Slots (R461, R464) -/

/-- The records in a leaf slot: (sequence number, offset in the leaf), up to n of them. -/
def leafRecs (slot : List Byte) : Nat → Nat → Nat → List (Nat × Nat)
  | 0, _, _ => []
  | n + 1, off, seq =>
    let len := byteAt slot off + 256 * byteAt slot (off + 1)
    if 72 + byteAt slot 6 + 256 * byteAt slot 7 ≤ off ∨ len < 32 then []
    else (seq, off) :: leafRecs slot n (off + (len + 7) / 8 * 8) (seq + 1)

def le64 (l : List Byte) (i : Nat) : Nat := (leWord l i).toNat + (leWord l (i + 4)).toNat * 2 ^ 32
def isLeaf (slot : List Byte) : Bool := slot.take 4 == [0x4C, 0x45, 0x41, 0x46]
def isSeal (slot : List Byte) : Bool := slot.take 4 == [0x53, 0x45, 0x41, 0x4C]
def recordsOf (slot : List Byte) : List (Nat × Nat) := leafRecs slot 128 72 (le64 slot 16)

/-- Argument i of the command, and its 64-bit argument (R475). -/
def ldgArg (v : Vol) (i : Nat) : Nat := (rg v (aLdg (0x084 + 4 * i))).toNat
def ldgArg64 (v : Vol) : Nat := ldgArg v 1 + ldgArg v 2 * 2 ^ 32

/-- The stored leaf that holds a sequence number, with its block's index, and the record's offset in it. -/
def leafOfSeq (st : LStream) (seq : Nat) : Option ((Nat × List Byte) × Nat) :=
  (st.store.filter fun e => isLeaf e.2).findSome? fun e => ((recordsOf e.2).find? fun r => r.1 == seq).map fun r => (e, r.2)

/-- The stored leaf with an index, with its block's index. -/
def leafOfIndex (st : LStream) (li : Nat) : Option (Nat × List Byte) := st.store.find? fun e => isLeaf e.2 && le64 e.2 8 == li

/-- The block of a stored slot. -/
def slotBlock (st : LStream) (idx : Nat) : Nat := st.blocks.getD (idx - st.baseIdx) 0

/-- The seal slot of the segment that holds a leaf index. -/
def sealLeaf (s : List Byte) : Nat := le64 s 16
def sealCount (s : List Byte) : Nat := le64 s 24
def sealOver (st : LStream) (li : Nat) : Option (Nat × List Byte) :=
  st.store.find? fun e => isSeal e.2 && decide (sealLeaf e.2 ≤ li) && decide (li < sealLeaf e.2 + sealCount e.2)

/-- Whether READ names a seal slot: bit 63 of its leaf index asks for the seal over that leaf (DESIGN CHOICE, log entry 66). -/
def readsSeal (v : Vol) : Bool := decide (2 ^ 63 ≤ ldgArg64 v)
def readIndex (v : Vol) : Nat := ldgArg64 v % 2 ^ 63

/-- The stored slot that READ names. -/
def readSlot (v : Vol) (st : LStream) : Option (Nat × List Byte) :=
  if readsSeal v then sealOver st (readIndex v) else leafOfIndex st (readIndex v)

/-- The block that a running PROVE, READ or command of the staging area works on. -/
def cmdBlock (v : Vol) : Option Nat :=
  let st := lst v (ldgArg v 0)
  if !ldgMounted v then none
  else if v.ldg.op = 5 then (leafOfSeq st (ldgArg64 v)).map fun x => slotBlock st x.1.1
  else if v.ldg.op = 6 then (readSlot v st).map fun x => slotBlock st x.1
  else if v.ldg.op = 8 ∨ v.ldg.op = 9 then v.ldg.stg[ldgArg v 1 / (4 * ldgPages v)]?
  else none

/-! ### Targets and LUNs (R442, R444) -/

/-- The target, 0 to 31, and the LUN of a block. -/
def blkTarget (v : Vol) (b : Nat) : Nat := b / (ldgLuns v * ldgBlocks v)
def blkLun (v : Vol) (b : Nat) : Nat := b / ldgBlocks v % ldgLuns v
def lunOf (v : Vol) (b : Nat) : Nat × Nat := (blkTarget v b, blkLun v b)

/-- Whether a target has been taken offline (R444). -/
def tgtOffline (v : Vol) (t : Nat) : Bool := rb v (ra (pNand (t / 8)) (0x044 + 4 * (t % 8))) 28

/-- Whether a block takes programs and erases: it is not retired and its target is not offline (R444, R447). -/
def blockLive (v : Vol) (b : Nat) : Bool := !v.ldg.retired.contains b && !tgtOffline v (blkTarget v b)

/-- ONFI operations go to a LUN (R442); the last 256 are held, the newest first. -/
def onfiSend (v : Vol) (t lun : Nat) (ops : List Onfi) : Vol :=
  setLdg v fun l => { l with onfi := ((ops.reverse.map fun o => (t, lun, o)) ++ l.onfi).take 256 }

/-- An array operation on a block has ended: its LUN was polled until it was ready (R442, R444). -/
def onfiBlock (v : Vol) (b : Nat) (ops : List Onfi) : Vol := onfiSend v (blkTarget v b) (blkLun v b) (ops ++ [.statusEnhanced])

/-- An array operation waits for its LUN (R444), in the order of the requests: a stream's page program, 64 for the running command,
none for an erase. -/
def lunQueue (v : Vol) (who : Option Nat) (b : Nat) : Vol := setLdg v fun l => { l with lunq := l.lunq ++ [(who, b)] }

/-- Whether it runs: no other waits before it on the same LUN. -/
def lunTurn (v : Vol) (who : Option Nat) (b : Nat) : Bool :=
  (v.ldg.lunq.find? fun x => lunOf v x.2 == lunOf v b) == some (who, b)

/-- It has ended. -/
def lunDone (v : Vol) (who : Option Nat) (b : Nat) : Vol := setLdg v fun l => { l with lunq := l.lunq.erase (who, b) }

/-! ### Blocks and pages (R445-R450) -/

/-- The block that the pool gives next (R450): the lowest erase count, on the target that follows the one given, the lowest number. -/
def pickBlock (v : Vol) (last : Nat) : Option (Nat × Nat) :=
  let key (p : Nat × Nat) : Nat × Nat := (p.1, (blkTarget v p.2 + 31 - last) % 32)
  let less (a b : Nat × Nat) : Bool :=
    decide ((key a).1 < (key b).1) || ((key a).1 == (key b).1 &&
      (decide ((key a).2 < (key b).2) || ((key a).2 == (key b).2 && decide (a.2 < b.2))))
  (v.ldg.pool.filter fun p => !tgtOffline v (blkTarget v p.2)).foldl (fun best p =>
    match best with
    | none => some p
    | some q => if less p q then some p else some q) none

/-- The target after which a stream's rotation goes on: that of its own newest block, so that two consecutive ones lie on different
targets (R450). -/
def lastTarget (v : Vol) (s : Nat) : Nat := blkTarget v ((lst v s).blocks.getLastD v.ldg.lastBlk)

/-- A block leaves the pool with its erase count. -/
def poolTakes (v : Vol) (n b : Nat) : Vol :=
  setLdg v fun l => { l with
    pool := l.pool.filter (fun p => p.2 != b), lastBlk := b, counts := smapSet (fun _ => 0) l.counts b n }

/-- Stream 0 is circular and has no quota (R451). -/
def streamCirc (v : Vol) (s : Nat) : Bool := s == 0 || rb v (aLdg (0x100 + 4 * s)) 30
def streamQuota (v : Vol) (s : Nat) : Nat := if s = 0 then 0 else rf v (aLdg (0x200 + 4 * s)) 19 0

/-- What a circular stream at its quota gets, from its blocks with the oldest first (R447, R449): the oldest again, with one more erase; one
that is retired or offline is dropped without an erase, and a block of the pool takes its place. Answers the block, its erase count,
whether it is erased now and how many blocks the stream loses. -/
def giveWay (v : Vol) (last : Nat) : List Nat → Nat → Option (Nat × Nat × Bool × Nat)
  | [], _ => none
  | b :: more, gone =>
    if blockLive v b then some (b, smapGet (fun _ => 0) v.ldg.counts b + 1, true, gone + 1)
    else
      match pickBlock v last with
      | some (n, p) => some (p, n, false, gone + 1)
      | none => giveWay v last more (gone + 1)

/-- A stream takes a new block (R449, R450): from the pool, or at its quota its own oldest block again, which a PROVE that reads it still
sees (R480). -/
def streamNewBlock (v : Vol) (s : Nat) : Vol × Bool :=
  let st := lst v s
  let q := streamQuota v s
  let last := lastTarget v s
  match (if q ≠ 0 ∧ q ≤ st.blocks.length then none else pickBlock v last) with
  | some (n, b) => (setLst (poolTakes v n b) s fun st => { st with blocks := st.blocks ++ [b], used := 0, full := false }, true)
  | none =>
    let v := if (pickBlock v last).isNone && !rb v (aFault pLdg) 0 then raiseEvent (setFault v pLdg 0) pLdg 3 else v
    match (if streamCirc v s then giveWay v last st.blocks 0 else none) with
    | some (b, n, erase, gone) =>
      let base := st.baseIdx + gone
      let v := if v.ldg.op = 5 ∧ ldgArg v 0 = s ∧ (cmdBlock v).any (st.blocks.take gone).contains then setLdg v fun l => { l with proof := some st } else v
      let v := if erase then lunQueue (setLdg v fun l => { l with erasing := l.erasing ++ [b] }) none b else v
      (setLst (poolTakes v n b) s fun st => { st with
        blocks := st.blocks.drop gone ++ [b], baseIdx := base, used := 0, store := st.store.filter fun e => decide (base ≤ e.1) }, true)
    | none => (if st.full then v else raiseEvent (setLst v s fun st => { st with full := true }) pLdg 3, false)

/-- Whether the page being filled has a block to go to; a stream without one takes it now. -/
def streamHasBlock (v : Vol) (s : Nat) : Vol × Bool :=
  let st := lst v s
  if st.blocks.isEmpty || decide (ldgPages v ≤ st.used) then streamNewBlock v s else (v, true)

/-- Program the next page of a stream (R468): void slots fill it; its tag names its first leaf, or the next one (R446). Without a block the
slots wait. -/
def programPage (v : Vol) (s : Nat) : Vol :=
  if (lst v s).page.isEmpty then v
  else
    match streamHasBlock v s with
    | (v, false) => v
    | (v, true) =>
      let st := lst v s
      let b := st.blocks.getLastD 0
      let slots := st.page.take 4 ++ List.replicate (4 - st.page.length) (List.replicate 4096 0)
      let first := match st.page.find? isLeaf with | some l => le64 l 8 | none => st.leaf
      lunQueue (setLst v s fun st => { st with
        progs := st.progs ++ [⟨st.baseIdx + st.blocks.length - 1, b, st.used, first, slots⟩], used := st.used + 1, page := st.page.drop 4 })
        (some s) b

/-- Program n pages. -/
def programPages (v : Vol) (s : Nat) : Nat → Vol
  | 0 => v
  | n + 1 => programPages (programPage v s) s n

/-- The full pages of a stream are programmed (R468). -/
def programFull (v : Vol) (s : Nat) : Vol := programPages v s ((lst v s).page.length / 4)

/-- Every slot that waits is programmed, the last page with void slots (R468). -/
def programAll (v : Vol) (s : Nat) : Vol := programPages v s (((lst v s).page.length + 3) / 4)

/-- A slot enters the page; a full page is programmed (R468). -/
def putSlot (v : Vol) (s : Nat) (slot : List Byte) : Vol :=
  programFull (setLst v s fun st => { st with page := st.page ++ [slot] }) s

/-- The key of a page on the NAND. -/
def nandKey (b page : Nat) : Nat := b * 65536 + page

/-- Bytes 0 to 2175 of a page's spare area (R445): the parity of its codewords, the page tag and its parity. -/
def spareOf (tag : List Byte) (slots : List (List Byte)) : List Byte :=
  let data := slots.flatMap (padTo 4096)
  [0xFF, 0xFF] ++ (List.range 16).flatMap (fun i => Config.bchParity ((data.drop (1024 * i)).take 1024)) ++ tag ++ Config.bchParity tag

/-- The tag of a page (R446): of a stream, 255 for staging, its block's index, the first leaf's index, the page and its block. -/
def pageTag (v : Vol) (code idx first page blk : Nat) : List Byte :=
  let body := [0x1D, 0x7E, BitVec.ofNat 8 code, 1] ++ leBytes 4 idx ++ leBytes 8 first ++ leBytes 4 page
    ++ leBytes 4 (smapGet (fun _ => 0) v.ldg.counts blk) ++ wordBytes (rg v (aLdg 0x04C))
  body ++ wordBytes (crc32c body)

/-- A page is on the NAND (R445). -/
def nandPut (v : Vol) (code idx first page blk : Nat) (slots : List (List Byte)) : Vol :=
  { v with nand := { v.nand with
      pages := smapPut v.nand.pages (nandKey blk page) (slots, spareOf (pageTag v code idx first page blk) slots) } }

/-- Blocks are erased. -/
def nandErase (v : Vol) (gone : Nat → Bool) : Vol :=
  { v with nand := { v.nand with pages := v.nand.pages.filter fun e => !gone (e.1 / 65536) } }

/-! ### Leaves and seals (R458-R468) -/

/-- The open leaf of a stream as a slot (R461). -/
def leafBytes (s : Nat) (st : LStream) : List Byte :=
  padTo 4096 ([0x4C, 0x45, 0x41, 0x46, BitVec.ofNat 8 s, 1] ++ leBytes 2 st.recs.length ++ leBytes 8 st.leaf ++ leBytes 8 st.first
    ++ st.prev ++ st.recs)

/-- Close the open leaf and open the next with its hash (R467). -/
def closeLeaf (v : Vol) (s : Nat) : Vol :=
  let slot := leafBytes s (lst v s)
  let h := Config.sha384 slot
  putSlot (setLst v s fun st => { st with
    leaf := st.leaf + 1, recs := [], first := st.next, prev := h, segHash := st.segHash ++ [h] }) s slot

/-- One level of a Merkle tree (R463). -/
def merkleLevel : List (List Byte) → List (List Byte)
  | a :: b :: rest => Config.sha384 (1 :: a ++ b) :: merkleLevel rest
  | l => l

/-- The Merkle root of at most 256 leaf hashes. -/
def merkleRoot (hs : List (List Byte)) : List Byte := ((List.range 9).foldl (fun l _ => merkleLevel l) hs).headD []

/-- The siblings of node i, from the leaves upward; a node without a partner adds none. -/
def merklePath (hs : List (List Byte)) (i : Nat) : List (List Byte) :=
  ((List.range 9).foldl (fun (a : List (List Byte) × Nat × List (List Byte)) _ =>
    let sib := if a.2.1 % 2 = 0 then a.1[a.2.1 + 1]? else a.1[a.2.1 - 1]?
    (merkleLevel a.1, a.2.1 / 2, if a.1.length ≤ 1 then a.2.2 else a.2.2 ++ sib.toList)) (hs, i, [])).2.2

/-- Format memory as bytes (R464). -/
def fmtBytes (m : SMap Word) : List Byte := (List.range 2048).flatMap fun i => wordBytes (smapGet (fun _ => 0) m i)

/-- The first 392 bytes of the seal of a stream's segment (R464). -/
def sealBody (nv : Nv) (v : Vol) (s reason : Nat) (st : LStream) : List Byte :=
  let t := ptpNow v
  let ticks := st.segTicks.getD (0, 0)
  let ptp := if rb v (aStat pPtp) 0 then leBytes 6 t.1 ++ leBytes 4 t.2.1 else List.replicate 10 0xFF
  padTo 392 ([0x53, 0x45, 0x41, 0x4C, BitVec.ofNat 8 s, 1] ++ leBytes 2 reason ++ leBytes 8 st.sealNo ++ leBytes 8 st.segLeaf
    ++ leBytes 8 st.segHash.length ++ leBytes 8 st.segSeq ++ leBytes 8 (st.next - 1) ++ leBytes 8 ticks.1 ++ leBytes 8 ticks.2
    ++ ptp ++ List.replicate 6 0 ++ merkleRoot st.segHash ++ st.prev ++ st.sealHash ++ Config.sha384 (fmtBytes v.ldg.fmtUsed)
    ++ (List.range 12).flatMap (fun i => wordBytes (rg v (ra (pLks + 3) (0x0C0 + 4 * i)))) ++ flashBytes nv 0x1080000 16
    ++ wordBytes (rg v (aLdg 0x04C)) ++ leBytes 4 (lifeCycle nv + 1))

/-- The time at which a stream's seal falls due by its period (R451, R462). -/
def sealAt (v : Vol) (s : Nat) : Nat :=
  (lst v s).segAt + (if s = 0 then 60 else rf v (aLdg (0x100 + 4 * s)) 11 0) * 400000000

/-- The stamped ticks of leaf slots, first and last. -/
def leafTicks (ls : List (List Byte)) : Option (Nat × Nat) :=
  let ticks := ls.flatMap fun l => (recordsOf l).map fun r => le64 l (r.2 + 12)
  match ticks.head?, ticks.getLast? with
  | some a, some b => some (a, b)
  | _, _ => none

/-- The stored leaves of a stream from one index to before another, in order. -/
def storedLeaves (st : LStream) (lo hi : Nat) : List (List Byte) :=
  (st.store.map (·.2)).filter fun l => isLeaf l && decide (lo ≤ le64 l 8) && decide (le64 l 8 < hi)

/-- The sequence number that follows a leaf's last record. -/
def leafEnd (l : List Byte) : Nat := match (recordsOf l).getLast? with | some r => r.1 + 1 | none => le64 l 16

/-- The segment that one seal covers (R462): the open one, but of a run that MOUNT has found to be longer than 256 leaves the first 256, with
what remains of it. -/
def segmentParts (st : LStream) : LStream × LStream :=
  let hi := st.segLeaf + 256
  let head := storedLeaves st st.segLeaf hi
  if st.segHash.length ≤ 256 then (st, { st with segLeaf := st.leaf, segSeq := st.next, segHash := [], segTicks := none, due := 0 })
  else
    let seq := match head.getLast? with | some l => leafEnd l | none => st.segSeq
    ({ st with segHash := st.segHash.take 256, next := seq, prev := (st.segHash.take 256).getLastD st.prev
               segTicks := leafTicks head },
     { st with segLeaf := hi, segSeq := seq, segHash := st.segHash.drop 256, segTicks := leafTicks (storedLeaves st hi st.leaf) })

/-- A seal of stream s falls due with a reason (R462, R464-R466): the segment closes and its seal waits for Locksmith's
signature. A stream without a record since its last seal is not sealed; while a seal is being signed, or none can be, it
stays due. SIZE and TIME due together are both in REASON (R480). -/
def sealStart (nv : Nv) (v : Vol) (s reason : Nat) : Vol :=
  let st := lst v s
  if st.segTicks.isNone then v
  else
    let v := setLst v s fun st => { st with due := st.due ||| reason }
    if st.signing.isSome then v
    else if !canSign v then setFault v pLdg 6
    else
      let v := if st.recs.isEmpty then v else closeLeaf v s
      let st := lst v s
      let why := st.due ||| (if 256 ≤ st.segHash.length then 1 else 0) ||| (if sealAt v s ≤ wall v then 2 else 0)
      let (head, rest) := segmentParts st
      let body := sealBody nv v s why head
      let v := { v with lks := { v.lks with idq := v.lks.idq.filter (· != s) ++ [s] } }
      setLst v s fun _ => { rest with
        signing := some body, sealNo := st.sealNo + 1, sealHash := Config.sha384 body
        sealing := some ⟨st.segLeaf, st.segSeq, head.segHash, head.segTicks.getD (0, 0), st.segAt, why, st.sealHash⟩ }

/-- No signature can be made any more (R466, R525): the seal that waits for one stays due and its segment is open again. -/
def sealReopens (v : Vol) (s : Nat) : Vol :=
  match (lst v s).sealing with
  | none => v
  | some g =>
    setLst (setFault v pLdg 6) s fun st => { st with
      signing := none, sealing := none, due := st.due ||| g.due, sealNo := st.sealNo - 1, sealHash := g.chain
      segLeaf := g.leaf, segSeq := g.seq, segHash := g.hash ++ st.segHash, segAt := g.since
      segTicks := some (g.ticks.1, match st.segTicks with | some t => t.2 | none => g.ticks.2) }

/-- The open leaf closes; with 256 leaves closed a seal is due (R462). -/
def closeLeafDue (nv : Nv) (v : Vol) (s : Nat) : Vol :=
  let v := closeLeaf v s
  if 256 ≤ (lst v s).segHash.length then sealStart nv v s 1 else v

/-- FLUSH (R467, R468): the open leaf closes and its page is programmed. -/
def flushStream (nv : Nv) (v : Vol) (s : Nat) : Vol :=
  programAll (if (lst v s).recs.isEmpty then v else closeLeafDue nv v s) s

/-- Locksmith returns the signature of a stream's seal (R464, R465): the seal takes the next slot and its page is
programmed; a seal that fell due meanwhile follows. -/
def sealSign (nv : Nv) (v : Vol) (s : Nat) : Vol :=
  match (lst v s).signing with
  | none => v
  | some body =>
    if !ldgRuns v then v
    else if !canSign v then setFault v pLdg 6
    else
      let sig := Config.ecdsaSign (smapGet (fun _ => []) v.lks.slots 0) (Config.sha384 body) v.free
      let v := setLst (nextFree v) s fun st => { st with signing := none, sealing := none }
      let v := programAll (putSlot v s (padTo 4096 (body ++ sig))) s
      if (lst v s).due = 0 then v else sealStart nv v s 0

/-- A stream's seal is signed when its turn comes (R483): after the identity-key operations requested before it. -/
def sealIsSigned (nv : Nv) (v : Vol) (s : Nat) : Vol :=
  if canSign v && idNext v != some s then v else sealSign nv v s

/-- SEALT seconds have passed since the segment's first record (R462). -/
def sealTimeUp (nv : Nv) (v : Vol) (s : Nat) : Vol :=
  let st := lst v s
  if !ldgRuns v || !ldgMounted v || st.segTicks.isNone || decide (st.due &&& 2 ≠ 0) then v
  else
    sealStart nv (wallTo v (sealAt v s)) s 2

/-! ### Records (R458-R460) -/

/-- The PTP stamp of a tick and whether it is unknown (R458, R460). -/
def tickStamp (v : Vol) (tick : Nat) : List Byte :=
  match v.ldg.bts.find? fun b => b.1 == tick with
  | some b => leBytes 6 b.2.1 ++ leBytes 4 b.2.2 ++ [0, 0]
  | none => List.replicate 10 0xFF ++ [1, 0]

/-- The open leaf closes when a record of n bytes does not fit in it (R458, R467). -/
def fitRecord (nv : Nv) (v : Vol) (s n : Nat) : Vol := if 4024 < (lst v s).recs.length + n then closeLeafDue nv v s else v

/-- The open segment holds 256 closed leaves (R462, R466). -/
def segmentFull (v : Vol) (s : Nat) : Bool := decide (256 ≤ (lst v s).segHash.length)

/-- A record enters the open leaf, or the next when it does not fit (R458, R459, R467). -/
def appendRecord (nv : Nv) (v : Vol) (s fmt tick : Nat) (payload : List Byte) : Vol :=
  let n := 32 + payload.length
  let v := fitRecord nv v s n
  let stamp := tickStamp v tick
  setLst v s fun st =>
    let r := leBytes 2 n ++ [BitVec.ofNat 8 s, BitVec.ofNat 8 fmt] ++ leBytes 8 st.next ++ leBytes 8 tick ++ stamp ++ payload
    { st with
      recs := st.recs ++ padTo ((n + 7) / 8 * 8) r, next := st.next + 1
      segTicks := some ((match st.segTicks with | some t => t.1 | none => tick), tick)
      segAt := if st.segTicks.isNone then wall v else st.segAt }

/-- Ledger's own record in the volume stream (R451); none while that stream's segment can neither grow nor be sealed (R466). -/
def volRecord (nv : Nv) (v : Vol) (ev s place n x : Nat) : Vol :=
  let v := if ldgMounted v then fitRecord nv v 0 48 else v
  if !ldgMounted v || segmentFull v 0 then v
  else appendRecord nv v 0 0 v.tick.number.toNat
    ([BitVec.ofNat 8 ev, BitVec.ofNat 8 s] ++ leBytes 2 place ++ leBytes 4 n ++ leBytes 8 x)

/-- Where a block lies, as bytes 2-3 of a volume record name it. -/
def blkPlace (v : Vol) (b : Nat) : Nat := blkTarget v b / 8 * 0x4000 + blkTarget v b % 8 * 0x800 + blkLun v b * 0x200

/-- A block is retired (R447): it never returns to the pool. -/
def retireMark (v : Vol) (b : Nat) : Vol :=
  let v := setLdg v fun l => { l with retired := l.retired ++ [b], pool := l.pool.filter fun p => p.2 != b }
  let v := { v with nand := { v.nand with retired := v.nand.retired ++ [b] } }
  rgSet (rgSet v (aLdg 0x050) (rg v (aLdg 0x050) - 1)) (aLdg 0x058) (rg v (aLdg 0x058) + 1)

/-- A retirement is told (R447): event 4 and a volume record. -/
def retireTold (nv : Nv) (v : Vol) (b : Nat) : Vol :=
  volRecord nv (raiseEvent v pLdg 4) 4 0 (blkPlace v b) (b % ldgBlocks v) 0

/-- Retire a block (R447). -/
def retireBlock (nv : Nv) (v : Vol) (b : Nat) : Vol := retireTold nv (retireMark v b) b

/-- A program or erase of a block has failed (R447, R479): FAULT.PFAIL and the channel's counter at an offset. -/
def failNoted (v : Vol) (t off : Nat) : Vol := setFault (rgInc v (ra (pNand (t / 8)) off)) pLdg 3

/-- The pages that stream s programs into the block with an index, and into those after it, go to a new block in their order, leaf indexes
unchanged (R444, R447); the newest block is closed. -/
def moveProgs (v : Vol) (s idx : Nat) : Vol :=
  let st := lst v s
  let (stay, go) := st.progs.partition fun p => decide (p.idx < idx)
  if go.isEmpty then v
  else
    let v := go.foldl (fun v p => lunDone v (some s) p.blk) v
    programFull (setLst v s fun st => { st with progs := stay, page := go.flatMap (·.slots) ++ st.page, used := ldgPages v }) s

/-- A staging block gives its place, with the units it holds, to a block of the pool (R447, R474); with none there it keeps it. -/
def stagingMoves (v : Vol) (b : Nat) : Vol :=
  match pickBlock v (blkTarget v b) with
  | none => v
  | some (n, p) =>
    let i := v.ldg.stg.idxOf b
    let v := setLdg (poolTakes v n p) fun l => { l with stg := l.stg.set i p }
    (v.nand.pages.filter fun e => e.1 / 65536 == b).foldl (fun v e => nandPut v 255 i 0 (e.1 % 65536) p e.2.1) v

/-! ### Page programs, erases, timeouts (R444, R447, R469) -/

/-- The stream's oldest page program ends (R447, R469), once its LUN has come to it. -/
def pageProgrammed (nv : Nv) (v : Vol) (s : Nat) (pass : Bool) : Vol :=
  match (lst v s).progs with
  | [] => v
  | p :: rest =>
    if !ldgRuns v || !nandClocked v || !lunTurn v (some s) p.blk then v
    else
      let v := onfiBlock v p.blk [.program]
      if pass then
        let kept := p.slots.filter fun x => isLeaf x || isSeal x
        let last := (kept.filter isLeaf).foldl (fun d x => match (recordsOf x).getLast? with | some r => some r.1 | none => d) (lst v s).durable
        let seals := kept.countP isSeal
        let v := nandPut (lunDone v (some s) p.blk) s p.idx p.first p.page p.blk p.slots
        let v := setLst v s fun st => { st with
          progs := rest, store := st.store ++ (kept.map fun x => (p.idx, x)).filter (fun e => decide (st.baseIdx ≤ e.1))
          durable := last, seals := st.seals + seals }
        if seals = 0 then v else raiseEvent v pLdg 2
      else
        let v := failNoted v (blkTarget v p.blk) 0x070
        retireTold nv (moveProgs (retireMark v p.blk) s p.idx) p.blk

/-- The blocks used of each LUN: at most 128 GiB, 8 388 608 pages, of each target (R441). -/
def usedBlocks (g : TargetParams) : Nat := min g.blocks (8388608 / (g.luns * g.pages))

/-- The target and LUN of a block while FORMAT or MOUNT works on the geometry that its scan finds; none outside it. -/
def scanLun (g : TargetParams) (b : Nat) : Nat × Nat := (b / (g.luns * usedBlocks g), b / usedBlocks g % g.luns)

/-- Whether NAND channel c is enabled and its pads are powered (R441). -/
def chanOn (v : Vol) (c : Nat) : Bool := rb v (aLdg 0x040) c && domUp v (52 + c)

/-- A target of the scan that a channel reaches. -/
def scanTarget (v : Vol) (n : NandScan) (t : Nat) : Option TargetParams :=
  if chanOn v (t / 8) then (n.params.find? fun p => p.1 == t).map (·.2) else none

/-- Whether a parameter page is one that the part takes (R443). -/
def paramsPass (p : TargetParams) : Bool :=
  p.crc && decide (40 ≤ p.onfi) && p.ddr3 && p.data == 16384 && decide (2176 ≤ p.spare)

/-- The parameters of the first target accepted, from channel 0 chip enable 0 upward (R443). -/
def firstParams (v : Vol) (n : NandScan) : Option TargetParams :=
  (List.range 32).findSome? fun t => if tgtOffline v t then none else (scanTarget v n t).bind fun p => if paramsPass p then some p else none

/-- Whether two targets report one geometry (R443). -/
def sameGeometry (p q : TargetParams) : Bool := p.data == q.data && p.pages == q.pages && p.blocks == q.blocks

/-- The targets that a scan accepts (R441, R443): on enabled channels, their parameter pages good and of the first one's geometry. One that
is offline is not taken (R444). -/
def accepted (v : Vol) (n : NandScan) : List Nat :=
  (List.range 32).filter fun t =>
    match scanTarget v n t, firstParams v n with
    | some p, some g => !tgtOffline v t && paramsPass p && sameGeometry g p
    | _, _ => false

/-- Whether a running FORMAT or MOUNT works on a target and LUN. -/
def scanBusy (v : Vol) (t lun : Nat) : Bool :=
  match v.ldg.scan with
  | some n => (v.ldg.op == 1 || v.ldg.op == 2) && !v.ldg.waiting && !ldgMounted v && (accepted v n).contains t
      && (scanTarget v n t).any fun p => decide (lun < p.luns)
  | none => false

/-- A block erase ends (R447): one that a stream asked for, once its LUN has come to it; or one of FORMAT or STGERASE. -/
def blockErased (nv : Nv) (v : Vol) (b : Nat) (pass : Bool) : Vol :=
  let format := match v.ldg.scan.bind (firstParams v) with
    | some g => let x := scanLun g b; v.ldg.op == 1 && scanBusy v x.1 x.2
    | none => false
  if !ldgRuns v || !nandClocked v then v
  else if format then
    if pass then v
    else
      let t := match v.ldg.scan.bind (firstParams v) with | some g => (scanLun g b).1 | none => 0
      raiseEvent (failNoted { v with nand := { v.nand with retired := v.nand.retired ++ [b] } } t 0x074) pLdg 4
  else if v.ldg.op = 10 ∧ ldgMounted v ∧ v.ldg.stg.contains b ∧ blockLive v b then
    if pass then v
    else
      let v := failNoted (onfiBlock v b [.erase]) (blkTarget v b) 0x074
      retireBlock nv (stagingMoves v b) b
  else if !v.ldg.erasing.contains b || !lunTurn v none b then v
  else
    let v := onfiBlock (setLdg (lunDone v none b) fun l => { l with erasing := l.erasing.erase b }) b [.erase]
    let v := nandErase v (· == b)
    if pass then v
    else
      let v := retireMark (failNoted v (blkTarget v b) 0x074) b
      let v := (List.range 64).foldl (fun v s =>
        let st := lst v s
        if st.blocks.getLast? = some b then
          setLst (moveProgs v s (st.baseIdx + st.blocks.length - 1)) s fun st => { st with
            used := if st.blocks.getLast? = some b then ldgPages v else st.used }
        else v) v
      retireTold nv v b

/-- Whether a LUN programs a page, erases a block or serves the running command. -/
def lunBusy (v : Vol) (t lun : Nat) : Bool :=
  v.ldg.lunq.any (fun x => lunOf v x.2 == (t, lun)) || scanBusy v t lun
    || (v.ldg.op == 10 && !v.ldg.waiting && ldgMounted v && v.ldg.stg.any fun b => blockLive v b && lunOf v b == (t, lun))

/-- NAND_TGT shows which LUNs are busy (R479). -/
def nandView (v : Vol) (p off : Nat) (w : Word) : Word :=
  if 0x044 ≤ off ∧ off < 0x064 then
    let t := 8 * (p - pNand 0) + (off - 0x044) / 4
    w ||| BitVec.ofNat 32 ((List.range 4).map fun l => b2n (lunBusy v t l) * 2 ^ l).sum
  else w

/-- A LUN has been busy for too long (R444): it is reset, its target goes offline, and what ran there goes on elsewhere. -/
def lunExpires (nv : Nv) (v : Vol) (l : LunId) : Vol :=
  let t := 8 * l.chan.val + l.ce.val
  let a := ra (pNand l.chan.val) (0x044 + 4 * l.ce.val)
  let scans := scanBusy v t l.lun.val
  if !ldgRuns v || !lunBusy v t l.lun.val || !(rb v a 30 || scans) || rb v a 28 then v
  else
    let v := raiseEvent (setFault (rbSet (onfiSend v t l.lun.val [.reset]) a 28 true) pLdg 5) pLdg 7
    if scans then v
    else
      let v := setLdg v fun g => { g with
        erasing := g.erasing.filter (fun b => blkTarget v b != t), lunq := g.lunq.filter fun x => blkTarget v x.2 != t }
      let v := (List.range 64).foldl (fun v s =>
        let st := lst v s
        let v := match st.progs.find? fun p => blkTarget v p.blk == t with | some p => moveProgs v s p.idx | none => v
        match (lst v s).blocks.getLast? with
        | some b => if blkTarget v b = t then setLst v s fun st => { st with used := ldgPages v } else v
        | none => v) v
      volRecord nv v 6 0 (l.chan.val * 0x4000 + l.ce.val * 0x800 + l.lun.val * 0x200) 0 0

/-! ### Registers (R453, R475-R477) -/

/-- An UNMOUNT that has taken every entry seals every stream; what cannot be signed is programmed (R462, R466, R475). -/
def unmountBegins (nv : Nv) (v : Vol) : Vol :=
  if v.ldg.op ≠ 7 || v.ldg.ending || !ldgMounted v || rf v (aLdg 0x07C) 9 0 ≠ v.ldg.tail then v
  else
    (List.range 64).foldl (fun v s =>
      let v := sealStart nv v s 4
      if (lst v s).signing.isSome && canSign v then v else flushStream nv v s) (setLdg v fun l => { l with ending := true })

/-- MOUNT takes every target again (R444). -/
def targetsAgain (v : Vol) : Vol := (List.range 32).foldl (fun v t => rbSet v (ra (pNand (t / 8)) (0x044 + 4 * (t % 8))) 28 false) v

/-- The running command begins its work (R475): at once, or when CTL.EN is set. -/
def ldgBegins (nv : Nv) (v : Vol) : Vol :=
  let v := setLdg v fun l => { l with waiting := false }
  let op := v.ldg.op
  let s := ldgArg v 0
  if !ldgMounted v then (if op = 2 then targetsAgain v else v)
  else if op = 3 then (if s < 64 then flushStream nv v s else v)
  else if op = 4 then (if s < 64 then sealStart nv v s 4 else v)
  else if op = 7 then unmountBegins nv v
  else match cmdBlock v with | some b => lunQueue v (some 64) b | none => v

/-- A command starts (R475); while CTL.EN is 0 it waits. -/
def ldgStart (nv : Nv) (v : Vol) (op : Nat) (scan : Option NandScan) : Vol :=
  let v := rgOr (setLdg v fun l => { l with op := op, scan := scan, tail := rf v (aLdg 0x078) 9 0, ending := false, waiting := !ldgRuns v })
    (aLdg 0x094) (bitWord 31)
  if v.ldg.waiting then v else ldgBegins nv v

/-- Format memory's word at LDG_FMTPTR, and the pointer's advance (R341, R453). -/
def fmtIdx (v : Vol) : Nat := rf v (aLdg 0x068) 10 0
def fmtAdvance (v : Vol) : Vol := if rb v (aLdg 0x068) 31 then rfSet v (aLdg 0x068) 10 0 (fmtIdx v + 1) else v
def fmtWord (v : Vol) : Word := smapGet (fun _ => 0) v.ldg.fmt (fmtIdx v)

/-- What a write of an LDG register does (R449, R451, R453, R475, R506). `scan` is what a FORMAT or MOUNT finds. -/
def ldgWrite (nv : Nv) (v : Vol) (scan : Option NandScan) (off : Nat) (via : Via) (w : Word) : Vol :=
  let old := rg v (aLdg off)
  if off = 0x080 then
    (if rb v (aLdg 0x094) 31 then v
      else
        let v := regWrite v pLdg off via w
        let op := rf v (aLdg off) 3 0
        if op = 0 ∨ badCode (.outside 1 10) (fld (asked via old w) 3 0) then v else ldgStart nv v op scan)
  else if off = 0x06C then
    let i := fmtIdx v
    let x := asked via (fmtWord v) w
    fmtAdvance (if i < 32 then v else setLdg v fun l => { l with fmt := smapSet (fun _ => 0) l.fmt i x, fmtNew := true })
  else
    let v := regWrite v pLdg off via w
    let new := rg v (aLdg off)
    if off = 0x008 then
      let v := if bit new 0 && via != .clearBits then setLdg v fun l => { l with held := false } else v
      if v.ldg.waiting && ldgRuns v then ldgBegins nv v else v
    else if 0x104 ≤ off ∧ off < 0x200 then
      (if bit old 31 = bit new 31 then v else volRecord nv v (if bit new 31 then 7 else 8) ((off - 0x100) / 4) 0 0 0)
    else if 0x204 ≤ off ∧ off < 0x300 then
      (if old = new then v else volRecord nv v 9 ((off - 0x200) / 4) 0 new.toNat 0)
    else v

/-- LDG as read (R449, R453, R476, R477). -/
def ldgView (v : Vol) (off : Nat) (w : Word) : Word :=
  let st := lst v (rf v (aLdg 0x0A0) 5 0)
  if off = 0x00C then w ||| BitVec.ofNat 32 (b2n (v.ldg.streams.any fun s => s.2.signing.isSome) * 2)
  else if off = 0x054 then BitVec.ofNat 32 v.ldg.pool.length
  else if off = 0x06C then fmtWord v
  else if off = 0x0A4 then BitVec.ofNat 32 st.next
  else if off = 0x0AC then (match st.durable with | some d => BitVec.ofNat 32 d | none => 0xFFFFFFFF)
  else if off = 0x0B4 then BitVec.ofNat 32 st.seals
  else if off = 0x0B8 then BitVec.ofNat 32 (st.blocks.length % 2 ^ 20)
  else w

/-- Reads of LDG that latch or advance (R453, R476). -/
def ldgOnRead (v : Vol) (off : Nat) : Vol :=
  let st := lst v (rf v (aLdg 0x0A0) 5 0)
  if off = 0x06C then fmtAdvance v
  else if off = 0x0A4 then rgSet v (aLdg 0x0A8) (BitVec.ofNat 32 (st.next / 2 ^ 32))
  else if off = 0x0AC then rgSet v (aLdg 0x0B0) (match st.durable with | some d => BitVec.ofNat 32 (d / 2 ^ 32) | none => 0xFFFFFFFF)
  else v

end Sys2Proof.Machine
end

