-- ==== Sys2Proof/Machine/LksOps.lean ====
section
/-! DEFINITION. Locksmith (R481-R530): OTP burns and counters, the records of config flash (R246-R250), manifests and planes
(R491, R497), the boot (R490), activation and probation (R505-R513), and tamper and glitch events. The commands are in
LksCmd. -/

namespace Sys2Proof.Machine

abbrev aLks (p off : Nat) : Nat := ra (pLks + p) off
def setLks (v : Vol) (f : Lks → Lks) : Vol := { v with lks := f v.lks }

/-- A K slot, empty when not loaded. -/
def slotOf (v : Vol) (s : Nat) : List Byte := smapGet (fun _ => []) v.lks.slots s
def setSlot (v : Vol) (s : Nat) (k : List Byte) : Vol := setLks v fun l => { l with slots := smapSet (fun _ => []) l.slots s k }

/-- The bytes of an ASCII text. -/
def ascii (s : String) : List Byte := s.toList.map fun c => BitVec.ofNat 8 c.toNat

/-- The sealing keys (R482). -/
def keyDsk : List Byte := Config.sealingKey (ascii "AQM-IDSEAL")
def keyDak : List Byte := Config.sealingKey (ascii "AQM-DEVAREA")
def keyUsk (nv : Nv) : List Byte := Config.sealingKey (ascii "AQM-USER" ++ [if 3 ≤ lifeCycle nv then 1 else 0])

/-! ### OTP (R251, R485, R515-R517) -/

/-- Burn bits of the OTP word at an offset: a set bit stays set. -/
def otpBurn (nv : Nv) (off : Nat) (w : Word) : Nv :=
  { nv with otp := smapSet otpBlank nv.otp (0x1080000 + off) (smapGet otpBlank nv.otp (0x1080000 + off) ||| w) }

/-- Burn a list of words from an offset. -/
def otpBurnAll (nv : Nv) (off : Nat) : List Word → Nv
  | [] => nv
  | w :: rest => otpBurnAll (otpBurn nv off w) (off + 4) rest

/-- Burn bits of the OTP word at an offset and read it back (R528): a burn that fails leaves some of the bits unset and sets FAULT.OTP
(log entry 70). Answers whether the read-back agrees. -/
def burnWord (nv : Nv) (v : Vol) (off : Nat) (w : Word) : Nv × Vol × Bool :=
  if Config.burnFails v.free then (otpBurn nv off (w &&& Config.failedWord v.free), setFault (nextFree v) pLks 0, false)
  else (otpBurn nv off w, nextFree v, true)

/-- Burn a list of words from an offset, up to the first that fails. -/
def burnWords (nv : Nv) (v : Vol) (off : Nat) : List Word → Nv × Vol × Bool
  | [] => (nv, v, true)
  | w :: rest =>
    match burnWord nv v off w with
    | (nv, v, true) => burnWords nv v (off + 4) rest
    | r => r

def otpWord (nv : Nv) (off : Nat) : Word := smapGet otpBlank nv.otp (0x1080000 + off)
def otpBytes (nv : Nv) (off n : Nat) : List Byte := flashBytes nv (0x1080000 + off) n

/-- Words of a byte list. -/
def wordsOf (bs : List Byte) : List Word := (List.range ((bs.length + 3) / 4)).map fun i => leWord bs (4 * i)

def onesIn (w : Word) : Nat := (List.range 32).countP fun i => bit w i

/-- A response: header and payload (R500). -/
def response (magic : List Byte) (msg : List Byte) (status code : Nat) (more : List Byte) : List Byte :=
  let pay : List Byte := [BitVec.ofNat 8 status, BitVec.ofNat 8 code, 0, 0] ++ more
  let h := magic ++ [msg.getD 4 0, 1, msg.getD 6 0, msg.getD 7 0] ++ leBytes 4 pay.length
  h ++ wordBytes (crc32c (h ++ pay)) ++ pay

/-- The magic bytes of a diagnostic message (R583). -/
def magicDiag : List Byte := [0x53, 0x44, 0x47, 0x31]

/-- Counter i (R515). -/
def counterOf (nv : Nv) (i : Nat) : Nat := ((List.range 32).map fun j => onesIn (otpWord nv (0x400 + 128 * i + 4 * j))).sum

/-- Burn the lowest unset bit of counter i. -/
def counterStep (nv : Nv) (v : Vol) (i : Nat) : Nv × Vol × Bool :=
  match (List.range 32).find? fun j => otpWord nv (0x400 + 128 * i + 4 * j) != 0xFFFFFFFF with
  | none => (nv, v, true)
  | some j => burnWord nv v (0x400 + 128 * i + 4 * j) (otpWord nv (0x400 + 128 * i + 4 * j) + 1)

/-- Burn up to n bits of counter i, up to the first that fails. -/
def counterSteps (nv : Nv) (v : Vol) (i : Nat) : Nat → Nv × Vol × Bool
  | 0 => (nv, v, true)
  | n + 1 =>
    match counterStep nv v i with
    | (nv, v, true) => counterSteps nv v i n
    | r => r

/-- Burn counter i up to a value; the VBAT shadow follows (R516). Answers whether every burn succeeded. -/
def counterTo (nv : Nv) (v : Vol) (i n : Nat) : Nv × Vol × Bool :=
  match counterSteps nv v i (n - counterOf nv i) with
  | (nv, v, ok) =>
    (nv, setSysP v fun s => { s with ctrShadow := smapSet (fun _ => 0) s.ctrShadow i (BitVec.ofNat 32 (counterOf nv i)) }, ok)

/-- Set every bit of fuse field f (R485). -/
def fuseField (nv : Nv) (f : Nat) : Nv := otpBurnAll nv (0x200 + 32 * f) (List.replicate 8 0xFFFFFFFF)
def burnField (nv : Nv) (v : Vol) (f : Nat) : Nv × Vol × Bool := burnWords nv v (0x200 + 32 * f) (List.replicate 8 0xFFFFFFFF)
def fuseOnes (nv : Nv) (f : Nat) : Nat := ((List.range 8).map fun i => onesIn (otpWord nv (0x200 + 32 * f + 4 * i))).sum

/-- The life-cycle code (R485). -/
def lcCode (nv : Nv) : Nat := lifeCycle nv + 1

/-- Root slots (R517). -/
def rootHash (nv : Nv) (s : Nat) : List Byte := otpBytes nv (0x300 + 48 * s) 48
def rootFilled (nv : Nv) (s : Nat) : Bool := (rootHash nv s).any (· != 0)
def rootRevoked (nv : Nv) (s : Nat) : Bool := otpWord nv (0x3C0 + 4 * s) != 0

/-- Whether a public key is that of a filled, unrevoked root slot. -/
def rootKeyOk (nv : Nv) (s : Nat) (pub : List Byte) : Bool :=
  decide (s < 3) && rootFilled nv s && !rootRevoked nv s && Config.sha384 pub == rootHash nv s

def serialOf (nv : Nv) : List Byte := otpBytes nv 0 16
def productOf (nv : Nv) : List Byte := otpBytes nv 0x10 8

/-- Whether the signature that follows the first n bytes of an order holds, by the key at an offset (R464, R488, R518). -/
def sigOver (m : List Byte) (n key : Nat) : Bool :=
  Config.ecdsaVerify ((m.drop key).take 96) (Config.sha384 (m.take n)) ((m.drop n).take 96)

/-! ### Records of the device area (R246-R250, R484) -/

/-- The header unit of a sector (R247): its sequence number, none when the sector is free. -/
def sectorSeq (nv : Nv) (a : Nat) : Option Nat :=
  if flashWord nv a = 0xC0F16A55 ∧ flashWord nv (a + 12) = crc32c (flashBytes nv a 12) then some (flashWord nv (a + 4)).toNat else none

/-- Of a record whose header unit is at an address (R248): key, generation and payload length. -/
def recKey (nv : Nv) (a : Nat) : Nat := fld (flashWord nv a) 31 16
def recGen (nv : Nv) (a : Nat) : Nat := fld (flashWord nv a) 7 0
def recLen (nv : Nv) (a : Nat) : Nat := fld (flashWord nv (a + 4)) 15 0
def recUnits (nv : Nv) (a : Nat) : Nat := (recLen nv a + 15) / 16 + 2
def recPayload (nv : Nv) (a : Nat) : List Byte := flashBytes nv (a + 16) (recLen nv a)

/-- Whether a header unit stands at an address, and whether its record counts (R249). -/
def recHeader (nv : Nv) (a : Nat) : Bool :=
  decide (1 ≤ recLen nv a) && decide (recLen nv a ≤ 4080) && flashWord nv (a + 12) == crc32c (flashBytes nv a 12)
def recCounts (nv : Nv) (a : Nat) : Bool :=
  let c := a + 16 * (recUnits nv a - 1)
  flashWord nv c == 0xA5C30F5A && flashWord nv (c + 4) == crc32c (flashBytes nv a (16 * (recUnits nv a - 1)))

/-- The counted records of a sector in log order, and its next free unit: units of a torn record stay used (R250). -/
def scanUnits (nv : Nv) (stop : Nat) : Nat → Nat → List Nat × Nat
  | 0, a => ([], a)
  | n + 1, a =>
    if stop ≤ a ∨ flashIsBlank nv a 16 then ([], a)
    else if recHeader nv a then
      let r := scanUnits nv stop n (a + 16 * recUnits nv a)
      if recCounts nv a then (a :: r.1, r.2) else r
    else scanUnits nv stop n (a + 16)

/-- The device area's sectors that hold records, oldest first. -/
def devSectors (nv : Nv) : List Nat :=
  match sectorSeq nv 0x1000000, sectorSeq nv 0x1010000 with
  | some x, some y => if x < y then [0x1000000, 0x1010000] else [0x1010000, 0x1000000]
  | some _, none => [0x1000000]
  | none, some _ => [0x1010000]
  | none, none => []

def devScan (nv : Nv) (s : Nat) : List Nat × Nat := scanUnits nv (s + 0x10000) 4096 (s + 16)
def devRecords (nv : Nv) : List Nat := (devSectors nv).flatMap fun s => (devScan nv s).1

/-- Whether generation g is newer than h (R249). -/
def genNewer (g h : Nat) : Bool := decide (1 ≤ (g + 256 - h) % 256) && decide ((g + 256 - h) % 256 ≤ 127)

/-- The newest of some records, and the next older one. -/
def newestOf (nv : Nv) (l : List Nat) : Option Nat :=
  l.foldl (fun best a =>
    match best with
    | none => some a
    | some b => if genNewer (recGen nv a) (recGen nv b) then some a else some b) none

/-- The tag of a device-area record over header words 0-1 and the payload without it (R484). -/
def devTag (head payload : List Byte) : List Byte := (Config.hmacSha384 keyDak (head ++ payload)).take 16
def devTagOk (nv : Nv) (a : Nat) : Bool :=
  let p := recPayload nv a
  decide (16 ≤ p.length) && devTag (flashBytes nv a 8) (p.take (p.length - 16)) == p.drop (p.length - 16)

/-- The payload, without its tag, of the newest valid record of a KEY (R249, R484). -/
def devRecord (nv : Nv) (key : Nat) : Option (List Byte) :=
  (newestOf nv ((devRecords nv).filter fun a => recKey nv a == key && devTagOk nv a)).map fun a =>
    (recPayload nv a).take (recLen nv a - 16)

/-- A reading of the area finds a record whose tag fails (R484). -/
def devCheck (nv : Nv) (v : Vol) : Vol := if (devRecords nv).all (devTagOk nv) then v else setFault v pLks 1

/-- Reading the records of a KEY finds one whose tag fails: FAULT.DEVREC (R484). -/
def devLook (nv : Nv) (v : Vol) (key : Nat) : Vol :=
  if ((devRecords nv).filter fun a => recKey nv a == key).all (devTagOk nv) then v else setFault v pLks 1

/-- Program whole units of config flash. -/
def unitsWrite (nv : Nv) (a : Nat) (bs : List Byte) : Nv :=
  let bs := padTo ((bs.length + 15) / 16 * 16) bs
  unitsPut (flashPut nv a (wordsOf bs)) a bs.length fun _ => 0

/-- Open a sector with a header (R247, R250). -/
def openSector (nv : Nv) (s seq : Nat) : Nv :=
  let h := leBytes 4 0xC0F16A55 ++ leBytes 4 seq ++ leBytes 4 ((seq - 1) / 2)
  unitsWrite (flashErase nv s 0x10000) s (h ++ wordBytes (crc32c h))

/-- Compact the device area (R250): the current and the previous record of every KEY move to the erased sector. -/
def devCompact (nv : Nv) : Nv :=
  match (devSectors nv).getLast? with
  | none => openSector nv 0x1000000 1
  | some old =>
    let new := 0x2010000 - old
    let recs := (devScan nv old).1
    let nv1 := openSector nv new (((sectorSeq nv old).getD 0) + 1)
    let copy (acc : Nv × Nat) (a : Nat) : Nv × Nat :=
      let n := 16 * recUnits nv a
      (unitsWrite acc.1 acc.2 (flashBytes nv a n), acc.2 + n)
    let perKey (acc : Nv × Nat) (key : Nat) : Nv × Nat :=
      let mine := recs.filter fun a => recKey nv a == key
      match newestOf nv mine with
      | none => acc
      | some cur =>
        let acc := match newestOf nv (mine.filter fun a => recGen nv a != recGen nv cur) with
          | some prev => copy acc prev
          | none => acc
        copy acc cur
    flashErase (((recs.map (recKey nv)).eraseDups.foldl perKey (nv1, new + 16)).1) old 0x10000

/-- Where a device-area record of a length in bytes goes, after a compaction if the sector is full (R250). -/
def devPlace (nv : Nv) (n : Nat) : Nv × Option Nat :=
  let room (nv : Nv) : Bool :=
    match (devSectors nv).getLast? with
    | none => false
    | some s => decide ((devScan nv s).2 + n ≤ s + 0x10000)
  let nv := if room nv then nv else devCompact nv
  (nv, (devSectors nv).getLast?.map fun s => (devScan nv s).2)

/-- The bytes of a device-area record but its commit unit (R248, R484): its payload takes the tag. -/
def devBody (nv : Nv) (key : Nat) (payload : List Byte) : List Byte :=
  let gen := match newestOf nv ((devRecords nv).filter fun a => recKey nv a == key) with
    | some a => (recGen nv a + 1) % 256
    | none => 0
  let h2 := leBytes 4 (key * 65536 + 256 + gen) ++ leBytes 4 (payload.length + 16)
  let h3 := h2 ++ leBytes 4 0
  h3 ++ wordBytes (crc32c h3) ++ padTo ((payload.length + 31) / 16 * 16) (payload ++ devTag h2 payload)

/-- Write a device-area record (R248, R250, R484). -/
def devWrite (nv : Nv) (key : Nat) (payload : List Byte) : Nv :=
  match devPlace nv ((payload.length + 31) / 16 * 16 + 32) with
  | (nv, none) => nv
  | (nv, some a) =>
    let body := devBody nv key payload
    unitsWrite nv a (body ++ leBytes 4 0xA5C30F5A ++ wordBytes (crc32c body))

/-- Write a device-area record for a command that answers FLASH when that fails (R502): the record then has no commit unit that
counts. -/
def devWriteTry (nv : Nv) (v : Vol) (key : Nat) (payload : List Byte) : Nv × Vol × Bool :=
  if Config.flashFails v.free then
    match devPlace nv ((payload.length + 31) / 16 * 16 + 32) with
    | (nv, none) => (nv, nextFree v, false)
    | (nv, some a) =>
      let body := devBody nv key payload
      (flashFailed (unitsWrite nv a (body ++ leBytes 4 0 ++ wordBytes (crc32c body))) a 16 v.free, { v with free := v.free + 4 }, false)
  else (devWrite nv key payload, nextFree v, true)

/-! ### Manifests and planes (R491, R495, R498) -/

/-- Fields of a manifest. -/
def manN (m : List Byte) : Nat := (leWord m 28).toNat
def manSv (m : List Byte) : Nat := (leWord m 24).toNat
def manHash (m : List Byte) : List Byte := Config.sha384 (m.take (512 + 48 * manN m))
def manKey (v : Vol) (m : List Byte) : Option (List Byte) :=
  if (slotOf v 3).isEmpty then none
  else Config.gcmOpen (slotOf v 3) ((m.drop 40).take 12) (m.take 40) ((m.drop 52).take 32) ((m.drop 84).take 16)

/-- Whether a manifest is well formed (R498). -/
def manFormed (m : List Byte) : Bool :=
  let zeros (a n : Nat) : Bool := ((m.drop a).take n).all (· == 0)
  m.take 6 == [0x41, 0x51, 0x4D, 0x46, 1, 0] && decide (byteAt m 6 ≤ 1) && decide (byteAt m 7 ≤ 1) && decide (manSv m ≤ 1024)
    && decide (1 ≤ manN m) && decide (manN m ≤ 2016) && decide ((leWord m 32).toNat % 16 = 0)
    && decide ((leWord m 32).toNat < 4096 * manN m) && decide (byteAt m 100 ≤ 2) && zeros 101 11 && zeros 208 304

/-- The status of a manifest for plane p (R491, R502) but for the block hashes: 0 when it passes. -/
def manStatus (nv : Nv) (v : Vol) (m : List Byte) (p : Nat) : Nat :=
  if !manFormed m then 1
  else if byteAt m 6 ≠ p then 7
  else if (m.drop 8).take 8 != productOf nv then 6
  else if !rootKeyOk nv (byteAt m 100) ((m.drop 112).take 96) then 4
  else if !sigOver m (512 + 48 * manN m) 112 then 3
  else if (manKey v m).isNone then 8
  else 0

/-- The manifest that plane p holds. -/
def planeMan (nv : Nv) (p : Nat) : List Byte := flashBytes nv (manifestAt p) (608 + 48 * min 2016 (imageBlocks nv p))

/-- The status of plane p under R491: 0 when it verifies. -/
def planeStatus (nv : Nv) (v : Vol) (p : Nat) : Nat :=
  let m := planeMan nv p
  let s := manStatus nv v m p
  if s ≠ 0 then s
  else if (List.range (manN m)).all fun b =>
      Config.sha384 (flashBytes nv (p * 0x800000 + 4096 * b) 4096) == (m.drop (512 + 48 * b)).take 48 then 0
  else 9

def planeSv (nv : Nv) (p : Nat) : Nat := (flashWord nv (manifestAt p + 24)).toNat

/-- Mark plane p verified and load its key (R30, R481). -/
def planeMark (nv : Nv) (v : Vol) (p : Nat) : Vol :=
  setSlot (rbSet v (aStat pFlc) p true) (1 + p) ((manKey v (planeMan nv p)).getD [])

/-- Write bytes to a run of registers. -/
def putRegs (v : Vol) (a : Nat) (bs : List Byte) : Vol :=
  (List.range (bs.length / 4)).foldl (fun v i => rgSet v (a + 4 * i) (leWord bs (4 * i))) v

/-- Plane p becomes the active one (R490, R507): FLC STAT.ACTIVE, the active manifest hash and YOK_IMG. -/
def planeActive (nv : Nv) (v : Vol) (p : Nat) : Vol :=
  yokTag <| putRegs (rbSet v (aStat pFlc) 2 (p == 1)) (aLks 3 0x0C0) (manHash (planeMan nv p))

/-- The address of plane p's boot entry. -/
def planeEntry (nv : Nv) (p : Nat) : Nat := p * 0x800000 + (flashWord nv (manifestAt p + 32)).toNat

/-- Start the service core at an address through its prefetch queue (R490, R507). -/
def startService (v : Vol) (a : Nat) : Vol :=
  let v := rgSet v (ra (pCore 8) 0x040) (BitVec.ofNat 32 a)
  startCore (rbSet (rgOr v (aCtl (pCore 8)) 0x18) (aStat (pCore 8)) 3 true) 8

/-- The payload of image-state record 0x0001, and its writing (R484). -/
def imageState (nv : Nv) (active state old : Nat) : List Byte :=
  let sv (p : Nat) : Nat := if manFormed (planeMan nv p) then planeSv nv p else 0
  [BitVec.ofNat 8 active, BitVec.ofNat 8 state, BitVec.ofNat 8 old, 0] ++ leBytes 4 (sv 0) ++ leBytes 4 (sv 1)
    ++ manHash (planeMan nv active) ++ List.replicate 4 0
def writeImageState (nv : Nv) (active state old : Nat) : Nv := devWrite nv 1 (imageState nv active state old)

/-! ### Tamper and glitch (R523-R525) -/

/-- What both events do (R525): the keys but the image keys are cleared, and nothing more is signed; a segment whose seal waited for a
signature is open again (R466). -/
def keysCleared (v : Vol) : Vol :=
  let v := (List.range 64).foldl sealReopens v
  setLks v fun l => { l with
    slots := smapKeep (fun s => s == 1 || s == 2) l.slots, noSign := true, idq := l.idq.filter fun s => decide (64 ≤ s) }

/-- End the service-port session (R500). -/
def sessionEnds (v : Vol) : Vol := setLks v fun l => { l with session := false, phase := 0, staged := false, man := [], stored := [] }

/-- The tamper event: source 3. -/
def lksTamper (v : Vol) : Vol :=
  raiseEvent (setFault (sessionEnds (keysCleared (setLks v fun l => { l with tampered := true }))) pLks 3) pLks 8

/-- A glitch: source 4; the command in progress will abort, and its result is discarded: of a RESUME, that the pause ends by it. -/
def lksGlitch (v : Vol) : Vol :=
  if v.sys.mode == .cold then v
  else
    let v := rgInc (setFault (keysCleared v) pLks 4) (aLks 0 0x098)
    let busy := rb v (aLks 0 0x054) 31
    raiseEvent (setLks v fun l => { l with
      glitched := busy, early := false, ownResume := false, resumeDue := l.resumeDue && !(busy && l.op == 3 && l.ownResume) }) pLks 9

/-- The LFSR of the mesh after n steps, and the level that it drives on TMESHO (R523; log entry 141). -/
def lfsrAfter : Nat → BitVec 16
  | 0 => Config.lfsrSeed
  | n + 1 => Config.lfsrStep (lfsrAfter n)
def tmesho (v : Vol) : Bool := (lfsrAfter v.lks.meshN).getLsbD 0

/-- Whether the mesh is driven: LKS_TAMP.MESH is not 0 (R523). -/
def meshOn (v : Vol) : Bool := ready v pLks && rf v (aLks 0 0x094) 1 0 != 0

/-- The steps of the LFSR that lie behind the present time, at each of which TMESHI followed. -/
def meshRuns (v : Vol) : Vol :=
  let n := (wall v - v.lks.meshAt) / 400
  if n = 0 then v else setLks v fun l => { l with meshN := l.meshN + n, meshAt := l.meshAt + 400 * n, meshOff := false }

/-- The next step of the LFSR, 1 µs after the last (R523): whether TMESHI differs from TMESHO at it. The second step in a row at which
it does raises the tamper event. -/
def meshStep (v : Vol) (differs : Bool) : Vol :=
  let twice := differs && v.lks.meshOff
  let v := setLks (wallTo v (v.lks.meshAt + 400)) fun l => { l with meshN := l.meshN + 1, meshAt := l.meshAt + 400, meshOff := differs }
  if twice then lksTamper v else v

/-- The mesh differs at two steps in a row (R523). -/
def meshTamper (v : Vol) : Vol := if meshOn v then meshStep (meshStep (meshRuns v) true) true else v

/-- The VBAT domain's check in COLD, a second after the last (R523). -/
def coldCheck (v : Vol) (mismatch : Bool) : Vol :=
  if v.sys.mode == .cold && v.sys.mesh2 then
    let v := wallTo v (v.lks.meshAt + 400000000)
    let v := setLks v fun l => { l with meshAt := wall v }
    if mismatch then setSysP v fun s => { s with coldTamp := true } else v
  else v

/-! ### Boot (R486, R490-R493, R516) -/

/-- Load slots 0 and 3 (R481, R490): IDK from its OTP blob, IUK from record 0x0002; LKS_IDPUB shows the identity key. -/
def loadSlots (nv : Nv) (v : Vol) : Vol :=
  let b := otpBytes nv 0x80 128
  let v := match (if b.any (· != 0) then Config.gcmOpen keyDsk (b.take 12) [] ((b.drop 12).take 48) ((b.drop 60).take 16) else none) with
    | some k => putRegs (setSlot v 0 k) (aLks 3 0x040) (Config.p384Public k)
    | none => v
  match devRecord nv 2 with
  | none => v
  | some r =>
    match Config.gcmOpen keyDsk (r.take 12) [] ((r.drop 12).take 32) ((r.drop 44).take 16) with
    | some k => setSlot v 3 k
    | none => v

/-- Compare the counters with their VBAT shadow (R516); answers whether one lies above OTP. -/
def checkShadow (nv : Nv) (v : Vol) : Vol × Bool :=
  (List.range 8).foldl (fun (a : Vol × Bool) i =>
    let sh := (smapGet (fun _ => (0 : Word)) a.1.sys.ctrShadow i).toNat
    let c := counterOf nv i
    if sh < c then (setSysP a.1 fun s => { s with ctrShadow := smapSet (fun _ => 0) s.ctrShadow i (BitVec.ofNat 32 c) }, a.2)
    else if c < sh then (setFault a.1 pLks 2, true) else a) (v, false)

/-- Try to boot plane p (R490). -/
def bootPlane (nv : Nv) (v : Vol) (st : Option (List Byte)) (p : Nat) : Option (Nv × Vol) :=
  if planeStatus nv v p ≠ 0 ∨ planeSv nv p < counterOf nv 0 then none
  else
    let active := (st.map fun r => byteAt r 0)
    let normal := (st.map fun r => byteAt r 1) == some 0
    let nv' := if active == some p && normal then nv else writeImageState nv p 0 p
    let v := writeEntries (planeActive nv (planeMark nv v p) p) (planeEntry nv p)
    let v := startService v (planeEntry nv p)
    some (nv', if st.isSome && active != some p then raiseEvent (rgOr v (aLks 0 0x05C) 32) pLks 5 else v)

/-- Locksmith's boot ends (R490, R544 steps 6 and 7). A torn fuse burn is completed and the part resets again (R486). In recovery Locksmith
powers the service port, which it serves with no core running (R492; log entry 142). -/
def lksBoot (nv : Nv) (v : Vol) : Nv × Vol :=
  let torn := (List.range 4).filter fun f => fuseOnes nv f != 0 && decide (fuseOnes nv f < 192)
  if !torn.isEmpty then
    match torn.foldl (fun r f => burnField r.1 r.2 f |> fun b => (b.1, b.2.1)) (nv, v) with
    | (nv, v) => (nv, wholeReset v 6 none)
  else
    let lc := lifeCycle nv
    if lc = 4 then (nv, sequenceEnds v false)
    else
      let v := loadSlots nv (devCheck nv v)
      let (v, above) := checkShadow nv v
      let cold := v.sys.coldTamp
      let v := if cold then rgOr v (aLks 0 0x094) 16 else v
      let fin (v : Vol) (safe : Bool) : Vol :=
        let v := if above || cold then lksTamper v else v
        sequenceEnds v safe
      if lc = 0 then (nv, fin (startService (writeEntries (rbSet v (aStat pFlc) 0 true) 0) 0) false)
      else
        let st := devRecord nv 1
        let (first, second) := match st with
          | none => (0, 1)
          | some r => if byteAt r 1 = 1 then (byteAt r 2 % 2, byteAt r 0 % 2) else (byteAt r 0 % 2, 1 - byteAt r 0 % 2)
        match bootPlane nv v st first with
        | some (nv, v) => (nv, fin v false)
        | none =>
          match bootPlane nv v st second with
          | some (nv, v) => (nv, fin v false)
          | none => (nv, startPower (fin (setLks v fun l => { l with recovery := true }) true) 31)

/-- Locksmith's boot, when the sequence has reached it. -/
def bootCompletes (nv : Nv) (v : Vol) : Nv × Vol := if v.sys.wait = .boot then lksBoot nv v else (nv, v)

/-! ### Quotes and answers of the service port (R500, R520) -/

/-- Whether probation runs: LKS_PLANE.PROB; and whether it can still be confirmed: no fallback is under way (R512, R513). -/
def probRuns (v : Vol) : Bool := rb v (aLks 0 0x05C) 4
def probOpen (v : Vol) : Bool := probRuns v && !v.lks.fallback

/-- The service port's device state (R595). -/
def svcState (v : Vol) : Nat := rf v (ra pSvc 0x040) 2 0

/-- Whether debug access is open: permissions in force (R518). -/
def dbgOpen (v : Vol) : Bool := rg v (aLks 2 0x054) != 0

/-- The structure that QUOTE signs (R520). -/
def quoteBytes (nv : Nv) (v : Vol) (nonce : List Byte) : List Byte :=
  let act := activePlane v
  let time := if v.tick.had && rb v (aStat pPtp) 0 then leBytes 6 v.tick.btsSec ++ leBytes 4 v.tick.btsNs else List.replicate 10 0xFF
  let other := if planeVerified v (1 - act) then manHash (planeMan nv (1 - act)) else List.replicate 48 0
  let mfh := (List.range 12).flatMap fun i => wordBytes (rg v (aLks 3 (0x0C0 + 4 * i)))
  let body := padTo 400 ([0x41, 0x51, 0x51, 0x54, 1, 0, 0, 0] ++ serialOf nv ++ leBytes 4 (lcCode nv)
    ++ (List.range 8).flatMap (fun i => leBytes 4 (counterOf nv i))
    ++ [BitVec.ofNat 8 act, BitVec.ofNat 8 (b2n (probRuns v) + b2n v.lks.tampered * 2 + b2n (dbgOpen v) * 4), 0, 0]
    ++ mfh ++ padTo 48 other ++ padTo 32 (nonce.take 32) ++ leBytes 8 v.tick.number.toNat ++ time
    ++ padTo 96 (Config.p384Public (slotOf v 0)))
  let sig := Config.ecdsaSign (slotOf v 0) (Config.sha384 body) v.free
  body ++ padTo 112 (padTo 96 sig) ++ padTo 224 (((devRecord nv 3).getD []).take 224)

/-- The magic bytes of an update message (R500). -/
def magicUpdate : List Byte := [0x53, 0x55, 0x50, 0x31]

/-- Whether the service port is configured and up (R582) and has its clock (R597). -/
def svcUp (v : Vol) : Bool := ready v pSvc && ioClocked v && svcState v == 4

/-- Send a response on the update endpoint; a rejected message raises event 7. -/
def svcAnswer (v : Vol) (msg : List Byte) (status : Nat) (more : List Byte) : Vol :=
  raiseIf (status != 0) (setLks v fun l => { l with resp := response magicUpdate msg status 0 more }) pLks 7

/-- A QUOTE of the service port that waited for its turn is answered (R483, R502). -/
def quoteSent (nv : Nv) (v : Vol) : Vol :=
  match v.lks.quoteQ with
  | none => v
  | some msg =>
    let v := setLks v fun l => { l with quoteQ := none, idq := l.idq.filter (· != 65) }
    if !svcUp v then v
    else if !canSign v then svcAnswer v msg 3 []
    else svcAnswer (nextFree (devLook nv v 3)) msg 0 (quoteBytes nv v (msg.drop 16))

/-! ### Activation and probation (R505-R513) -/

/-- Whether a switch has been accepted and has not yet come about. -/
def switchWaits (v : Vol) : Bool := v.lks.switchTo.isSome || v.lks.switchHold.isSome

/-- The seals of a switch are signed (R506): the record names the planes, and the switch waits for its boundary. -/
def switchReady (nv : Nv) (v : Vol) : Nv × Vol :=
  match v.lks.switchHold with
  | none => (nv, v)
  | some (p, tick) =>
    let old := activePlane v
    (writeImageState nv p 1 old, setLks v fun l => { l with oldPlane := old, switchTo := some (p, tick), switchHold := none })

/-- Whether a stream's seal waits for a signature that can be made. -/
def sealsWait (v : Vol) : Bool := canSign v && ldgRuns v && v.lks.idq.any fun s => decide (s < 64) && (lst v s).signing.isSome

/-- The identity-key operations that need no event of their own go on, up to n of them, in the order of their requests (R483): the seals
that a switch waits for, and a QUOTE of the service port. A QUOTE of LKS_CMD ends by LKS_COMMAND_DONE. -/
def idSteps : Nat → Nv → Vol → Nv × Vol
  | 0, nv, v => (nv, v)
  | n + 1, nv, v =>
    if v.lks.switchHold.isSome && !sealsWait v then
      let r := switchReady nv v
      idSteps n r.1 r.2
    else if !canSign v then (nv, quoteSent nv v)
    else
      match idNext v with
      | none => (nv, v)
      | some s =>
        if s = 65 then idSteps n nv (quoteSent nv v)
        else if s < 64 ∧ v.lks.switchHold.isSome = true then idSteps n nv (sealSign nv v s)
        else (nv, v)

/-- Identity-key operations go on after an event that may have made room for them. -/
def idGoes (nv : Nv) (v : Vol) : Nv × Vol :=
  if v.lks.switchHold.isNone && v.lks.quoteQ.isNone then (nv, v)
  else idSteps (v.lks.idq.length + ((List.range 64).map fun s => 2 + (lst v s).segHash.length).sum) nv v

/-- Steps 1 to 4 of an activation of plane p (R506), or of the fallback to it (R513): Ledger holds its ring, a seal of every stream
with records is requested, and the rest follows when they are signed. -/
def switchStarts (nv : Nv) (v : Vol) (p tick : Nat) (back : Bool) : Nv × Vol :=
  let v := setLdg v fun l => { l with held := true }
  let v := if ldgRuns v && ldgMounted v then (List.range 64).foldl (fun v s => sealStart nv v s 4) v else v
  idGoes nv (setLks v fun l => { l with switchHold := some (p, tick), fallback := back })

/-- The status of a request to activate the inactive plane (R505, R510). -/
def activateStatus (nv : Nv) (v : Vol) : Nat :=
  let p := 1 - activePlane v
  if lifeCycle nv = 0 ∨ lifeCycle nv = 4 then 13
  else if probRuns v then 10
  else if v.lks.pauseAt.isSome || switchWaits v then 14
  else if !planeVerified v p then 2
  else if planeSv nv p < counterOf nv 0 then 5
  else 0

/-- An accepted ACTIVATE: in recovery it resets the part once the record is written (R492). -/
def activateGo (nv : Nv) (v : Vol) (tick : Nat) : Nv × Vol :=
  let p := 1 - activePlane v
  if v.lks.recovery then (writeImageState nv p 1 (activePlane v), wholeReset v 6 none)
  else switchStarts nv v p tick false

/-- Probation has expired or REJECT is written: back to the old plane (R513). The planes stay locked until the procedure ends. -/
def fallBack (nv : Nv) (v : Vol) : Nv × Vol :=
  if !probOpen v || switchWaits v then (nv, v) else switchStarts nv v (1 - activePlane v) 0 true

/-- A part still attached sends CTRL DOWN at boundary S (R431, R506): a lead loses the token, a shadow detaches. -/
def twinLeaves (v : Vol) : Vol :=
  if !v.yok.twin then v
  else if v.yok.token then yokRelease v 3
  else yokDetach (yokCtrl v 3 [3])

/-- Locksmith's part of a boundary (R506, R509): boundary S opens the pause; the resume boundary ends it and restarts the
cores of TICK_CORES; probation starts, but after a fallback. A SAFE that has ended the pause of S does not let it open again (R530). -/
def lksBoundary (v : Vol) : Vol :=
  match v.lks.pauseAt with
  | some _ =>
    if !v.lks.resumeDue then v
    else
      let back := v.lks.fallback
      let v := setLks v fun l => { l with pauseAt := none, resumeDue := false, fallback := false, fellDue := back }
      let v := setTick v fun t => { t with restart := (ta v 0x088).setWidth 8, enter := 0, resume := 0 }
      if back then v else probStart v
  | none =>
    match v.lks.switchTo with
    | some (_, t) =>
      if t ≤ v.tick.number.toNat && !v.lks.atS then
        twinLeaves (setLks v fun l => { l with pauseAt := some v.now, resumeDue := false, atS := true })
      else v
    | none => v

/-- The fallback's procedure has ended (R513): the record becomes normal with the old plane active, and probation is over. -/
def fellBack (nv : Nv) (v : Vol) : Nv × Vol :=
  if !v.lks.fellDue then (nv, v)
  else
    let p := activePlane v
    (writeImageState nv p 0 p, raiseEvent (rgOr (rgClr (setLks v fun l => { l with fellDue := false }) (aLks 0 0x05C) 16) (aLks 0 0x05C) 32) pLks 5)

/-- The switch within tick S (R507): the service core halts after its store buffer, the plane changes, and the core starts
at the new boot entry. -/
def switchPlanes (nv : Nv) (v : Vol) (drain : Vol → Vol) : Vol :=
  match v.lks.switchTo with
  | none => v
  | some (p, _) =>
    if !v.lks.atS then v
    else
      let v := drain v
      let v := whsPlaneSwitched (planeActive nv v p)
      let e := planeEntry nv p
      let v := (List.range 9).foldl (fun v k => rgSet (onCore v k fun c => { c with btb := [], queue := none, retq := none, fetchAt := none, lpCold := 3 })
        (ra (pCore k) 0x04C) (rg v (ra (pCore k) 0x04C) &&& 0x80000000)) (writeEntries v e)
      setLks (startService (resetCore v 8) e) fun l => { l with switchTo := none, atS := false }

/-- A boundary lies 600 000 c or more behind boundary S with no RESUME written (R510): SAFE. -/
def pauseExpires (v : Vol) : Vol :=
  match v.lks.pauseAt with
  | some t => if !v.lks.resumeDue && decide (t + 600000 ≤ v.tick.boundary) then enterSafe v else v
  | none => v

/-- 60 s of probation remain (R511). -/
def probWarns (v : Vol) : Vol :=
  if probOpen v then raiseEvent (wallTo v (v.lks.probEnd - 24000000000)) pLks 3 else v

/-- Probation expires (R513); a CONFIRM already written counts (R512). -/
def probExpires (nv : Nv) (v : Vol) : Nv × Vol :=
  if probOpen v && v.lks.op != 4 then fallBack nv (wallTo v v.lks.probEnd) else (nv, v)

/-- CONFIRM (R512): the counter, the record, the end of probation, in this order; a burn or a record that fails ends it there with FLASH
(R502). Answers the status. -/
def confirmImage (nv : Nv) (v : Vol) : Nv × Vol × Nat :=
  let p := activePlane v
  match counterTo nv v 0 (planeSv nv p) with
  | (nv, v, false) => (nv, v, 11)
  | (nv, v, true) =>
    match devWriteTry nv v 1 (imageState nv p 0 p) with
    | (nv, v, false) => (nv, v, 11)
    | (nv, v, true) => (nv, raiseEvent (rgClr v (aLks 0 0x05C) 16) pLks 4, 0)

/-! ### Debug access (R518, R519) -/

/-- Debug access ends after the token's duration. -/
def dbgExpires (v : Vol) : Vol :=
  if rg v (aLks 2 0x054) = 0 then v
  else rgSet (wallTo v v.lks.dbgDone) (aLks 2 0x054) 0

/-- A new challenge (R519). -/
def newChallenge (v : Vol) : Vol := { setLks v (fun l => { l with chal := v.free }) with free := v.free + 4 }

/-! ### Registers (R526-R528) -/

/-- Seconds from now to a time, rounded up. -/
def secsTo (v : Vol) (t : Nat) : Nat := (t - wall v + 399999999) / 400000000

/-- A command starts (R526): codes without a command are answered at the end. A RESUME counts from its write (R509). -/
def lksWrite (v : Vol) (page off : Nat) (via : Via) (w : Word) : Vol :=
  let p := pLks + page
  if page = 0 ∧ off = 0x040 then
    if rb v (aLks 0 0x054) 31 then setFault v pLks 6
    else
      let v := regWrite v p off via w
      let v := rbSet v (aLks 0 0x054) 31 true
      let op := rf v (aLks 0 0x040) 4 0
      let go := op == 3 && v.lks.pauseAt.isSome && v.lks.switchTo.isNone
      setLks v fun l => { l with
        op := op, cmdChal := l.chal, tokBuf := false, glitched := false, early := go, ownResume := go && !l.resumeDue
        resumeDue := l.resumeDue || go
        idq := if op = 6 then l.idq ++ [64] else l.idq }
  else if page = 0 ∧ off = 0x094 then
    let was := rf v (aLks 0 0x094) 1 0 != 0
    let v := regWrite v p off via w
    let v := if via != .setBits && bit w 4 then setSysP v fun s => { s with coldTamp := false } else v
    if was then v else setLks v fun l => { l with meshN := 0, meshAt := wall v, meshOff := false }
  else regWrite v p off via w

/-- LKS as read (R527, R528). -/
def lksView (nv : Nv) (v : Vol) (page off : Nat) (w : Word) : Word :=
  let n (x : Nat) : Word := BitVec.ofNat 32 x
  if page = 0 then
    if off = 0x00C then w ||| n (b2n v.lks.pauseAt.isSome * 2 + b2n v.lks.session)
    else if off = 0x058 then n (lcCode nv)
    else if off = 0x05C then w ||| n (b2n (planeVerified v 1) * 4 + b2n (planeVerified v 0) * 2 + activePlane v)
    else if off = 0x064 then n (if probRuns v then secsTo v v.lks.probEnd % 65536 else 0)
    else if off = 0x068 ∨ off = 0x06C then
      (let p := (off - 0x068) / 4
       n (if planeVerified v p && lifeCycle nv != 0 then planeSv nv p % 2048 else 0))
    else if 0x070 ≤ off ∧ off < 0x090 then n (counterOf nv ((off - 0x070) / 4))
    else if off = 0x090 then
      n ((List.range 3).map fun s => b2n (rootFilled nv s) * 2 ^ s + b2n (rootRevoked nv s) * 2 ^ (4 + s)).sum
    else w
  else if page = 1 then
    if off = 0x300 then n ((List.range 8).map fun s => b2n (!(slotOf v s).isEmpty) * 2 ^ s).sum else w
  else if page = 2 then
    if 0x040 ≤ off ∧ off < 0x050 then Config.trng (v.lks.chal + (off - 0x040) / 4)
    else if off = 0x050 then n (if rg v (aLks 2 0x054) = 0 then 0 else secsTo v v.lks.dbgDone % 2 ^ 17)
    else w
  else w

end Sys2Proof.Machine
end

