-- ==== Sys2Proof/Machine/Bus.lean ====
section
/-! DEFINITION. The bus: what a register page does with a read or a write (R1-R16), the address map (R34-R36), the
responses of the matrix (R276-R287), and the DMA engines (R290-R294). -/

namespace Sys2Proof.Machine

/-! ### Pages of the host interfaces (R582, R584, R590, R595) -/

def svcSet (v : Vol) (n : Nat) : Vol := rfSet v (ra pSvc 0x040) 2 0 n

/-- The pull-up follows CTL.EN, VBUS and the life cycle (R582, R584): the port attaches or detaches. -/
def svcPull (nv : Nv) (v : Vol) : Vol :=
  let on := ready v pSvc && rb v (aCtl pSvc) 0 && v.svc.vbus && lifeCycle nv != 4
  if on then (if svcState v = 0 then svcSet v 1 else v)
  else if svcState v = 0 then v
  else raiseEvent (rgSet { v with svc := { Svc.reset with vbus := v.svc.vbus } } (ra pSvc 0x040) 0) pSvc 2

def svcWrite (nv : Nv) (v : Vol) (off : Nat) (via : Via) (w : Word) : Vol :=
  let v := regWrite v pSvc off via w
  if off = 0x008 then svcPull nv v else v

/-- DBG_AUTH starts DBGAUTH on DBG_TOKBUF (R590); while one runs the write is ignored, while Locksmith runs another command
the status is BUSY (R502). -/
def dbgWrite (v : Vol) (off : Nat) (via : Via) (w : Word) : Vol :=
  if off ≠ 0x040 then regWrite v pDbg off via w
  else if via != .direct || !bit w 0 || rb v (ra pDbg 0x044) 31 then v
  else if v.lks.op ≠ 0 ∨ rb v (aLks 0 0x054) 31 then rgSet v (ra pDbg 0x044) 14
  else
    let v := rgSet (rbSet v (aLks 0 0x054) 31 true) (ra pDbg 0x044) 0x80000000
    setLks v fun l => { l with op := 15, cmdChal := l.chal, tokBuf := true, glitched := false, early := false, ownResume := false }

/-! ### DMA registers (R291, R311) -/

abbrev aDma (e c off : Nat) : Nat := ra (pDma e) (off + 0x20 * c)
def dmaIdle : DmaCh :=
  { desc := [], moved := 0, live := false, burst := false, left := 0, buf := [], rerr := 0, wait := none, stop := none }
def dmaOf (v : Vol) (e c : Nat) : DmaCh := smapGet (fun _ => dmaIdle) v.dma (8 * e + c)
def setDma (v : Vol) (e c : Nat) (d : DmaCh) : Vol := { v with dma := smapSet (fun _ => dmaIdle) v.dma (8 * e + c) d }
def dmaActive (v : Vol) (e c : Nat) : Bool := rb v (aDma e c 0x104) 0

/-- A write of a DMA register: GO starts an idle channel and stays set while it runs; ABORT stays set until the channel has
stopped. -/
def dmaWrite (v : Vol) (e off : Nat) (via : Via) (w : Word) : Vol :=
  let c := (off - 0x100) / 0x20
  if 0x100 ≤ off ∧ off < 0x200 ∧ off % 0x20 = 4 then
    let was := dmaActive v e c
    let v := regWrite v (pDma e) off via w
    if was then rbSet v (aDma e c 0x104) 0 true
    else
      let v := rbSet v (aDma e c 0x104) 2 false
      if dmaActive v e c then rgSet (setDma v e c dmaIdle) (aDma e c 0x108) 0 else v
  else regWrite v (pDma e) off via w

def dmaView (v : Vol) (e off : Nat) (w : Word) : Word :=
  if off = 0x00C then w ||| BitVec.ofNat 32 ((List.range 8).map fun c => b2n (dmaActive v e c) * 2 ^ c).sum
  else if 0x100 ≤ off ∧ off < 0x200 ∧ off % 0x20 = 8 then
    w ||| BitVec.ofNat 32 (b2n (dmaActive v e ((off - 0x100) / 0x20)) * 2 ^ 31)
  else w

/-! ### Register pages (R1-R16) -/

/-- Transactions outstanding of a master (R277, R310): a core's held access, a beat of a DMA channel and what else waits for
auto-wake; 8 at most, since the master holds its further requests. -/
def outstanding (v : Vol) (m : Nat) : Nat :=
  min 8 (v.parked.countP (fun r => r.master == m) +
    (if m < 9 then (heldOf (coreOf v m)).length
      else if m = 9 ∨ m = 10 then (List.range 8).countP fun c => (dmaOf v (m - 9) c).wait.isSome
      else 0))

/-- STAT.BUSY of the block whose first page is p (R7): the block has an operation in progress that lasts (log entry 91): a seal that
waits for its signature, a LUN at work (R444), a frame to be sent (R570, R576) among them. -/
def blockBusy (v : Vol) (p : Nat) : Bool :=
  match pageInfo p with
  | none => false
  | some inf =>
    match inf.blk with
    | .sys => (sysGoal v).isSome
    | .clk => (List.range 2).any fun j => rb v (ra pClk (0x048 + 4 * j)) 0 && !rb v (ra pClk (0x050 + 4 * j)) 0
    | .pwr => !v.sys.powering.isEmpty || !v.sys.downHeld.isEmpty
    | .rst => !v.sys.domReset.isEmpty
    | .core | .core8 => rb v (aCtl p) 6 || (coreOf v inf.inst).evecNew.isSome
    | .flc => v.flc.op != 0
    | .whs => v.whs.testing || rb v (aCtl pWhs) 1
    | .dma => (List.range 8).any (dmaActive v inf.inst)
    | .mtx => (List.range 16).any fun m => outstanding v m != 0
    | .yok => v.yok.attPh != 0
    | .ldg => v.ldg.op != 0 || v.ldg.streams.any fun s => s.2.signing.isSome
    | .nand => (List.range 8).any fun i => (List.range 4).any fun l => lunBusy v (8 * inf.inst + i) l
    | .lks0 => v.lks.op != 0 || rb v (aLks 0 0x054) 31
    | .eth => v.eth.mdio || !v.eth.txQ.isEmpty
    | .can => !(canOf v inf.inst).tx.isEmpty
    | .svc => !v.svc.diag.isEmpty
    | .hsp => v.hsp.kind != 0
    | .dbg => rb v (ra pDbg 0x044) 31
    | .tick | .tal0 | .tal1 | .tal2 | .tal3 | .mbx0 | .mbx1 | .mea | .trp | .stk0 | .stk1 | .mns | .mot | .vlv | .gio
    | .lks1 | .lks2 | .lks3 | .ptp => false

/-- Whether the internal state of the block whose first page is p is idle (R542): it has no operation in progress and runs nothing by
itself. -/
def blockIdle (v : Vol) (p : Nat) : Bool :=
  !blockBusy v p &&
    match pageInfo p with
    | none => false
    | some inf =>
      match inf.blk with
      | .tick => !v.tick.running
      | .core | .core8 => !(coreOf v inf.inst).run
      | .mea | .stk0 | .stk1 | .mot | .yok => !rb v (aCtl p) 0
      | .whs => !rb v (aCtl p) 0 && !rb v (aCtl p) 2
      | .mns => rf v (ra pMns 0x040) 2 0 == 0
      | .sys | .clk | .pwr | .rst | .tal0 | .tal1 | .tal2 | .tal3 | .mbx0 | .mbx1 | .flc | .mtx | .dma | .trp | .vlv | .gio | .ldg
      | .nand | .lks0 | .lks1 | .lks2 | .lks3 | .eth | .ptp | .can | .hsp | .svc | .dbg => true

/-- EV_RAW of a page (R8): the events that last while a condition holds; an event that is an instant reads 0 (log entry
92). -/
def evRaw (v : Vol) (inf : PageInfo) : Word :=
  match inf.blk with
  | .trp => rg v (ra pTrp 0x0A0)
  | .mea => (smapGet (fun _ => Mea.reset) v.mea inf.inst).lines.setWidth 32
  | .pwr => BitVec.ofNat 32 (b2n (rf v (ra pPwr 0x080) 2 0 != 0)
      + 2 * b2n ((List.range 3).any fun i => rg v (ra pPwr (0x064 + 4 * i)) != 0) + 4 * b2n (rb v (ra pPwr 0x080) 3))
  | .sys => BitVec.ofNat 32 (4 * b2n (!v.sys.tempArmed))
  | .dma => BitVec.ofNat 32 (b2n (rg v (ra (pDma inf.inst) 0x040) != 0) + 2 * b2n (rg v (ra (pDma inf.inst) 0x044) != 0))
  | .mbx0 => BitVec.ofNat 32 (b2n (rg v (ra pMbx 0x340) != 0))
  | _ => 0

/-- What the register at an offset below 0x400 reads, but for the header words that every page shares. -/
def blockView (nv : Nv) (v : Vol) (inf : PageInfo) (p off : Nat) (w : Word) : Word :=
  match inf.blk with
  | .sys => sysPageView v off w
  | .clk => clkView v off w
  | .pwr => pwrView v off w
  | .rst => rstView v off w
  | .tick => tickView v off w
  | .tal0 | .tal1 | .tal2 | .tal3 => talView v p off w
  | .core | .core8 => if off = 0x00C then coreStatView v inf.inst w else w
  | .whs => whsView v off w
  | .mtx =>
    if off = 0x0A0 ∨ off = 0x0A4 then
      (let b := 8 * ((off - 0x0A0) / 4)
       BitVec.ofNat 32 ((List.range 8).map fun i => outstanding v (b + i) % 16 * 2 ^ (4 * i)).sum)
    else w
  | .dma => dmaView v inf.inst off w
  | .mea => meaView v inf.inst off w
  | .trp => trpView v off w
  | .stk0 => stkView v off w
  | .mot => if off = 0x070 then motCount v inf.inst else w
  | .gio => gioView v off
  | .yok => yokView v off w
  | .ldg => ldgView v off w
  | .nand => nandView v p off w
  | .lks0 | .lks1 | .lks2 | .lks3 => lksView nv v inf.inst off w
  | .eth => ethView v off
  | .ptp => ptpView v off
  | .can => if off = 0x04C ∨ off = 0x050 ∨ off = 0x058 then canView v inf.inst off else w
  | .svc => if off = 0x048 then Config.usbIdWord (otpBytes nv 0 128) else w
  | .stk1 => stk1View v off w
  | .mbx0 | .mbx1 | .flc | .mns | .vlv | .hsp | .dbg => w

/-- A register as read (R3, R6, R7): a staging register reads with its tag. -/
def pageRead (nv : Nv) (v : Vol) (inf : PageInfo) (p off : Nat) : TWord :=
  if (stageChan (ra p off)).isSome then stageRead v (ra p off)
  else
    match specAt p off with
    | none => ⟨if off = 0x010 then evRaw v inf else 0, Tag.raw⟩
    | some _ =>
      let b := blockPage p
      if off = 0x024 then ⟨if gateForced v inf.dom then 3 else rg v (aGate b), Tag.raw⟩
      else
        let w := blockView nv v inf p off (rg v (ra p off))
        if off ≠ 0x00C then ⟨w, Tag.raw⟩
        else
          let w := if p = b then w else rg v (aStat b) &&& 0x40000000
          ⟨w ||| BitVec.ofNat 32 (b2n (ready v b) * 2 ^ 31 + b2n (blockBusy v b) * 2 ^ 29), Tag.raw⟩

/-- What a read does beside answering. -/
def pageOnRead (v : Vol) (inf : PageInfo) (off : Nat) : Vol :=
  match inf.blk with
  | .tick => tickOnRead v off
  | .mea => meaOnRead v inf.inst off
  | .yok => yokOnRead v off
  | .ldg => ldgOnRead v off
  | .eth => ethOnRead v off
  | .ptp => ptpOnRead v off
  | .can => canOnRead v inf.inst off
  | .sys | .clk | .pwr | .rst | .tal0 | .tal1 | .tal2 | .tal3 | .mbx0 | .mbx1 | .core | .core8 | .flc | .whs | .mtx | .dma
  | .trp | .stk0 | .stk1 | .mns | .mot | .vlv | .gio | .nand | .lks0 | .lks1 | .lks2 | .lks3 | .hsp | .svc | .dbg => v

/-- A block's own part of a register write. -/
def blockWrite (nv : Nv) (v : Vol) (inf : PageInfo) (m p off : Nat) (via : Via) (w : Word) : Vol :=
  match inf.blk with
  | .sys => sysPageWrite v off via w
  | .clk => clkWrite v off via w
  | .pwr => pwrWrite v off via w
  | .rst => rstWrite v off via w
  | .tick => tickWrite v off via w
  | .tal0 | .tal1 | .tal2 | .tal3 => talWrite v p off via w
  | .mbx0 | .mbx1 => mbxWrite v m p off via w
  | .core | .core8 =>
    let old := rg v (ra p off)
    let v := regWrite v p off via w
    if off = 0x008 then coreCtlWrite v inf.inst old else v
  | .flc => flcWrite nv v off via w
  | .whs => whsWrite v off via w
  | .dma => dmaWrite v inf.inst off via w
  | .mea => meaWrite v inf.inst off via w
  | .trp => trpWrite v off via w
  | .stk0 => stkWrite v off via w
  | .stk1 => stk1Write v off via w
  | .mns => mnsWrite v off via w
  | .mot | .vlv => outApply (regWrite v p off via w)
  | .gio => if off = 0x008 then outApply (gioWrite v off via w) else gioWrite v off via w
  | .yok => yokWrite v off via w
  | .ldg => ldgWrite nv v none off via w
  | .lks0 | .lks1 | .lks2 | .lks3 => lksWrite v inf.inst off via w
  | .eth => ethWrite v off via w
  | .ptp => ptpLossNoted v (ptpWrite v off via w)
  | .can => canWrite v inf.inst off via w
  | .svc => svcWrite nv v off via w
  | .dbg => dbgWrite v off via w
  | .mtx | .nand | .hsp => regWrite v p off via w

/-- A register write by master m at an offset below 0x400 (R3, R4, R7, R8, R14). -/
def pageWrite (nv : Nv) (v : Vol) (inf : PageInfo) (m p off : Nat) (via : Via) (w : TWord) : Vol :=
  if (stageChan (ra p off)).isSome then stageWrite v m (ra p off) via w
  else if off = 0x01C then
    (if via == .direct then raiseEvents v p ((List.range 32).filter fun i => bit w.data i && (blkEvents inf.blk).testBit i) else v)
  else if off = 0x008 ∧ bit w.data 31 ∧ via ≠ .clearBits then
    (let b := blockPage p
     if b = pLks || (b = pTrp && (rb v (ra pTrp 0x0B0) 0 || rf v (ra pTrp 0x0A0) 15 0 != 0)) then
        softReset (blockWrite nv v inf m p off via w.data) b
      else softReset v b)
  else if (specAt p off).isNone then v
  else if off = 0x00C ∧ p ≠ blockPage p then regWrite v (blockPage p) off via (w.data &&& 0x40000000)
  else blockWrite nv v inf m p off via w.data

/-- How an offset of a page reaches a register (R1); none in the reserved quarter. -/
def offVia (o : Nat) : Option (Nat × Via) :=
  if o < 0x400 then some (o, .direct)
  else if o < 0x800 then some (o - 0x400, .setBits)
  else if o < 0xC00 then some (o - 0x800, .clearBits)
  else none

/-! ### The matrix (R276-R287) -/

/-- A request that the default target answers (R283). -/
def decodeError (v : Vol) (r : Req) : Vol :=
  let v := setFault v pMtx 1
  let v := if rb v (ra pMtx 0x08C) 31 then v
    else rgSet (rgSet v (ra pMtx 0x08C) (BitVec.ofNat 32 (2 ^ 31 + r.id % 16 * 256 + r.master))) (ra pMtx 0x090) (BitVec.ofNat 32 r.addr)
  answer (raiseEvent v pMtx 1) 1 TWord.zero

/-- A request that times out is recorded (R282). -/
def timeoutNoted (v : Vol) (m id a : Nat) : Vol :=
  let v := setFault v pMtx 0
  let v := if rb v (ra pMtx 0x084) 31 then v
    else rgSet (rgSet v (ra pMtx 0x084) (BitVec.ofNat 32 (2 ^ 31 + portOf a % 32 * 65536 + id % 16 * 256 + m))) (ra pMtx 0x088)
      (BitVec.ofNat 32 a)
  raiseEvent v pMtx 0

/-- A request to a domain that is down (R285): it waits while the domain wakes, or is answered OFF. The answer tells whether
the request waits. -/
def toDown (v : Vol) (d : Nat) : Vol × Bool :=
  if autoWake v d then (startPower v d, true) else (answer v 4 TWord.zero, false)

def sizeBytes : Size → Nat
  | .byte => 1 | .half => 2 | .word => 4

/-- The checks of a register page in the order of R10, then the access. -/
def pageAccess (nv : Nv) (v : Vol) (inf : PageInfo) (p : Nat) (r : Req) : Vol × Bool :=
  let o := r.addr % 0x1000
  if !domUp v inf.dom then toDown v inf.dom
  else if r.size ≠ .word ∨ r.addr % 4 ≠ 0 then (answer v 2 TWord.zero, false)
  else
    let v := gateOpened v p
    match offVia o with
    | none => if ready v (blockPage p) then (answer v 0 TWord.zero, false) else (answer v 3 TWord.zero, false)
    | some (off, via) =>
      if !ready v (blockPage p) then
        (if !r.write && (off = 0 || off = 0x00C) then (answer v 0 (pageRead nv v inf p off), false) else (answer v 3 TWord.zero, false))
      else if r.write then (answer (pageWrite nv v inf r.master p off via r.data) 0 TWord.zero, false)
      else
        let w := pageRead nv v inf p off
        (answer (pageOnRead v inf off) 0 (if via == .direct then w else ⟨w.data, Tag.raw⟩), false)

/-- An SRAM request (R220, R252-R256, R266): its data sits in the low bits. A processor's takes its turn at a shared bank. -/
def sramAccess (v : Vol) (pl : Place) (r : Req) : Vol × Bool :=
  let n := sizeBytes r.size
  if wiping v pl.dom then (answer v 3 TWord.zero, false)
  else if !domUp v pl.dom then toDown v pl.dom
  else
  let v := if r.master < 9 then (sharedTurn v r.master pl).1 else v
  if r.write then
    match sramStore v r.master n r.addr pl (byteMask (r.addr % 4) n) ⟨r.data.data <<< (8 * (r.addr % 4)), r.data.tag⟩ with
    | (some v, _) => (answer v 0 TWord.zero, false)
    | (none, v) => (answer v 2 TWord.zero, false)
  else
    match sramLoad v r.master n r.addr pl with
    | (v, some w) => (answer v 0 (pickBytes w (r.addr % 4) n false), false)
    | (v, none) => (answer v 2 TWord.zero, false)

/-- A request to flash, config flash or OTP (R32, R35, R241): writes answer SLAVE whatever the domain. -/
def flashAccess (nv : Nv) (v : Vol) (r : Req) : Vol × Bool :=
  if r.write then (answer v 2 TWord.zero, false)
  else if !domUp v (flashDom r.addr) then toDown v (flashDom r.addr)
  else
    match flashRead nv v r.master r.addr with
    | (v, some w) => (answer v 0 (pickBytes ⟨w, Tag.raw⟩ (r.addr % 4) (sizeBytes r.size) false), false)
    | (v, none) => (answer v 2 TWord.zero, false)

/-- Where a request leads (R34-R36, R276): the response, and whether it waits for auto-wake instead. The wide checks of the
matrix come first but at a register page, whose own order R10 gives. -/
def route (nv : Nv) (v : Vol) (r : Req) : Vol × Bool :=
  let p := (r.addr - 0x40000000) / 0x1000
  match (if 0x40000000 ≤ r.addr then pageInfo p else none) with
  | some inf => pageAccess nv v inf p r
  | none =>
    if 4 < r.addr % 4 + sizeBytes r.size then (answer v 2 TWord.zero, false)
    else
      match place r.addr with
      | some pl => sramAccess v pl r
      | none => if r.addr < 0x1084000 then flashAccess nv v r else (decodeError v r, false)

/-- Whether the dividers in force are in a ratio of R536. -/
def ratioOk (v : Vol) : Bool :=
  if rb v (aStat pClk) 4 then true
  else
    let warm := v.sys.mode == .warm
    let b := if warm then 16 else 0
    let c := fld v.sys.divs (b + 1) b + 1
    let m := 2 * (fld v.sys.divs (b + 5) (b + 4) + 1)
    let p := 4 * (fld v.sys.divs (b + 9) (b + 8) + 1)
    (p == 4 * c && p == 2 * m) || (m == c && p == 2 * c) || (warm && m == 2 * c && p == m)

/-- One request. In COLD and during the reset sequence the part answers RESET; at a ratio that R536 forbids a request may end in
TIMEOUT, a register write may land twice or not at all, and a response may be lost or that of the request before be taken again (log
entry 13). -/
def busBy (act : Vol → Vol × Bool) (v : Vol) (r : Req) : Vol × Bool :=
  if v.sys.mode == .cold || v.sys.mode == .reset then (answer v 3 TWord.zero, false)
  else if ratioOk v then act v
  else
    let f := v.free
    let old := v.ans
    let v := nextFree v
    let late (v : Vol) : Vol × Bool := (answer (timeoutNoted v r.master r.id r.addr) 5 TWord.zero, false)
    let one (v : Vol) : Vol × Bool :=
      if !r.write || decide (r.addr < 0x40000000) then act v
      else
        let n := Config.handshakeLandings f
        if n = 0 then (answer v 0 TWord.zero, false)
        else if n = 1 then act v
        else
          match act v with
          | (v, true) => (v, true)
          | (v, false) => act v
    if Config.handshakeTimeout f then late v
    else
      match one v with
      | (v, true) => (v, true)
      | (v, false) =>
        if Config.handshakeResponse f = 1 then ({ v with ans := old }, false)
        else if Config.handshakeResponse f = 2 then late v
        else (v, false)

abbrev busOne (nv : Nv) (v : Vol) (r : Req) : Vol × Bool := busBy (fun v => route nv v r) v r

/-! ### Waiting and arbitration (R258, R259, R277, R278, R282, R628) -/

/-- What arbitrates at an address (R258, R278): an SRAM by its domain, else the port. -/
def arbKey (a : Nat) : Nat :=
  match place a with
  | some p => 100 + p.dom
  | none => portOf a

/-- The rotation that a request takes part in: at an SRAM the processors have one of their own (R258, R259). -/
def arbSlot (r : Req) : Nat := arbKey r.addr + if (place r.addr).isSome && decide (9 ≤ r.master) then 200 else 0

/-- A request is granted (R38, R259, R278): its arbiter's rotation goes on behind it, and the rotation of master 15's streams. The
rotation of the processors at a shared bank went on with their access; an access that has reset the part leaves the rotations reset. -/
def noteGrant (v : Vol) (r : Req) : Vol :=
  let note (v : Vol) (key n : Nat) : Vol := { v with mtx := { v.mtx with winner := smapSet (fun _ => 0) v.mtx.winner key n } }
  let v := if r.master = 15 ∧ v.sys.mode ≠ .reset then note v 500 (r.id % 3 + 1) else v
  if v.sys.mode == .reset || r.master < 9 && (match place r.addr with | some p => decide (81 ≤ p.dom) || p.dom == 10 + r.master | none => false) then v
  else note v (arbSlot r) (r.master + 1)

/-- The rank of a waiting request at its arbiter, the higher first (R37, R258, R278): at a port of register pages its QoS; at an
SRAM the owner, then in DROP the drop engines, then the processors, then the others by QoS. -/
def arbRank (v : Vol) (r : Req) : Nat :=
  let q := rf v (ra pMtx (0x040 + 4 * r.master)) 3 0
  match place r.addr with
  | some p =>
    if p.dom = 10 + r.master ∧ r.master < 9 then 34
    else if p.dom < 18 ∧ v.tick.inDrop ∧ (r.master = 11 ∨ r.master = 14) then 33
    else if r.master < 9 then 32
    else q
  | none => if portOf r.addr = 0 then 0 else q

/-- How far a master stands behind the arbiter's last winner (R259, R278). -/
def arbTurn (v : Vol) (r : Req) : Nat :=
  match place r.addr with
  | some p =>
    if r.master < 9 then
      bankTurn (if p.dom < 81 then smapGet (fun _ => 0) v.mtx.winner (arbSlot r) else (bankNow v (p.dom - 81)).1) r.master
    else (r.master + 16 - smapGet (fun _ => 0) v.mtx.winner (arbSlot r)) % 16
  | none => (r.master + 16 - smapGet (fun _ => 0) v.mtx.winner (arbSlot r)) % 16

/-- How far a stream of master 15 stands behind the one granted last (R38). -/
def streamTurn (v : Vol) (id : Nat) : Nat := (id + 3 - smapGet (fun _ => 0) v.mtx.winner 500 % 3) % 3

/-- Whether request a is granted before b, which came first, at their arbiter; port 0 serves in order of arrival (R241). The streams
of master 15 take turns (R38). -/
def arbBefore (v : Vol) (a b : Req) : Bool :=
  if a.master = 15 ∧ b.master = 15 then decide (streamTurn v a.id < streamTurn v b.id)
  else decide (arbRank v b < arbRank v a)
    || (arbRank v a == arbRank v b && portOf a.addr != 0 && decide (arbTurn v a < arbTurn v b))

/-- Whether a request stays on the master's side (R277): behind an earlier one of the same master and ID, which no processor
has (R628), or behind eight outstanding ones. -/
def heldBack (v : Vol) (r : Req) : Bool :=
  (decide (9 ≤ r.master) && v.parked.any fun q => q.master == r.master && q.id == r.id) || decide (8 ≤ outstanding v r.master)

/-- The ID of a master's own transactions when no engine chooses it (R628): a processor takes the next value of its counter that
no outstanding transaction of it has. -/
def masterId (v : Vol) (m : Nat) : Nat :=
  if m < 9 then
    let b := (coreOf v m).busId
    (((List.range 16).map fun i => (b + i) % 16).find? fun i => !(v.parked.any fun q => q.master == m && q.id == i)).getD b
  else if m = 14 then 8 else 0

/-- A request whose count has reached MTX_TMO answers TIMEOUT (R282); whether a write that the target had accepted completes is
free (log entry 93). -/
def busLateBy (act : Vol → Vol) (v : Vol) (write : Bool) (t : Nat × Nat × Nat) : Vol :=
  let v := { v with mtx := { v.mtx with late := v.mtx.late.erase t } }
  if write then
    let f := v.free
    let v := nextFree v
    answer (if Config.lateWrite f then act v else v) 5 TWord.zero
  else answer v 5 TWord.zero
def busLate (nv : Nv) (v : Vol) (r : Req) : Vol := busLateBy (fun v => (busOne nv v r).1) v r.write (r.master, r.id, r.addr)

/-- Whether the target of an address can take a request (R285): its domain is up and its block READY. -/
def targetUp (v : Vol) (a : Nat) : Bool :=
  domUp v (addrDom a) && (decide (a < 0x40000000) || ready v (blockPage ((a - 0x40000000) / 0x1000)))

/-- One request of a master: held back, late, or performed. -/
def busTry (nv : Nv) (v : Vol) (r : Req) : Vol × Bool :=
  if heldBack v r then (v, true)
  else if v.mtx.late.contains (r.master, r.id, r.addr) then (busLate nv v r, false)
  else
    match busOne nv v r with
    | (v, true) => (v, true)
    | (v, false) => (noteGrant v r, false)

/-! ### DMA engines (R290-R294) -/

/-- The piece of flash that one read checks as a whole (R241, R629): a line of a plane, a unit of config flash or OTP. -/
def flashPiece (a : Nat) : Nat := if a < 0x1000000 then a / 128 else a / 16

/-- A beat of a burst that goes on in the piece of flash of the beat before: the piece was read, and its correction counted, with that
one (R241, R268, R629). -/
def sameRead (before v : Vol) (a : Nat) (goesOn : Bool) : Vol :=
  if goesOn && decide (a < 0x1084000) then rgSet v (ra pFlc 0x04C) (rg before (ra pFlc 0x04C)) else v

/-- Read n words from an address, one beat each (R276): the words, and the first response other than OKAY. The last answer
tells whether a beat waits for auto-wake. `prev` is the address of the beat before in the burst. -/
def beatsFrom (nv : Nv) (m id : Nat) (sz : Size) (fixed : Bool) : Option Nat → Nat → Nat → Vol → Vol × List Word × Nat × Bool
  | _, 0, _, v => (v, [], 0, false)
  | prev, n + 1, a, v =>
    match busTry nv v ⟨m, id, false, sz, a, TWord.zero⟩ with
    | (v, true) => (v, [], 0, true)
    | (v', false) =>
      if v'.ans.code ≠ 0 then (v', [], v'.ans.code, false)
      else
        let w := v'.ans.data.data
        let v' := sameRead v v' a (prev.any fun b => flashPiece b == flashPiece a)
        let r := beatsFrom nv m id sz fixed (if sz == .word && !fixed then some a else none) n
          (if fixed then a else (a + sizeBytes sz) % 2 ^ 32) v'
        (r.1, w :: r.2.1, r.2.2.1, r.2.2.2)
def beatsRead (nv : Nv) (m id : Nat) (sz : Size) (fixed : Bool) (n a : Nat) (v : Vol) : Vol × List Word × Nat × Bool :=
  beatsFrom nv m id sz fixed none n a v

/-- Write words to an address: how many were written, and the first response other than OKAY. -/
def beatsWrite (nv : Nv) (m id : Nat) (sz : Size) (fixed : Bool) : List Word → Nat → Vol → Vol × Nat × Nat × Bool
  | [], _, v => (v, 0, 0, false)
  | w :: rest, a, v =>
    match busTry nv v ⟨m, id, true, sz, a, ⟨w, Tag.raw⟩⟩ with
    | (v, true) => (v, 0, 0, true)
    | (v, false) =>
      if v.ans.code ≠ 0 then (v, 0, v.ans.code, false)
      else
        let r := beatsWrite nv m id sz fixed rest (if fixed then a else (a + sizeBytes sz) % 2 ^ 32) v
        (r.1, r.2.1 + 1, r.2.2.1, r.2.2.2)

/-- Fields of a descriptor (R290). -/
def dLen (d : List Word) : Nat := fld (d.getD 2 0) 19 0
def dSize (d : List Word) : Size := if fld (d.getD 3 0) 4 3 = 0 then .byte else if fld (d.getD 3 0) 4 3 = 1 then .half else .word

/-- Whether a descriptor is bad (R290, R291). -/
def dBad (d : List Word) : Bool :=
  let c := d.getD 3 0
  let n := 2 ^ fld c 4 3
  dLen d == 0 || fld (d.getD 2 0) 31 20 != 0 || fld c 31 16 != 0 || fld c 13 12 != 0 || bit c 0 || decide (8 < fld c 11 8)
    || decide (4 < fld c 7 5) || fld c 4 3 == 3 || fld (d.getD 4 0) 4 0 != 0 || dLen d % n != 0
    || (d.getD 0 0).toNat % n != 0 || (d.getD 1 0).toNat % n != 0

/-- A channel has stopped with an error (R293): its status, DMA_ERR and event 1. -/
def dmaStopped (v : Vol) (e c resp stage : Nat) : Vol :=
  let d := dmaOf v e c
  let st : Nat := 2 ^ 30 + resp % 8 * 2 ^ 27 + stage * 2 ^ 24
  let v := rgSet v (aDma e c 0x108) (BitVec.ofNat 32 (st + (dLen d.desc - d.moved) % 2 ^ 20))
  let v := rgSet v (aDma e c 0x104) (rg v (aDma e c 0x104) &&& 2)
  raiseEvent (rgOr (setDma v e c dmaIdle) (ra (pDma e) 0x044) (bitWord c)) (pDma e) 1

/-- A channel stops with an error (R293): word 5 of its descriptor, but after a failed descriptor read or write-back; a write
that waits for its domain keeps the channel until it is made. -/
def dmaStop (nv : Nv) (v : Vol) (e c resp stage : Nat) : Vol :=
  let d := dmaOf v e c
  let w := BitVec.ofNat 32 (2 ^ 30 + resp % 8 * 2 ^ 27 + stage * 2 ^ 24 + d.moved % 2 ^ 20)
  let a := (rg v (aDma e c 0x100)).toNat + 20
  if stage = 0 ∨ stage = 3 then dmaStopped v e c resp stage
  else
    match beatsWrite nv (9 + e) c .word false [w] a (setDma v e c { d with wait := none, stop := none }) with
    | (v, _, _, true) => setDma v e c { d with wait := some (a, stage), stop := some (resp, stage) }
    | (v, _, _, false) => dmaStopped v e c resp stage

/-- A channel runs: its engine is ready and enabled, GO is set and it is not stopping. -/
def dmaRuns (v : Vol) (e c : Nat) : Bool :=
  ready v (pDma e) && rb v (aCtl (pDma e)) 0 && dmaActive v e c && (dmaOf v e c).stop.isNone

/-- Whether request line n of a controller is asserted (R290, R569, R570, R576): 0 needs none; a received Ethernet frame is
complete; the Ethernet frame being written lacks bytes; four words of CAN records can move. The spec gives HSP's lines no
meaning: they are free (log entry 94). -/
def reqLine (v : Vol) (n : Nat) : Bool :=
  let can (e : Nat) := canOf v e
  if n = 0 then true
  else if n = 1 then !v.eth.rx.isEmpty
  else if n = 2 then decide (v.eth.tx.length < rf v (ra pEth 0x05C) 10 0)
  else if n = 3 ∨ n = 5 then decide (4 ≤ 20 * (can ((n - 3) / 2)).rx.length - (can ((n - 3) / 2)).rxPos)
  else if n = 4 ∨ n = 6 then
    let c := can ((n - 4) / 2)
    decide (4 + c.txPart.length ≤ 20 * (8 - c.tx.length))
  else Config.hspRequest v.free

/-- Whether the engine may grant a channel its next burst (R291, R292): it runs, waits for no domain and, at a burst of data,
sees its request line. -/
def dmaReady (v : Vol) (e c : Nat) : Bool :=
  let d := dmaOf v e c
  dmaRuns v e c && !d.burst && (match d.wait with | some (a, _) => targetUp v a | none => true)
    && (!d.live || reqLine v (fld (d.desc.getD 3 0) 11 8))

/-- The channel that an engine grants (R259, R292): those with PRI first, within a class in rotation. -/
def dmaGrant (v : Vol) (e : Nat) : Option Nat :=
  let rs := (List.range 8).filter (dmaReady v e)
  let hi := rs.filter fun c => rb v (aDma e c 0x104) 1
  let cls := if hi.isEmpty then 2 * e else 2 * e + 1
  let last := smapGet (fun _ => 0) v.mtx.dmaLast cls
  let turn (c : Nat) : Nat := (c + 8 - last) % 8
  (if hi.isEmpty then rs else hi).foldl (fun best c =>
    match best with
    | none => some c
    | some b => if turn c < turn b then some c else best) none

/-- A grant moves the rotation of its class on (R292). -/
def dmaGranted (v : Vol) (e c : Nat) : Vol :=
  let cls := if rb v (aDma e c 0x104) 1 then 2 * e + 1 else 2 * e
  { v with mtx := { v.mtx with dmaLast := smapSet (fun _ => 0) v.mtx.dmaLast cls (c + 1) } }

/-- A channel reads and checks its next descriptor when the engine grants it (R291 steps 1 and 2). -/
def dmaFetch (nv : Nv) (v : Vol) (e c : Nat) : Vol :=
  if (dmaOf v e c).live || dmaGrant v e != some c then v
  else
    let a := (rg v (aDma e c 0x100)).toNat
    match beatsRead nv (9 + e) c .word false 8 a (setDma (dmaGranted v e c) e c dmaIdle) with
    | (v, ws, _, true) => setDma v e c { dmaIdle with wait := some (a + 4 * ws.length, 0) }
    | (v, ws, resp, false) =>
      if resp ≠ 0 then dmaStop nv v e c resp 0
      else
        let v := setDma v e c { dmaIdle with desc := ws, live := true }
        if dBad ws then dmaStop nv v e c 0 4
        else
          let v := rgSet (rgSet v (aDma e c 0x10C) (ws.getD 0 0)) (aDma e c 0x110) (ws.getD 1 0)
          rgSet v (aDma e c 0x108) (BitVec.ofNat 32 (dLen ws))

/-- The descriptor is complete (R291 steps 4 to 6). -/
def dmaFinish (nv : Nv) (v : Vol) (e c : Nat) : Vol :=
  let d := dmaOf v e c
  let a := (rg v (aDma e c 0x100)).toNat
  let words := [BitVec.ofNat 32 (2 ^ 31 + dLen d.desc), v.tick.number.setWidth 32, 0]
  match beatsWrite nv (9 + e) c .word false words (a + 20) v with
  | (v, k, _, true) => setDma v e c { d with burst := true, wait := some (a + 20 + 4 * k, 3) }
  | (v, _, resp, false) =>
    if resp ≠ 0 then dmaStop nv v e c resp 3
    else
      let ctl := d.desc.getD 3 0
      let v := rfSet v (aDma e c 0x114) 15 0 (rf v (aDma e c 0x114) 15 0 + 1)
      let v := if bit ctl 14 then raiseEvent (rgOr v (ra (pDma e) 0x040) (bitWord c)) (pDma e) 0 else v
      let v := setDma v e c dmaIdle
      if bit ctl 15 then rgSet v (aDma e c 0x104) (rg v (aDma e c 0x104) &&& 2)
      else rgSet v (aDma e c 0x100) (d.desc.getD 4 0)

/-- A burst goes on in a channel's run d (R289, R291 step 3): its elements are read, then those read are written; a beat that
waits for its domain leaves what has been read with the channel. The last burst completes the descriptor. -/
def dmaMove (nv : Nv) (v : Vol) (e c : Nat) (d : DmaCh) : Vol :=
  let v := setDma v e c d
  let ctl := d.desc.getD 3 0
  let sz := dSize d.desc
  let n := sizeBytes sz
  let src := (rg v (aDma e c 0x10C)).toNat
  let dst := (rg v (aDma e c 0x110)).toNat
  let from' := if bit ctl 1 then src else (src + n * d.buf.length) % 2 ^ 32
  match beatsRead nv (9 + e) c sz (bit ctl 1) d.left from' v with
  | (v, ws, _, true) =>
    setDma v e c { d with buf := d.buf ++ ws, left := d.left - ws.length
                          wait := some (if bit ctl 1 then src else (from' + n * ws.length) % 2 ^ 32, 1) }
  | (v, ws, rr, false) =>
    let rr := if rr = 0 then d.rerr else rr
    let buf := d.buf ++ ws
    match beatsWrite nv (9 + e) c sz (bit ctl 2) buf dst v with
    | (v, k, wr, waits) =>
      let d := { d with buf := buf.drop k, left := 0, rerr := rr, moved := d.moved + n * k, burst := waits }
      let v := setDma v e c d
      let v := if bit ctl 1 then v else rgSet v (aDma e c 0x10C) (BitVec.ofNat 32 (src + n * k))
      let v := if bit ctl 2 then v else rgSet v (aDma e c 0x110) (BitVec.ofNat 32 (dst + n * k))
      let v := rgSet v (aDma e c 0x108) (BitVec.ofNat 32 (dLen d.desc - d.moved))
      if waits then setDma v e c { d with wait := some (if bit ctl 2 then dst else (dst + n * k) % 2 ^ 32, 2) }
      else if wr ≠ 0 then dmaStop nv v e c wr 2
      else if rr ≠ 0 then dmaStop nv v e c rr 1
      else if d.moved = dLen d.desc then dmaFinish nv v e c
      else v

/-- One burst of a channel (R291 step 3, R292): one in progress goes on; else the engine grants the channel its next one. -/
def dmaBurst (nv : Nv) (v : Vol) (e c : Nat) : Vol :=
  let d := dmaOf v e c
  if !dmaRuns v e c || !d.live then v
  else if d.burst then
    if (match d.wait with | some (a, _) => targetUp v a | none => true) then dmaMove nv v e c { d with wait := none } else v
  else if dmaGrant v e != some c then v
  else
    let ctl := d.desc.getD 3 0
    let count := min (2 ^ fld ctl 7 5) ((dLen d.desc - d.moved) / sizeBytes (dSize d.desc))
    let v := if 7 ≤ fld ctl 11 8 then nextFree v else v
    dmaMove nv (dmaGranted v e c) e c { d with burst := true, left := count, buf := [], rerr := 0, wait := none }

/-- Channels whose ABORT is set stop (R293), and those go on stopping whose descriptor has come up. -/
def dmaSettle (nv : Nv) (v : Vol) : Vol :=
  (List.range 16).foldl (fun v i =>
    if !dmaActive v (i / 8) (i % 8) then v
    else
      match (dmaOf v (i / 8) (i % 8)).stop with
      | some (resp, stage) =>
        if (match (dmaOf v (i / 8) (i % 8)).wait with | some (a, _) => targetUp v a | none => true) then
          dmaStop nv v (i / 8) (i % 8) resp stage
        else v
      | none => if rb v (aDma (i / 8) (i % 8) 0x104) 2 then dmaStop nv v (i / 8) (i % 8) 0 5 else v) v

/-! ### Accesses of masters -/

/-- HSP_LAST after a request (R594), and the debug access register after one (R589). -/
def lastWord (r : Req) (code : Nat) : Word := BitVec.ofNat 32 (2 ^ 31 + b2n r.write * 2 ^ 30 + code % 8)
def dbgWord (r : Req) (x : Ans) : BitVec 72 :=
  BitVec.ofNat 72 (b2n r.write * 2 ^ 71 + r.addr % 2 ^ 32 * 2 ^ 39
    + (if r.write then r.data.data else x.data.data).toNat * 2 ^ 7 + x.code % 8 * 16)

/-- The word that a host SPI read waited for arrives (R579): its marker and bytes, or the marker that ends the data. What an earlier
transaction asked for is discarded (R580). -/
def hspArrives (v : Vol) (r : Req) : Vol :=
  if 0 < v.hsp.stale then { v with hsp := { v.hsp with stale := v.hsp.stale - 1 } }
  else
  match v.hsp.left with
  | some (n + 1, a) =>
    if r.write || decide (r.addr ≠ a) then v
    else if v.ans.code ≠ 0 then
      { v with hsp := { v.hsp with out := v.hsp.out ++ [BitVec.ofNat 8 (0xE0 + v.ans.code)], left := none } }
    else
      { v with hsp := { v.hsp with out := v.hsp.out ++ [0xA5] ++ (wordBytes v.ans.data.data).reverse, left := some (n, (a + 4) % 2 ^ 32) } }
  | some (0, a) => if r.addr = a then { v with hsp := { v.hsp with left := none } } else v
  | none => v

/-- Answer a diagnostic message (R583). -/
def diagAnswer (v : Vol) (msg : List Byte) (status code : Nat) (more : List Byte) : Vol :=
  rgInc { v with svc := { v.svc with out := response magicDiag msg status code more, diag := [], got := [] } } (ra pSvc 0x04C)

/-- Whether a diagnostic message writes, the words that it moves and the address of the first (R583). -/
def diagWrites (msg : List Byte) : Bool := byteAt msg 4 == 3
def diagWords (msg : List Byte) : List Word :=
  if diagWrites msg then wordsOf (msg.drop 20) else List.replicate ((leWord msg 20).toNat / 4) 0
def diagAddr (msg : List Byte) (i : Nat) : Nat := ((leWord msg 16).toNat + 4 * i) % 2 ^ 32

/-- A word of a diagnostic READ or WRITE has been moved (R583): it stops at the first response other than OKAY, and is answered behind
its last word. `got` holds the words moved. -/
def diagArrives (v : Vol) (r : Req) : Vol :=
  let msg := v.svc.diag
  let show' (l : List Word) : List Byte := if diagWrites msg then [] else bytesOf l
  if msg.isEmpty then v
  else if v.ans.code ≠ 0 then diagAnswer v msg 17 v.ans.code (show' v.svc.got)
  else
    let got := v.svc.got ++ [if r.write then r.data.data else v.ans.data.data]
    if got.length = (diagWords msg).length then diagAnswer v msg 0 0 (show' got)
    else { v with svc := { v.svc with got := got } }

/-- The response of a request of master 15 is shown: HSP_LAST for host SPI (R594), the response and data of DBGACC (R589), a word of a
diagnostic message (R583). -/
def shown (v : Vol) (r : Req) : Vol :=
  if r.master ≠ 15 then v
  else if r.id = 1 then
    rgSet (rgSet (hspArrives v r) (ra pHsp 0x040) (lastWord r v.ans.code)) (ra pHsp 0x044) (BitVec.ofNat 32 r.addr)
  else if r.id = 0 then { v with jtag := { v.jtag with dbgacc := dbgWord r v.ans } }
  else if r.id = 2 then diagArrives v r
  else v

/-- After an answered request: the arbiter's rotation and a processor's ID counter have gone on, its response is shown, and
channels that it aborts stop; the answer stays. -/
def finish (nv : Nv) (v : Vol) (r : Req) : Vol :=
  { dmaSettle nv (idTaken (noteGrant (shown v r) r) r.master r.id) with ans := (shown v r).ans }

/-- A request of a master: its response, or its wait (R277, R285). Channels that it aborts stop after it. -/
def busAccess (nv : Nv) (v : Vol) (r : Req) : Vol :=
  let wait (v : Vol) : Vol := idTaken { v with parked := v.parked ++ [r] } r.master r.id
  if heldBack v r then wait v
  else if v.mtx.late.contains (r.master, r.id, r.addr) then finish nv (busLate nv v r) r
  else
    match busOne nv v r with
    | (v, true) => wait v
    | (v, false) => finish nv v r

/-- A write and a read of one register or word by a master. -/
def busWrite (nv : Nv) (v : Vol) (m : Nat) (sz : Size) (a : Nat) (w : TWord) : Vol :=
  busAccess nv v ⟨m, masterId v m, true, sz, a, w⟩
def busRead (nv : Nv) (v : Vol) (m : Nat) (a : Nat) : Vol := busAccess nv v ⟨m, masterId v m, false, .word, a, TWord.zero⟩

/-- The waiting requests that have left their masters (R277): at most eight of a master, the first of each ID. -/
def issuedOf : List Req → List Req → List Req
  | _, [] => []
  | before, r :: rest =>
    let back := before.any fun q => q.master == r.master && q.id == r.id
    let rest' := issuedOf (before ++ [r]) rest
    if back || decide (8 ≤ before.countP fun q => q.master == r.master) then rest' else r :: rest'

/-- What else waits at the targets for its turn (R278, R285): the accesses of cores and the beats of DMA channels that have waited for
a domain to wake. -/
def rivals (v : Vol) : List Req :=
  ((List.range 9).flatMap fun k => ((heldOf (coreOf v k)).filter (·.wake)).map fun h => ⟨k, 0, h.write, .word, h.addr, h.data⟩)
    ++ (List.range 16).filterMap fun i =>
      (dmaOf v (i / 8) (i % 8)).wait.map fun w => ⟨9 + i / 8, i % 8, decide (2 ≤ w.2), .word, w.1, TWord.zero⟩

/-- The waiting request that is performed next: of those whose target has come up (R285), the one that its arbiter grants; not one
that loses to a rival, which is performed with that one's own command. -/
def nextParked (v : Vol) : Option Req :=
  let rs := (rivals v).filter fun r => targetUp v r.addr
  let loses (q : Req) : Bool := rs.any fun r => arbKey r.addr == arbKey q.addr && arbBefore v r q
  match (issuedOf [] v.parked).filter (fun r => targetUp v r.addr && !loses r) with
  | [] => none
  | r :: rest =>
    some (rest.foldl (fun best q =>
      if (arbKey q.addr = arbKey r.addr ∨ (q.master = 15 ∧ best.master = 15)) && arbBefore v q best then q else best) r)

/-- The requests that waited and can now be performed, one after the other. -/
def flushFor (nv : Nv) : Nat → Vol → Vol
  | 0, v => v
  | n + 1, v =>
    match nextParked v with
    | none => v
    | some r =>
      match busOne nv { v with parked := v.parked.erase r } r with
      | (v, true) => flushFor nv n { v with parked := v.parked ++ [r] }
      | (v, false) => flushFor nv n (finish nv v r)
def flushParked (nv : Nv) (v : Vol) : Vol := dmaSettle nv (flushFor nv v.parked.length v)

/-- Power-good fails: requests that wait for the domain are answered OFF (R550); a DMA channel stops. -/
def parkedOff (nv : Nv) (v : Vol) (d : Nat) : Vol :=
  let v := endHeld v (fun a => addrDom a == d) 4
  let off := v.parked.filter fun r => addrDom r.addr == d
  let v := off.foldl (fun v r => shown (answer v 4 TWord.zero) r) { v with parked := v.parked.filter fun r => addrDom r.addr != d }
  (List.range 16).foldl (fun v i =>
    let c := dmaOf v (i / 8) (i % 8)
    match c.wait, c.stop with
    | some (a, _), some (resp, stage) => if addrDom a = d then dmaStopped v (i / 8) (i % 8) resp stage else v
    | some (a, stage), none => if addrDom a = d then dmaStop nv v (i / 8) (i % 8) 4 stage else v
    | none, _ => v) v

/-- Whether the count of a request to an address can run (R282, R283, R285): it has reached a target that is up. -/
def counts (v : Vol) (a : Nat) : Bool :=
  v.sys.mode != .cold && v.sys.mode != .reset && portOf a != 31 && targetUp v a

/-- The words that n bytes from an address touch, the lower first, as the address and the number of their bytes (R104). -/
def halvesOf (a n : Nat) : List (Nat × Nat) :=
  if a % 4 + n ≤ 4 then [(a, n)] else [(a, 4 - a % 4), ((a / 4 * 4 + 4) % 2 ^ 32, a % 4 + n - 4)]

/-- The addresses of a core's outstanding transactions, in the order of their IDs (R104, R628). -/
def coreReqs (c : Core) : List Nat := ((heldOf c).filter fun h => h.resp.isNone).flatMap fun h => (halvesOf h.addr h.size).map (·.1)

/-- The ID that an outstanding request of master m to an address has by R628, where its engine leaves no choice. -/
def ownId (v : Vol) (m id a : Nat) : Nat :=
  let mem : Option Nat := match place a with | some p => if p.dom < 18 then some (p.dom - 10) else none | none => none
  if m < 9 then ((coreOf v m).busId + (coreReqs (coreOf v m)).idxOf a) % 16
  else if m = 11 then mem.getD id
  else if m = 12 ∨ m = 13 then 0
  else if m = 14 then mem.getD 8
  else id

/-- The count of a request reaches MTX_TMO (R282). One that waits to be granted is withdrawn and answered. Else the answer meets the
request with its response (log entry 93): that of a core's access, of the next beat of a DMA channel, which stops with it, or of the
engine that has it outstanding. -/
def matrixTimeout (nv : Nv) (v : Vol) (m id a : Nat) : Vol :=
  let i := ownId v m id a
  let late : Vol := { timeoutNoted v m i a with mtx := { v.mtx with late := v.mtx.late ++ [(m, i, a)] } }
  if !counts v a then v
  else
    match v.parked.find? fun r => r.master == m && r.addr == a && (m < 9 || r.id == id) with
    | some r => shown (answer { timeoutNoted v m r.id a with parked := v.parked.erase r } 5 TWord.zero) r
    | none =>
      if m < 9 then (if (coreReqs (coreOf v m)).contains a then late else v)
      else if m < 11 then
        if 8 ≤ id then v
        else
          let v2 := if (dmaOf late (m - 9) id).live then dmaBurst nv late (m - 9) id else dmaFetch nv late (m - 9) id
          if v2.mtx.late.contains (m, id, a) then v else v2
      else answer late 5 TWord.zero

/-- Whether a core's access to the block of page p is outstanding. -/
def blockHeld (v : Vol) (p : Nat) : Bool :=
  (List.range 9).any fun k => (heldOf (coreOf v k)).any fun h => inBlock (blockPage p) h.addr

/-- A block's automatic gate closes while the block has nothing to do (R286, R542); it waits for an outstanding access of a core. -/
def gateCloses (v : Vol) (a : Nat) : Vol :=
  let p := (a - 0x40000000) / 0x1000
  let d := pageDom p
  let auto := d != 0 && rb v (ra pClk (0x070 + 4 * ((d - 1) / 32))) ((d - 1) % 32)
  if a < 0x40000000 || (pageInfo p).isNone || !ready v (blockPage p) || !auto || !blockIdle v (blockPage p) then v
  else rgSet v (aGate (blockPage p)) (if blockHeld v p then 1 else 2)

/-- A deferred close is made once the block's interface is idle (R286). -/
def gateSettle (v : Vol) (a : Nat) : Vol :=
  let p := (a - 0x40000000) / 0x1000
  let g := aGate (blockPage p)
  if a < 0x40000000 || (pageInfo p).isNone || rg v g != 1 || blockHeld v p then v else rgSet v g 2

end Sys2Proof.Machine
end

