-- ==== Sys2Proof/Machine/LdgBus.lean ====
section
/-! DEFINITION. Ledger over the bus: submissions from the ring (R453-R457) and the ends of commands (R472-R475): FORMAT, MOUNT,
proofs, reads and staging. -/

namespace Sys2Proof.Machine

/-! ### Submissions (R453-R457) -/

/-- Format memory word i. -/
def fmtAt (v : Vol) (i : Nat) : Word := smapGet (fun _ => 0) v.ldg.fmt i

/-- The fields of format f, in payload order: type, source offset, count (R453). -/
def fmtFields (v : Vol) (f : Nat) : List (Nat × Nat × Nat) :=
  (List.range (fld (fmtAt v (32 * f)) 20 16)).map fun i =>
    let w := fmtAt v (32 * f + 1 + i)
    (fld w 31 28, fld w 27 12, fld w 11 0)

/-- The payload bytes of a field. -/
def fieldBytes (x : Nat × Nat × Nat) : Nat := x.2.2 * (if x.1 = 0 then 1 else if x.1 = 1 then 4 else 5)

/-- Whether format f is usable (R453, R457 status 2). -/
def fmtUsable (v : Vol) (f : Nat) : Bool :=
  let h := fmtAt v (32 * f)
  let fs := fmtFields v f
  f != 0 && bit h 31 && fld h 30 21 == 0 && fld h 15 12 == 0 && !fs.isEmpty && decide (1 ≤ fld h 11 0) && decide (fld h 11 0 ≤ 3992)
    && fs.all (fun x => decide (x.1 < 3) && decide (1 ≤ x.2.2) && (x.1 == 0 || x.2.1 % 4 == 0))
    && (fs.map fieldBytes).sum == fld h 11 0

/-- The tag-view address of a tagged SRAM word in the direct window (R34); none elsewhere. -/
def tagViewOf (a : Nat) : Option Nat :=
  match place a with
  | some p => if p.win = .direct ∧ p.tagged then some (if a < 0x20000000 then a + 0xC0000 else a + 0x3000000) else none
  | none => none

/-- Read n items of a field by master 12 (R454): the payload bytes, the first response other than OKAY and whether a read
waits; one that has timed out answers TIMEOUT (R457). -/
def gatherItems (nv : Nv) (typ : Nat) : Nat → Nat → Vol → Vol × List Byte × Nat × Bool
  | 0, _, v => (v, [], 0, false)
  | n + 1, a, v =>
    match busTry nv v ⟨12, 0, false, if typ = 0 then .byte else .word, a, TWord.zero⟩ with
    | (v, true) => (v, [], 0, true)
    | (v, false) =>
      if v.ans.code ≠ 0 then (v, [], v.ans.code, false)
      else
        let w := v.ans.data.data
        let step (v : Vol) (bs : List Byte) : Vol × List Byte × Nat × Bool :=
          let r := gatherItems nv typ n (a + if typ = 0 then 1 else 4) v
          (r.1, bs ++ r.2.1, r.2.2.1, r.2.2.2)
        if typ = 0 then step v [w.setWidth 8]
        else if typ = 1 then step v (wordBytes w)
        else
          match tagViewOf a with
          | none => step v (wordBytes w ++ [0])
          | some t =>
            match busTry nv v ⟨12, 0, false, .word, t, TWord.zero⟩ with
            | (v, true) => (v, [], 0, true)
            | (v, false) => if v.ans.code ≠ 0 then (v, [], v.ans.code, false) else step v (wordBytes w ++ [v.ans.data.data.setWidth 8])

/-- Read every field of a format from a source buffer. -/
def gatherAll (nv : Nv) (src : Nat) : List (Nat × Nat × Nat) → Vol → Vol × List Byte × Nat × Bool
  | [], v => (v, [], 0, false)
  | x :: rest, v =>
    match gatherItems nv x.1 x.2.2 ((src + x.2.1) % 2 ^ 32) v with
    | (v, _, 0, true) => (v, [], 0, true)
    | (v, bs, 0, false) =>
      let r := gatherAll nv src rest v
      (r.1, bs ++ r.2.1, r.2.2.1, r.2.2.2)
    | (v, _, code, _) => (v, [], code, false)

/-- Seal every stream that holds records since its last seal, with a reason (R455, R462). -/
def sealAll (nv : Nv) (v : Vol) (reason : Nat) : Vol := (List.range 64).foldl (fun v s => sealStart nv v s reason) v

/-- An entry is done with a status (R456, R457): its words, LDG_SQHEAD, events 0 and 1. -/
def entryDone (nv : Nv) (v : Vol) (a status : Nat) (irq : Bool) (seq leaf : Nat) : Vol :=
  let w4 : Word := BitVec.ofNat 32 (2 ^ 31 + b2n (status != 0) * 2 ^ 30 + status * 2 ^ 24)
  let ws : List Word := if status = 0 then [w4, BitVec.ofNat 32 seq, BitVec.ofNat 32 (seq / 2 ^ 32), BitVec.ofNat 32 leaf] else [w4]
  let v := (beatsWrite nv 12 0 .word false ws (a + 16) v).1
  let n := 2 ^ rf v (aLdg 0x074) 3 0
  let v := rfSet v (aLdg 0x07C) 9 0 ((rf v (aLdg 0x07C) 9 0 + 1) % n)
  let v := if status = 4 then setFault v pLdg 1 else v
  if status ≠ 0 then raiseEvent v pLdg 1 else raiseIf irq v pLdg 0

/-- The early status of an entry (R457): not mounted, reserved bits, stream disabled, format unusable. -/
def entryStatus (v : Vol) (w0 : Word) : Nat :=
  let s := fld w0 29 24
  if !ldgMounted v then 5
  else if (w0 &&& ~~~(0x3F3FE000 : Word)) != 0 then 6
  else if s = 0 ∨ !rb v (aLdg (0x100 + 4 * s)) 31 then 1
  else if !fmtUsable v (fld w0 21 16) then 2
  else 0

/-- A submission to a stream whose segment is full and cannot be sealed is rejected (R466). -/
def unsealable (nv : Nv) (v : Vol) (a s : Nat) (irq : Bool) : Vol :=
  let v := if (lst v s).full then v else raiseEvent (setLst v s fun st => { st with full := true }) pLdg 3
  entryDone nv v a 7 irq 0 0

/-- Take the entry with words `ws` at an address. It waits while a full segment's seal, or one that a write of the format memory
calls for (R455), waits for the signature of the seal before it. -/
def takeEntry (nv : Nv) (v : Vol) (a : Nat) (ws : List Word) : Vol :=
  let w0 := ws.getD 0 0
  let s := fld w0 29 24
  let irq := bit w0 13
  let e := entryStatus v w0
  if e ≠ 0 then entryDone nv v a e irq 0 0
  else if segmentFull v s then (if canSign v then v else unsealable nv v a s irq)
  else
    match gatherAll nv (ws.getD 1 0).toNat (fmtFields v (fld w0 21 16)) v with
    | (v, _, _, true) => v
    | (v, bs, code, false) =>
      if code ≠ 0 then entryDone nv v a 4 irq 0 0
      else
        match streamHasBlock v s with
        | (v, false) => entryDone nv v a 3 irq 0 0
        | (v, true) =>
          let v := if v.ldg.fmtNew then sealAll nv v 8 else v
          let v := fitRecord nv v s (32 + bs.length)
          let unsealed := v.ldg.fmtNew && v.ldg.streams.any fun e => e.2.segTicks.isSome
          if canSign v && (unsealed || segmentFull v s) then v
          else if segmentFull v s then unsealable nv v a s irq
          else
          let v := setLdg v fun l => { l with fmtNew := false, fmtUsed := l.fmt }
          let tick := if bit w0 15 then v.tick.number.toNat else (ws.getD 2 0).toNat + (ws.getD 3 0).toNat * 2 ^ 32
          let seq := (lst v s).next
          let v := appendRecord nv v s (fld w0 21 16) tick bs
          let leaf := (lst v s).leaf
          let v := if bit w0 14 then flushStream nv v s else v
          entryDone nv v a 0 irq seq leaf

/-- Ledger takes the next ring entry (R456): none while the ring is held (R506) or empty; an UNMOUNT takes entries up to its own
tail. -/
def ldgTakes (nv : Nv) (v : Vol) : Vol :=
  let n := 2 ^ rf v (aLdg 0x074) 3 0
  let head := rf v (aLdg 0x07C) 9 0
  let tail := if v.ldg.op = 7 then v.ldg.tail else rf v (aLdg 0x078) 9 0
  if !ldgRuns v || v.ldg.held || v.ldg.ending || head % n == tail % n then v
  else
    let a := (rg v (aLdg 0x070)).toNat + 32 * (head % n)
    match beatsRead nv 12 0 .word false 8 a v with
    | (v, _, _, true) => v
    | (v, ws, code, false) => unmountBegins nv (if code ≠ 0 then entryDone nv v a 4 false 0 0 else takeEntry nv v a ws)

/-! ### The ends of commands (R475) -/

/-- A command ends with a status: BUSY clears and event 6. -/
def ldgEnds (v : Vol) (status : Nat) : Vol :=
  raiseEvent (rgSet (setLdg v fun l => { l with
    op := 0, scan := none, ending := false, proof := none, lunq := l.lunq.filter fun x => x.1 != some 64 }) (aLdg 0x094) (BitVec.ofNat 32 status)) pLdg 6

/-- What a scan finds when none is given: no target. -/
def emptyScan : NandScan := { params := [], marks := [], found := [] }

/-- The data rates of LDG_NCFG.RATE in MT/s (R442, R476). -/
def ncfgRate (v : Vol) : Nat := [200, 266, 333, 400].getD (rf v (aLdg 0x040) 5 4) 200

/-- Discovery of the targets in SDR timing mode 0, and NV-DDR3 at the rate of LDG_NCFG on those accepted (R442, R443; the order of the
operations is DEDUCED, log entry 139). -/
def discover (v : Vol) (n : NandScan) : Vol :=
  let v := (List.range 32).foldl (fun v t =>
    if !chanOn v (t / 8) || tgtOffline v t then v
    else
      let v := onfiSend v t 0 [.reset, .status, .readId]
      let v := if (scanTarget v n t).isSome then onfiSend v t 0 [.paramPage] else v
      if (accepted v n).contains t then onfiSend v t 0 [.setFeatures (ncfgRate v), .getFeatures, .zqLong] else v) v
  setLdg v fun l => { l with rate := ncfgRate v }

/-- Show the targets and the geometry (R443, R479); a target that is offline keeps what it shows. -/
def showTargets (v : Vol) (n : NandScan) : Vol :=
  let acc := accepted v n
  let first := firstParams v n
  let v := (List.range 32).foldl (fun v t =>
    let p := scanTarget v n t
    let gerr := p.any fun p => paramsPass p && first.any fun g => !sameGeometry g p
    let v := if gerr && !tgtOffline v t then setFault v pLdg 4 else v
    if tgtOffline v t then v else rgSet v (ra (pNand (t / 8)) (0x044 + 4 * (t % 8)))
      (BitVec.ofNat 32 (b2n p.isSome * 2 ^ 31 + b2n (acc.contains t) * 2 ^ 30 + b2n gerr * 2 ^ 29))) v
  let v := (List.range 4).foldl (fun v c =>
    let have' := ((List.range 8).map fun i => b2n (scanTarget v n (8 * c + i)).isSome * 2 ^ i).sum
    let ddr := (List.range 8).any fun i => acc.contains (8 * c + i)
    rgSet v (ra (pNand c) 0x040) (BitVec.ofNat 32 (have' + (if ddr then 512 else if have' ≠ 0 then 256 else 0)))) v
  match first with
  | some g => rgSet (rgSet v (aLdg 0x044) (BitVec.ofNat 32 (g.luns % 16 * 65536 + g.pages % 65536))) (aLdg 0x048) (BitVec.ofNat 32 (usedBlocks g % 2 ^ 20))
  | none => v

/-- Every block of the accepted targets. -/
def allNandBlocks (v : Vol) (n : NandScan) : List Nat :=
  match firstParams v n with
  | none => []
  | some g => (accepted v n).flatMap fun t =>
      let luns := match scanTarget v n t with | some p => min p.luns g.luns | none => 0
      (List.range (luns * usedBlocks g)).map (t * g.luns * usedBlocks g + ·)

/-- Parts of a page tag (R446). -/
def tagStream (p : ScanPage) : Nat := byteAt p.tag 2
def tagIndex (p : ScanPage) : Nat := (leWord p.tag 4).toNat
def tagCount (p : ScanPage) : Nat := (leWord p.tag 20).toNat
def tagVol (p : ScanPage) : Word := leWord p.tag 24

/-- Whether a page's tag passes its check (R446, R452). -/
def tagOk (p : ScanPage) : Bool :=
  p.good && p.tag.take 2 == [0x1D, 0x7E] && byteAt p.tag 3 == 1 && leWord p.tag 28 == crc32c (p.tag.take 28)

/-- A page among others, by block and page. -/
def pageInsert (p : ScanPage) : List ScanPage → List ScanPage
  | [] => [p]
  | q :: rest => if nandKey p.block p.page < nandKey q.block q.page then p :: q :: rest else q :: pageInsert p rest

/-- The pages on the NAND, by block and page (R471): those that Ledger has put there, and those that the scan finds beside them. A page of
its own that the scan finds not to pass is torn or decayed. -/
def nandPages (v : Vol) (n : NandScan) : List ScanPage :=
  let own := v.nand.pages.map fun e =>
    let bad := n.found.any fun p => nandKey p.block p.page == e.1 && !p.good
    { block := e.1 / 65536, page := e.1 % 65536, tag := (e.2.2.drop 2018).take 32, good := !bad, slots := e.2.1 : ScanPage }
  (n.found.filter fun p => (smapFind v.nand.pages (nandKey p.block p.page)).isNone).foldl (fun l p => pageInsert p l) own

/-- The erase count that a block's first page tells. -/
def countOf (pages : List ScanPage) (b : Nat) : Nat := match pages.find? fun p => p.block == b && tagOk p with | some p => tagCount p | none => 0

/-- The factory-bad blocks (R448): the first byte of the spare area of the first or last page is not 0xFF. -/
def markedBad (n : NandScan) (b : Nat) : Bool := n.marks.any fun m => m.1 == b && (m.2.1 != 0xFF || m.2.2 != 0xFF)

/-- The tag of a staging block's first page, its slots erased, by which MOUNT knows the block (R452, R474; DESIGN CHOICE, log entry
65). -/
def stagingTagged (v : Vol) (bs : List Nat) : Vol :=
  bs.foldl (fun v b => nandPut v 255 (v.ldg.stg.idxOf b) 0 0 b (List.replicate 4 (List.replicate 4096 0xFF))) v

/-- The page programs of FORMAT's own record: the first fails when FORMAT is told so, and moves on (R447). -/
def formatPrograms (nv : Nv) (v : Vol) (pass : Bool) : Vol :=
  let v := if pass then v else pageProgrammed nv v 0 false
  (lst v 0).progs.foldl (fun v _ => pageProgrammed nv v 0 true) v

/-- FORMAT (R447, R448, R466, R475): every good block of the accepted targets is erased but those retired, which it records again. -/
def ldgFormat (nv : Nv) (v : Vol) (n : NandScan) (pass : Bool) : Vol :=
  if ldgMounted v then ldgEnds v 1
  else if !canSign v then ldgEnds (setFault v pLdg 6) 9
  else
    let v := showTargets (discover v n) n
    if (accepted v n).isEmpty then ldgEnds v 7
    else
      let all := allNandBlocks v n
      let gone := all.filter v.nand.retired.contains
      let bad := all.filter fun b => markedBad n b && !gone.contains b
      let good := all.filter fun b => !bad.contains b && !gone.contains b
      let pages := nandPages v n
      let stg := good.take (rf v (aLdg 0x064) 15 0)
      let v := nextFree (rgSet v (aLdg 0x04C) (Config.trng v.free))
      let v := rgSet (rgSet v (aLdg 0x050) (BitVec.ofNat 32 good.length)) (aLdg 0x058) (BitVec.ofNat 32 (all.length - good.length))
      let v := good.foldl (fun v b => onfiBlock v b [.erase]) (nandErase v good.contains)
      let v := setLdg v fun l => { l with
        streams := [], pool := (good.filter fun b => !stg.contains b).map fun b => (countOf pages b + 1, b), retired := gone, erasing := []
        lunq := [], counts := good.foldl (fun m b => smapSet (fun _ => 0) m b (countOf pages b + 1)) [], stg := stg, fmtUsed := l.fmt }
      let v := stagingTagged v stg
      let vr (v : Vol) (ev place num : Nat) : Vol := appendRecord nv v 0 0 v.tick.number.toNat
        ([BitVec.ofNat 8 ev, 0] ++ leBytes 2 place ++ leBytes 4 num ++ leBytes 8 0)
      let v := vr v 1 0 0
      let v := bad.foldl (fun v b => vr v 5 (blkPlace v b) (b % ldgBlocks v)) v
      let v := gone.foldl (fun v b => vr v 4 (blkPlace v b) (b % ldgBlocks v)) v
      let v := sealSign nv (sealStart nv v 0 4) 0
      let v := formatPrograms nv v pass
      ldgEnds (raiseIf ((lst v 0).seals != 0) v pLdg 2) 0

/-! ### MOUNT (R452, R469, R470) -/

/-- What a stream's scan has gathered: the durable leaves and seals in order, and whether it has stopped. -/
abbrev MountScan := List (Nat × List Byte) × Bool

/-- Whether a leaf follows those gathered (R461, R469). -/
def leafFollows (got : List (Nat × List Byte)) (x : List Byte) : Bool :=
  match (got.filter fun e => isLeaf e.2).getLast? with
  | none => true
  | some e => le64 x 8 == le64 e.2 8 + 1 && (x.drop 24).take 48 == Config.sha384 e.2

/-- Whether a seal matches the durable leaves and its signature verifies (R470). -/
def sealHolds (v : Vol) (got : List (Nat × List Byte)) (x : List Byte) : Bool :=
  let ls := (got.map (·.2)).filter fun l => isLeaf l && decide (sealLeaf x ≤ le64 l 8) && decide (le64 l 8 < sealLeaf x + sealCount x)
  let hs := ls.map Config.sha384
  hs.length == sealCount x && (x.drop 80).take 48 == merkleRoot hs && (x.drop 128).take 48 == hs.getLastD []
    && Config.ecdsaVerify (Config.p384Public (slotOf v 0)) (Config.sha384 (x.take 392)) ((x.drop 392).take 96)

/-- One slot of a page: a leaf that follows, a seal, which is left out unless it holds, or a void slot; an erased slot and anything else
breaks the page. -/
def mountSlot (v : Vol) (idx : Nat) (a : MountScan) (x : List Byte) : MountScan :=
  if a.2 then a
  else if isLeaf x then (if leafFollows a.1 x then (a.1 ++ [(idx, x)], false) else (a.1, true))
  else if isSeal x then (if sealHolds v a.1 x then (a.1 ++ [(idx, x)], false) else a)
  else if x.all (· == 0) then a
  else (a.1, true)

/-- One page of a stream (R452, R469): taken whole, or not at all. In the stream's newest block one that does not pass stops the scan; an
older block keeps its other pages. -/
def mountPage (v : Vol) (newest idx : Nat) (a : MountScan) (p : ScanPage) : MountScan :=
  if a.2 then a
  else
    let r := p.slots.foldl (mountSlot v idx) (a.1, !tagOk p)
    if r.2 then (a.1, p.block == newest) else r

/-- The stream that MOUNT rebuilds from its blocks, in the order of their index, and the pages found (R452, R469). -/
def mountStream (v : Vol) (blocks : List (Nat × Nat)) (pages : List ScanPage) : LStream :=
  let newest := (blocks.getLastD (0, 0)).2
  let got := (blocks.foldl (fun a b => (pages.filter fun p => p.block == b.2).foldl (mountPage v newest b.1) a) (([], false) : MountScan)).1
  let leaves := (got.map (·.2)).filter isLeaf
  let seals := (got.map (·.2)).filter isSeal
  let next := match leaves.getLast? with | some l => leafEnd l | none => 0
  let lastSeal := seals.getLast?
  let from' := match lastSeal with | some x => sealLeaf x + sealCount x | none => (match leaves.head? with | some l => le64 l 8 | none => 0)
  let past := leaves.filter fun l => decide (from' ≤ le64 l 8)
  { LStream.empty with
    next := next
    leaf := (match leaves.getLast? with | some l => le64 l 8 + 1 | none => 0)
    first := next
    prev := (match leaves.getLast? with | some l => Config.sha384 l | none => List.replicate 48 0)
    segLeaf := from'
    segSeq := (match past.head? with | some l => le64 l 16 | none => next)
    segHash := past.map Config.sha384
    segTicks := leafTicks past
    segAt := wall v
    sealNo := (match lastSeal with | some x => le64 x 8 + 1 | none => 0)
    sealHash := (match lastSeal with | some x => Config.sha384 (x.take 392) | none => List.replicate 48 0)
    blocks := blocks.map (·.2)
    baseIdx := (blocks.headD (0, 0)).1
    used := ldgPages v
    store := got
    durable := (if next = 0 then none else some (next - 1))
    seals := seals.length }

/-- The blocks that the volume stream names as retired or factory-bad (R448, R451, R452). -/
def lostBlocks (v : Vol) (st : LStream) : List Nat :=
  let leaves := (st.store.map (·.2)).filter isLeaf
  leaves.flatMap fun l => (recordsOf l).filterMap fun r =>
    let ev := byteAt l (r.2 + 32)
    let pl := byteAt l (r.2 + 34) + 256 * byteAt l (r.2 + 35)
    if ev = 4 ∨ ev = 5 then
      some (((pl / 0x4000 * 8 + pl / 0x800 % 8) * ldgLuns v + pl / 0x200 % 4) * ldgBlocks v + (leWord l (r.2 + 36)).toNat)
    else none

/-- The volume that MOUNT mounts: the one that LDG_VOLID names, else the one of the volume stream's first page. -/
def mountVol (v : Vol) (pages : List ScanPage) : Word :=
  let w := rg v (aLdg 0x04C)
  if w != 0 then w else match pages.find? fun p => p.page == 0 && tagOk p && tagStream p == 0 with | some p => tagVol p | none => 0

/-- Insert by the first part. -/
def byIndex (x : Nat × Nat) : List (Nat × Nat) → List (Nat × Nat)
  | [] => [x]
  | y :: rest => if x.1 < y.1 then x :: y :: rest else y :: byIndex x rest

/-- The blocks whose first page carries a tag of the volume with a stream code, each with its index, in the order of the index (R452). -/
def blocksOf (pages : List ScanPage) (vol : Word) (code : Nat) : List (Nat × Nat) :=
  (pages.filter fun p => p.page == 0 && tagOk p && tagVol p == vol && tagStream p == code).foldl (fun l p => byIndex (tagIndex p, p.block) l) []

/-- MOUNT (R452): a block without a page is erased and free; one with a page but without a tag of the volume in its first is foreign. -/
def ldgMount (nv : Nv) (v : Vol) (n : NandScan) : Vol :=
  if ldgMounted v then ldgEnds v 0
  else
    let v := showTargets (discover v n) n
    let all := allNandBlocks v n
    let pages := (nandPages v n).filter fun p => all.contains p.block
    let vol := mountVol v pages
    let v := rgSet v (aLdg 0x04C) vol
    if (accepted v n).isEmpty then ldgEnds v 7
    else
      let v := (pages.filter fun p => p.good).foldl (fun v p =>
        { v with nand := { v.nand with pages := smapPut v.nand.pages (nandKey p.block p.page) (p.slots, spareOf p.tag p.slots) } }) v
      let v := (all.filter fun b => pages.any fun p => p.block == b).foldl (fun v b => onfiBlock v b [.read, .changeColumn]) v
      let v := setLdg v fun l => { l with
        streams := (List.range 64).foldl (fun m s =>
          let bs := blocksOf pages vol s
          if bs.isEmpty then m else smapSet (fun _ => LStream.empty) m s (mountStream v bs pages)) [] }
      let lost := (lostBlocks v (lst v 0) ++ v.nand.retired.filter all.contains).eraseDups
      let used := (pages.map (·.block)).eraseDups
      let free := all.filter fun b => !used.contains b && !lost.contains b
      let v := setLdg v fun l => { l with
        pool := free.map (fun b => (0, b)), retired := lost, erasing := [], lunq := []
        stg := ((blocksOf pages vol 255).map (·.2)).filter fun b => !lost.contains b
        counts := used.foldl (fun m b => smapSet (fun _ => 0) m b (countOf pages b)) [], fmtUsed := l.fmt }
      let v := rgSet (rgSet v (aLdg 0x050) (BitVec.ofNat 32 (all.length - lost.length))) (aLdg 0x058) (BitVec.ofNat 32 lost.length)
      let v := rbSet v (aStat pLdg) 0 true
      let due := (List.range 64).filter fun s => (lst v s).segTicks.isSome
      let v := due.foldl (fun v s => sealStart nv v s 16) v
      let v := volRecord nv v 2 0 0 0 0
      let v := due.foldl (fun v s => volRecord nv v 3 s 0 0 (lst v s).next) v
      ldgEnds v 0

/-! ### Reads of the volume (R447, R472-R474) -/

/-- What a read of one slot of a block's page, four codewords, meets (R447, R479): an offline target takes no read (R444); corrections are
counted by the codeword and may retire the block; an uncorrectable codeword fails the command. Answers the command's status so far. -/
def readEcc (nv : Nv) (v : Vol) (b : Nat) (worst : Option (Fin 73)) : Vol × Nat :=
  let c := pNand (blkTarget v b / 8 % 4)
  if tgtOffline v (blkTarget v b) then (v, 7)
  else
    let v := onfiBlock v b [.read, .changeColumn]
    let some' := 1 + Config.codewords v.free % 4
    match worst with
    | none => (raiseEvent (setFault (nextFree (rgSet v (ra c 0x068) (rg v (ra c 0x068) + BitVec.ofNat 32 some'))) pLdg 2) pLdg 5, 5)
    | some n =>
      let v := if n.val = 0 then v else nextFree (rgSet v (ra c 0x064) (rg v (ra c 0x064) + BitVec.ofNat 32 some'))
      let v := if rf v (ra c 0x06C) 6 0 < n.val then rgSet v (ra c 0x06C) (BitVec.ofNat 32 n.val) else v
      (if rf v (aLdg 0x060) 6 0 < n.val && !v.ldg.retired.contains b then retireBlock nv v b else v, 0)

/-- A command writes bytes to SRAM at ARG3 (R475). -/
def ldgDeliver (nv : Nv) (v : Vol) (bs : List Byte) : Vol :=
  match beatsWrite nv 12 0 .word false (wordsOf bs) (ldgArg v 3) v with
  | (v, _, _, true) => v
  | (v, _, code, false) => ldgEnds v (if code = 0 then 0 else 6)

/-- PROVE (R472, R480). -/
def ldgProve (nv : Nv) (v : Vol) (worst : Option (Fin 73)) : Vol :=
  let s := ldgArg v 0
  let seq := ldgArg64 v
  if 63 < s then ldgEnds v 8
  else
    let st := v.ldg.proof.getD (lst v s)
    if st.next ≤ seq then ldgEnds v 4
    else
      let leaves := st.store.filter fun e => isLeaf e.2
      match leafOfSeq st seq with
      | none => ldgEnds v (if st.durable.any (seq ≤ ·) then 3 else 2)
      | some ((idx, leaf), off) =>
        let li := le64 leaf 8
        match (st.store.map (·.2)).find? fun x => isSeal x && decide (sealLeaf x ≤ li) && decide (li < sealLeaf x + sealCount x) with
        | none => ldgEnds v 2
        | some x =>
          let seg := (leaves.map (·.2)).filter fun l => decide (sealLeaf x ≤ le64 l 8) && decide (le64 l 8 < sealLeaf x + sealCount x)
          if seg.length ≠ sealCount x then ldgEnds v 3
          else
            match readEcc nv v (slotBlock st idx) worst with
            | (v, e + 1) => ldgEnds v (e + 1)
            | (v, 0) =>
              let sib := merklePath (seg.map Config.sha384) (li - sealLeaf x)
              ldgDeliver nv v ([0x50, 0x46, 0x31, 0, BitVec.ofNat 8 s, BitVec.ofNat 8 sib.length] ++ leBytes 2 off ++ leBytes 8 li
                ++ padTo 4096 leaf ++ sib.flatMap id ++ padTo 488 (x.take 488))

/-- The closed leaves of a stream that are not yet on the NAND, in Ledger's buffers. -/
def bufferedLeaf (st : LStream) (li : Nat) : Option (List Byte) :=
  (st.progs.flatMap (·.slots) ++ st.page).find? fun x => isLeaf x && le64 x 8 == li

/-- READ (R473): a leaf slot by stream and leaf index, from Ledger's buffers when it is not yet on the NAND, or the seal slot over that
leaf. -/
def ldgRead (nv : Nv) (v : Vol) (worst : Option (Fin 73)) : Vol :=
  let s := ldgArg v 0
  if 63 < s then ldgEnds v 8
  else
    let st := lst v s
    match readSlot v st with
    | some (idx, slot) =>
      match readEcc nv v (slotBlock st idx) worst with
      | (v, e + 1) => ldgEnds v (e + 1)
      | (v, 0) => ldgDeliver nv v (padTo 4096 slot)
    | none =>
      if st.leaf ≤ readIndex v then ldgEnds v 4
      else
        match bufferedLeaf st (readIndex v), (leafOfIndex st (readIndex v)).isSome with
        | some leaf, _ => if readsSeal v then ldgEnds v 2 else ldgDeliver nv v (padTo 4096 leaf)
        | none, true => ldgEnds v 2
        | none, false => ldgEnds v 3

/-- The units of the staging area (R474): unit u is slot u modulo 4 of its page. -/
def stagingUnits (v : Vol) : Nat := 4 * ldgPages v * v.ldg.stg.length
def stagingBlock (v : Vol) (u : Nat) : Nat := v.ldg.stg.getD (u / (4 * ldgPages v)) 0
def stagingPage (v : Vol) (u : Nat) : List (List Byte) :=
  match smapFind v.nand.pages (nandKey (stagingBlock v u) (u / 4 % ldgPages v)) with
  | some p => p.1
  | none => List.replicate 4 (List.replicate 4096 0xFF)
def stagingUnit (v : Vol) (u : Nat) : List Byte := (stagingPage v u).getD (u % 4) (List.replicate 4096 0xFF)

/-- A unit is written (R474): its page is programmed with the layout of R445 and stream code 0xFF. -/
def stagingPut (v : Vol) (u : Nat) (bs : List Byte) : Vol :=
  let b := stagingBlock v u
  onfiBlock (nandPut v 255 (v.ldg.stg.idxOf b) 0 (u / 4 % ldgPages v) b ((stagingPage v u).set (u % 4) bs)) b [.program]

/-- A unit is written by a command or by Locksmith (R447, R474): a program that fails retires the block, and the unit goes with the others
to the block that takes its place. Answers whether the unit is written. -/
def stagingWrite (nv : Nv) (v : Vol) (u : Nat) (bs : List Byte) (pass : Bool) : Vol × Bool :=
  let v := if v.ldg.retired.contains (stagingBlock v u) then stagingMoves v (stagingBlock v u) else v
  let b := stagingBlock v u
  let v := if pass || !blockLive v b then v
    else
      let v := failNoted v (blkTarget v b) 0x070
      retireBlock nv (stagingMoves v b) b
  if blockLive v (stagingBlock v u) then (stagingPut v u bs, true) else (v, false)

/-- STGERASE (R474): the blocks of the area that take an erase are erased; retired ones give their place first. -/
def stagingErase (v : Vol) : Vol :=
  let v := v.ldg.stg.foldl (fun v b => if v.ldg.retired.contains b then stagingMoves v b else v) v
  let live := v.ldg.stg.filter (blockLive v)
  let v := live.foldl (fun v b => onfiBlock v b [.erase]) (nandErase v live.contains)
  let v := setLdg v fun l => { l with counts := live.foldl (fun m b => smapSet (fun _ => 0) m b (smapGet (fun _ => 0) l.counts b + 1)) l.counts }
  stagingTagged v live

def ldgStage (nv : Nv) (v : Vol) (op : Nat) (worst : Option (Fin 73)) : Vol :=
  let u := ldgArg v 1
  if op = 10 then ldgEnds (stagingErase v) 0
  else if stagingUnits v ≤ u then ldgEnds v 8
  else if tgtOffline v (blkTarget v (stagingBlock v u)) then ldgEnds v 7
  else if op = 8 then
    match beatsRead nv 12 0 .word false 1024 (ldgArg v 3) v with
    | (v, _, _, true) => v
    | (v, ws, code, false) =>
      if code ≠ 0 then ldgEnds v 6
      else
        let r := stagingWrite nv v u (bytesOf ws) worst.isSome
        ldgEnds r.1 (if r.2 then 0 else 7)
  else
    match readEcc nv v (stagingBlock v u) worst with
    | (v, e + 1) => ldgEnds v (e + 1)
    | (v, 0) => ldgDeliver nv v (padTo 4096 (stagingUnit v u))

/-- Whether the running command's own array operation still waits for its LUN (R444). -/
def cmdWaits (v : Vol) : Bool :=
  match v.ldg.lunq.find? fun x => x.1 == some 64 with
  | some x => !lunTurn v x.1 x.2
  | none => false

/-- The command ends, when its work is done: FLUSH and SEAL when the stream's pages are programmed, UNMOUNT when every page
and seal is (R475); a command that reads or writes NAND waits while its interface has no clock or its LUN has other work, and FORMAT for
its turn to sign (R483). `worst` is the worst count of bits corrected in one codeword; none: a read that is uncorrectable, or a program of
FORMAT or STGWR that fails. -/
def ldgDone (nv : Nv) (v : Vol) (worst : Option (Fin 73)) : Vol :=
  let op := v.ldg.op
  let scan := v.ldg.scan.getD emptyScan
  let s := ldgArg v 0
  if op = 0 || !ldgRuns v || v.ldg.waiting || cmdWaits v || (!nandClocked v && [1, 2, 5, 6, 8, 9, 10].contains op) then v
  else if op = 1 && (idNext v).isSome && canSign v then v
  else if op = 1 then ldgFormat nv v scan worst.isSome
  else if op = 2 then ldgMount nv v scan
  else if !ldgMounted v then ldgEnds v 1
  else if op = 3 ∨ op = 4 then
    if 63 < s then ldgEnds v 8
    else
      let st := lst v s
      if op = 4 && !canSign v then ldgEnds (setFault v pLdg 6) 9
      else if !st.progs.isEmpty || (op = 4 && (st.signing.isSome || st.due != 0)) then v
      else ldgEnds v 0
  else if op = 5 then ldgProve nv v worst
  else if op = 6 then ldgRead nv v worst
  else if op = 7 then
    let v := if v.ldg.ending && !canSign v then (List.range 64).foldl (fun v s => flushStream nv v s) v else v
    let open' := (List.range 64).any fun s => !(lst v s).progs.isEmpty || (canSign v && ((lst v s).signing.isSome || (lst v s).due != 0))
    if !v.ldg.ending || open' then v
    else
      let unsigned := (List.range 64).any fun s => (lst v s).signing.isSome || (lst v s).segTicks.isSome
      let v := rgClr (setLdg v fun l => { l with streams := [], pool := [], erasing := [], lunq := [] }) (aStat pLdg) 1
      ldgEnds v (if unsigned || !canSign v then 9 else 0)
  else ldgStage nv v op worst

/-- A write of LDG_CMD by a master that starts FORMAT or MOUNT: what the command finds on the NAND goes with it. -/
def ldgCommand (nv : Nv) (v : Vol) (m op : Nat) (scan : Option NandScan) : Vol :=
  let idle := v.ldg.op = 0
  let v := busWrite nv v m .word (aLdg 0x080) (TWord.ofWord (BitVec.ofNat 32 op))
  if idle ∧ v.ldg.op = op then setLdg v fun l => { l with scan := scan } else v

end Sys2Proof.Machine
end

