-- ==== Sys2Proof/Machine/LksCmd.lean ====
section
/-! DEFINITION. Locksmith's commands (R515-R526) and the service-port protocol (R500-R504). Locksmith moves data as master 13.
A command answers its status, none while it waits for a domain to wake; 255 stands for a reset of the part. -/

namespace Sys2Proof.Machine

abbrev LksRes := Nv × Vol × Option Nat

/-- Read n bytes from an address and go on; a response other than OKAY ends the command with BUS. -/
def lksGet (nv : Nv) (v : Vol) (a n : Nat) (k : Vol → List Byte → LksRes) : LksRes :=
  match beatsRead nv 13 0 .word false (n / 4) a v with
  | (v, _, _, true) => (nv, v, none)
  | (v, ws, 0, false) =>
    (match beatsRead nv 13 0 .byte false (n % 4) ((a + n / 4 * 4) % 2 ^ 32) v with
    | (v, _, _, true) => (nv, v, none)
    | (v, bs, 0, false) => k v (bytesOf ws ++ bs.map fun w => w.setWidth 8)
    | (v, _, _, false) => (nv, v, some 17))
  | (v, _, _, false) => (nv, v, some 17)

/-- Write bytes to an address and go on. -/
def lksPut (nv : Nv) (v : Vol) (a : Nat) (bs : List Byte) (k : Vol → LksRes) : LksRes :=
  let n := bs.length / 4 * 4
  match beatsWrite nv 13 0 .word false (wordsOf (bs.take n)) a v with
  | (v, _, _, true) => (nv, v, none)
  | (v, _, 0, false) =>
    (match beatsWrite nv 13 0 .byte false ((bs.drop n).map fun b => b.setWidth 32) ((a + n) % 2 ^ 32) v with
    | (v, _, _, true) => (nv, v, none)
    | (v, _, 0, false) => k v
    | (v, _, _, false) => (nv, v, some 17))
  | (v, _, _, false) => (nv, v, some 17)

def lksArg (v : Vol) (i : Nat) : Nat := (rg v (aLks 0 (0x044 + 4 * i))).toNat
def lksEnd (nv : Nv) (v : Vol) (s : Nat) : LksRes := (nv, v, some s)

/-- n bytes of the TRNG (R526). -/
def randomBytes (v : Vol) (n : Nat) : Vol × List Byte :=
  let k := (n + 3) / 4
  ({ v with free := v.free + k }, ((List.range k).flatMap fun i => wordBytes (Config.trng (v.free + i))).take n)

/-! ### User keys (R482, R526) -/

/-- A user slot that holds a key of n bytes: 32 AES-256, 48 P-384. -/
def userKey (v : Vol) (s n : Nat) : Option (List Byte) :=
  if 4 ≤ s ∧ s ≤ 7 ∧ (slotOf v s).length = n then some (slotOf v s) else none

/-- The status of a slot argument that holds no such key. -/
def slotStatus (s : Nat) : Nat := if 4 ≤ s ∧ s ≤ 7 then 2 else 18

/-- The 128-byte blob of a user key: kind, IV, ciphertext, tag, sealed under USK (log entry 16). -/
def keyBlob (nv : Nv) (iv key : List Byte) : List Byte :=
  let kind : List Byte := [if key.length = 48 then 1 else 0, 0, 0, 0]
  let c := Config.gcmSeal (keyUsk nv) iv kind key
  padTo 128 (kind ++ iv ++ c.1 ++ c.2)

def openBlob (nv : Nv) (b : List Byte) : Option (List Byte) :=
  let n := if byteAt b 0 = 1 then 48 else 32
  Config.gcmOpen (keyUsk nv) ((b.drop 4).take 12) (b.take 4) ((b.drop 16).take n) ((b.drop (16 + n)).take 16)

/-! ### Orders and tokens (R488, R517, R518) -/

/-- The status of the signer of an order: its root slot at byte i, its key at byte k, its signature after n bytes. -/
def signerStatus (nv : Nv) (m : List Byte) (i k n : Nat) : Nat :=
  if !rootKeyOk nv (byteAt m i) ((m.drop k).take 96) then 4 else if !sigOver m n k then 3 else 0

/-- The challenge of the command as bytes (R519). -/
def chalBytes (v : Vol) : List Byte := (List.range 4).flatMap fun i => wordBytes (Config.trng (v.lks.cmdChal + i))

/-- The status of a debug token (R518). -/
def tokenStatus (nv : Nv) (v : Vol) (t : List Byte) : Nat :=
  let dur := (leWord t 40).toNat
  if t.take 5 != [0x44, 0x42, 0x47, 0x54, 1] ∨ 3 < byteAt t 6 ∨ byteAt t 7 ≠ 0 then 1
  else if (t.drop 8).take 16 != serialOf nv ∨ (t.drop 24).take 16 != chalBytes v ∨ dur = 0 ∨ 86400 < dur
      ∨ (leWord t 44).toNat ≠ counterOf nv 1 then 18
  else signerStatus nv t 5 48 144

/-- DBGAUTH (R518, R519). -/
def debugAuth (nv : Nv) (v : Vol) (t : List Byte) : LksRes :=
  let s := tokenStatus nv v t
  if s ≠ 0 then lksEnd nv v s
  else
    let v := rgSet v (aLks 2 0x054) (BitVec.ofNat 32 (byteAt t 6))
    let v := setLks v fun l => { l with dbgDone := wall v + (leWord t 40).toNat * 400000000 }
    lksEnd nv (raiseEvent (raiseEvent v pLks 6) pDbg 0) 0

/-- The status of a life-cycle order (R488). -/
def orderStatus (nv : Nv) (v : Vol) (target : Nat) (m : List Byte) : Nat :=
  if m.take 4 != [0x4C, 0x43, 0x41, 0x31] ∨ byteAt m 6 ≠ 0 ∨ byteAt m 7 ≠ 0 then 1
  else if byteAt m 4 ≠ target ∨ (m.drop 8).take 16 != serialOf nv ∨ (m.drop 24).take 16 != chalBytes v then 18
  else signerStatus nv m 5 40 136

/-- The change to a life-cycle state (R489): its fuse field burns, what it erases goes, the part resets; a burn that failed is
completed at the boot if the field is torn (R486; log entry 70). -/
def lcBurn (nv : Nv) (v : Vol) (target : Nat) : LksRes :=
  let (nv, v, _) := burnField nv v (target - 2)
  let nv :=
    if target = 4 then flashErase nv 0x1020000 0x60000
    else if target = 5 then flashErase nv 0x1000000 0x80000
    else nv
  let (nv, v, _) := if target = 5 then burnWords nv v 0x80 (List.replicate 32 0xFFFFFFFF) else (nv, v, true)
  (nv, wholeReset v 5 none, some 255)

/-- The status of a burn or a record whose read-back agreed or not (R502). -/
def wroteStatus (ok : Bool) : Nat := if ok then 0 else 11

/-- LCSTEP (R487-R489). -/
def lcStep (nv : Nv) (v : Vol) : LksRes :=
  let lc := lcCode nv
  let t := lksArg v 0
  if lc = 1 ∧ t = 2 then
    let v := devLook nv (devLook nv v 2) 3
    let ok := (List.range 3).any (rootFilled nv) && (otpBytes nv 0x80 128).any (· != 0) && (devRecord nv 2).isSome && (devRecord nv 3).isSome
    if ok then lcBurn nv v 2 else lksEnd nv v 2
  else if (lc = 2 ∧ (t = 3 ∨ t = 5)) ∨ (lc = 4 ∧ t = 5) then lcBurn nv v t
  else if lc = 3 ∧ (t = 4 ∨ t = 5) then
    lksGet nv v (lksArg v 1) 232 fun v m =>
      let s := orderStatus nv v t m
      if s ≠ 0 then lksEnd nv v s else lcBurn nv v t
  else lksEnd nv v 13

/-- REVOKE (R517). -/
def revokeSlot (nv : Nv) (v : Vol) (m : List Byte) : LksRes :=
  let s := byteAt m 4
  let signer := byteAt m 16
  let left := (List.range 3).countP fun i => rootFilled nv i && !rootRevoked nv i
  if m.take 4 != [0x52, 0x56, 0x4B, 0x31] || (m.drop 5).take 3 != [0, 0, 0] || ((m.drop 17).take 7).any (· != 0) then lksEnd nv v 1
  else if 2 < s then lksEnd nv v 18
  else if (m.drop 8).take 8 != productOf nv then lksEnd nv v 6
  else if signer = s ∨ !rootFilled nv s ∨ rootRevoked nv s ∨ left ≤ 1 ∨ byteAt (planeMan nv (activePlane v)) 100 = s then lksEnd nv v 4
  else
    let st := signerStatus nv m 16 24 120
    if st ≠ 0 then lksEnd nv v st
    else (let r := burnWord nv v (0x3C0 + 4 * s) 0xFFFFFFFF; lksEnd r.1 r.2.1 (wroteStatus r.2.2))

/-! ### Commands (R526) -/

/-- Whether the life-cycle state, or the pause or probation, is one that a command lists. -/
def lksAllowed (nv : Nv) (v : Vol) (op : Nat) : Bool :=
  let lc := lcCode nv
  if op = 3 ∨ op = 7 ∨ op = 8 ∨ op = 19 then true
  else if op = 4 ∨ op = 5 then probOpen v
  else if op = 1 ∨ op = 2 ∨ op = 6 then decide (2 ≤ lc) && decide (lc ≤ 4)
  else if op = 15 then lc == 3
  else if op = 16 ∨ op = 17 ∨ op = 18 then lc == 1
  else lc == 2 || lc == 3

/-- VERIFY of the inactive plane (R491, R504). -/
def verifyInactive (nv : Nv) (v : Vol) : Vol × Nat :=
  if probRuns v then (v, 10)
  else
    let p := 1 - activePlane v
    let s := if v.flc.op ≠ 0 ∧ v.flc.op ≠ 4 ∧ v.flc.addr / 0x800000 = p then 17 else planeStatus nv v p
    (if s = 0 then planeMark nv v p else v, s)

/-- AEAD (R526): its descriptor is 8 words. -/
def lksAead (nv : Nv) (v : Vol) : LksRes :=
  let dec := lksArg v 0 % 2 = 1
  let s := lksArg v 0 / 16 % 8
  match userKey v s 32 with
  | none => lksEnd nv v (slotStatus s)
  | some key =>
    lksGet nv v (lksArg v 1) 32 fun v d =>
      let w (i : Nat) : Nat := (leWord d (4 * i)).toNat
      lksGet nv v (w 1) 12 fun v iv => lksGet nv v (w 2) (w 3) fun v aad => lksGet nv v (w 4) (w 6) fun v inp =>
        if dec then
          lksGet nv v (w 7) 16 fun v tag =>
            match Config.gcmOpen key iv aad inp tag with
            | none => lksEnd nv v 8
            | some out => lksPut nv v (w 5) (padTo (w 6) (out.take (w 6))) fun v => lksEnd nv v 0
        else
          let c := Config.gcmSeal key iv aad inp
          lksPut nv v (w 5) (padTo (w 6) (c.1.take (w 6))) fun v => lksPut nv v (w 7) (padTo 16 (c.2.take 16)) fun v => lksEnd nv v 0

/-- UKGEN and UKLOAD (R481, R526). -/
def lksUkgen (nv : Nv) (v : Vol) : LksRes :=
  let s := lksArg v 0 % 256
  let p384 := lksArg v 0 / 256 % 2 = 1
  if s < 4 ∨ 7 < s then lksEnd nv v 18
  else
    let r := randomBytes v ((if p384 then 48 else 32) + 12)
    let key := r.2.drop 12
    lksPut nv r.1 (lksArg v 3) (keyBlob nv (r.2.take 12) key ++ if p384 then padTo 96 (Config.p384Public key) else []) fun v =>
      lksEnd nv (setSlot v s key) 0

def lksUkload (nv : Nv) (v : Vol) : LksRes :=
  let s := lksArg v 0
  if s < 4 ∨ 7 < s then lksEnd nv v 18
  else
    lksGet nv v (lksArg v 1) 128 fun v b =>
      match openBlob nv b with
      | some k => lksEnd nv (setSlot v s k) 0
      | none => lksEnd nv v 8

/-- IDGEN (R526): the identity key's OTP blob and LKS_IDPUB. The next boot loads slot 0 from the blob (R481). -/
def lksIdgen (nv : Nv) (v : Vol) : LksRes :=
  if (otpBytes nv 0x80 128).any (· != 0) then lksEnd nv v 2
  else
    let (v, r) := randomBytes v 60
    let c := Config.gcmSeal keyDsk (r.take 12) [] (r.drop 12)
    match burnWords nv v 0x80 (wordsOf (padTo 128 (r.take 12 ++ c.1.take 48 ++ c.2.take 16))) with
    | (nv, v, false) => lksEnd nv v 11
    | (nv, v, true) => lksEnd nv (putRegs v (aLks 3 0x040) (padTo 96 (Config.p384Public (r.drop 12)))) 0

/-- PROVDATA (R484, R522). -/
def lksProv (nv : Nv) (v : Vol) : LksRes :=
  if lksArg v 0 = 1 then
    lksGet nv v (lksArg v 1) 32 fun v key =>
      let (v, iv) := randomBytes v 12
      let c := Config.gcmSeal keyDsk iv [] key
      let r := devWriteTry nv v 2 (padTo 64 (iv ++ c.1.take 32 ++ c.2.take 16))
      lksEnd r.1 r.2.1 (wroteStatus r.2.2)
  else if lksArg v 0 = 2 then
    lksGet nv v (lksArg v 1) 224 fun v cert =>
      let r := devWriteTry nv v 3 cert
      lksEnd r.1 r.2.1 (wroteStatus r.2.2)
  else lksEnd nv v 18

/-- What a command does and its status. -/
def lksRun (nv : Nv) (v : Vol) (op : Nat) : LksRes :=
  let a (i : Nat) : Nat := lksArg v i
  if op = 0 ∨ 20 < op then lksEnd nv v 18
  else if !lksAllowed nv v op then lksEnd nv v 13
  else if op = 1 then (let r := verifyInactive nv v; lksEnd nv r.1 r.2)
  else if op = 2 then
    let s := activateStatus nv v
    if s ≠ 0 then lksEnd nv v s
    else
      let r := activateGo nv v (a 0 + a 1 * 2 ^ 32)
      (r.1, r.2, some (if v.lks.recovery then 255 else 0))
  else if op = 3 then lksEnd nv v (if v.lks.early then 0 else 2)
  else if op = 4 then (let r := confirmImage nv v; lksEnd r.1 r.2.1 r.2.2)
  else if op = 5 then (let r := fallBack nv v; (r.1, r.2, some 0))
  else if op = 6 then
    if !canSign v then lksEnd nv v 3
    else lksGet nv v (a 0) 32 fun v nonce => lksPut nv (nextFree v) (a 3) (quoteBytes nv v nonce) fun v => lksEnd nv (devLook nv v 3) 0
  else if op = 7 then
    if 2 ^ 20 < a 1 then lksEnd nv v 18
    else lksGet nv v (a 0) (a 1) fun v m => lksPut nv v (a 3) (padTo 48 (Config.sha384 m)) fun v => lksEnd nv v 0
  else if op = 8 then
    if a 1 = 0 ∨ 4096 < a 1 then lksEnd nv v 18
    else (let r := randomBytes v (a 1); lksPut nv r.1 (a 3) r.2 fun v => lksEnd nv v 0)
  else if op = 9 then lksAead nv v
  else if op = 10 then
    match userKey v (a 0) 48 with
    | none => lksEnd nv v (slotStatus (a 0))
    | some k => lksGet nv v (a 1) 96 fun v peer => lksPut nv v (a 3) (padTo 48 (Config.ecdhShared k peer)) fun v => lksEnd nv v 0
  else if op = 11 then
    match userKey v (a 0) 48 with
    | none => lksEnd nv v (slotStatus (a 0))
    | some k =>
      if v.lks.noSign then lksEnd nv v 3
      else lksGet nv v (a 1) 48 fun v d => lksPut nv (nextFree v) (a 3) (padTo 96 (Config.ecdsaSign k d v.free)) fun v => lksEnd nv v 0
  else if op = 12 then lksUkgen nv v
  else if op = 13 then lksUkload nv v
  else if op = 14 then
    if a 0 < 4 ∨ 7 < a 0 then lksEnd nv v 18
    else if 1024 ≤ counterOf nv (a 0) then lksEnd nv v 16
    else (let r := counterTo nv v (a 0) (counterOf nv (a 0) + 1); lksEnd r.1 r.2.1 (wroteStatus r.2.2))
  else if op = 15 then
    if v.lks.tokBuf then debugAuth nv v ((List.range 60).flatMap fun i => wordBytes (rg v (ra pDbg (0x100 + 4 * i))))
    else lksGet nv v (a 1) 240 fun v t => debugAuth nv v t
  else if op = 16 then
    if 2 < a 0 then lksEnd nv v 18
    else if rootFilled nv (a 0) then lksEnd nv v 2
    else lksGet nv v (a 1) 48 fun v h => (let r := burnWords nv v (0x300 + 48 * a 0) (wordsOf h); lksEnd r.1 r.2.1 (wroteStatus r.2.2))
  else if op = 17 then lksIdgen nv v
  else if op = 18 then lksProv nv v
  else if op = 19 then lcStep nv v
  else lksGet nv v (a 1) 216 fun v m => revokeSlot nv v m

/-- The status reaches LKS_CMDST with event 0 or 1, and the challenge changes after DBGAUTH and LCSTEP (R519); that of a DBGAUTH from DBG_TOKBUF reaches DBG_AUTHST (R526, R590). -/
def lksAnswer (v : Vol) (s : Nat) : Vol :=
  let v := if v.lks.op = 15 ∨ v.lks.op = 19 then newChallenge v else v
  let v := setLks v fun l => { l with idq := l.idq.filter (· != 64) }
  if v.lks.tokBuf then
    rgSet (setLks (rbSet v (aLks 0 0x054) 31 false) fun l => { l with op := 0, tokBuf := false }) (ra pDbg 0x044) (BitVec.ofNat 32 s)
  else
    raiseEvent (rgSet (setLks v fun l => { l with op := 0 }) (aLks 0 0x054) (BitVec.ofNat 32 s)) pLks (if s = 0 then 0 else 1)

/-- A command ends (R524, R526): a glitch has aborted it; a QUOTE waits for the operations requested before it (R483). -/
def lksEnds (nv : Nv) (v : Vol) : Nv × Vol :=
  if !ready v pLks || !rb v (aLks 0 0x054) 31 then (nv, v)
  else if v.lks.glitched then (nv, lksAnswer v 15)
  else if v.lks.op = 6 ∧ canSign v = true ∧ idNext v ≠ some 64 then (nv, v)
  else
    match lksRun nv v v.lks.op with
    | (nv, v, none) => (nv, v)
    | (nv, v, some s) => (nv, if s = 255 then v else lksAnswer v s)

/-- A command ends, and the identity-key operations that waited for it go on. -/
def lksDone (nv : Nv) (v : Vol) : Nv × Vol :=
  let r := lksEnds nv v
  idGoes r.1 r.2

/-! ### The service port (R500-R504) -/

/-- Whether a message is well formed: magic, direction, length and check value (R500). -/
def messageOk (magic : List Byte) (msg : List Byte) : Bool :=
  decide (16 ≤ msg.length) && msg.take 4 == magic && byteAt msg 5 == 0 && (leWord msg 8).toNat == msg.length - 16
    && leWord msg 12 == crc32c (msg.take 12 ++ msg.drop 16)

/-- The manifest of the session, and its length once known. -/
def manTotal (m : List Byte) : Option Nat := if m.length < 32 then none else some (608 + 48 * manN m)

/-- Locksmith's programming of bytes of flash (R502): a program that fails its read-back leaves what FLC's would. Answers whether it agrees. -/
def unitsTry (nv : Nv) (v : Vol) (a : Nat) (bs : List Byte) : Nv × Vol × Bool :=
  if Config.flashFails v.free then
    let n := (bs.length + 15) / 16 * 16
    (flashFailed nv a n v.free, raiseEvent (setFault { v with free := v.free + n / 4 } pFlc 4) pFlc 1, false)
  else (unitsWrite nv a bs, nextFree v, true)

/-- A plane takes a new image: erased, its manifest programmed (R497, R503). Answers whether both succeeded. -/
def planeStart (nv : Nv) (v : Vol) (p : Nat) : Nv × Vol × Bool :=
  let v := planeUnverify v p
  if Config.flashFails v.free then (flashErased nv (p * 0x800000) 0x800000 v.free, nextFree v, false)
  else unitsTry (flashErase nv (p * 0x800000) 0x800000) (nextFree v) (manifestAt p) v.lks.man

/-- Locksmith programs bytes of the inactive plane through FLC (R38, R243, R244, R511): the plane is unverified from the start;
a target that probation locks or that is not erased is refused as FLC refuses it. The status is 0, LOCKED or FLASH. -/
def planeProgram (nv : Nv) (v : Vol) (a : Nat) (bs : List Byte) : Nv × Vol × Nat :=
  if probRuns v then (nv, raiseEvent (setFault v pFlc 0) pFlc 1, 10)
  else
    let v := planeUnverify v (a / 0x800000)
    if !flashIsBlank nv a bs.length then (nv, raiseEvent (setFault v pFlc 1) pFlc 1, 11)
    else (let r := unitsTry nv v a bs; (r.1, r.2.1, wroteStatus r.2.2))

/-- The checks that follow the last byte of a manifest (R503). -/
def manArrived (nv : Nv) (v : Vol) : Nat :=
  let p := 1 - activePlane v
  let s := manStatus nv v v.lks.man p
  if s ≠ 0 then s
  else if manSv v.lks.man < counterOf nv 0 then 5
  else if !v.lks.staged && probRuns v then 10
  else if v.lks.staged && decide (stagingUnits v < manN v.lks.man) then 12
  else if v.flc.op ≠ 0 then 14
  else 0

/-- MANIFEST. -/
def svcManifest (nv : Nv) (v : Vol) (msg : List Byte) : Nv × Vol :=
  let pay := msg.drop 16
  let off := (leWord pay 0).toNat
  let data := pay.drop 4
  if v.lks.phase ≠ 2 then (nv, svcAnswer v msg 2 [])
  else if data.isEmpty ∨ 4096 < data.length then (nv, svcAnswer v msg 1 [])
  else if v.lks.man.length < off then (nv, svcAnswer v msg 18 [])
  else
    let m := v.lks.man.take off ++ data ++ v.lks.man.drop (off + data.length)
    let v := setLks v fun l => { l with man := m }
    match manTotal m with
    | none => (nv, svcAnswer v msg 0 [])
    | some n =>
      if manN m = 0 ∨ 2016 < manN m ∨ n < m.length then (nv, svcAnswer (setLks v fun l => { l with man := [] }) msg 1 [])
      else if m.length < n then (nv, svcAnswer v msg 0 [])
      else
        let s := manArrived nv v
        if s ≠ 0 then (nv, svcAnswer (setLks v fun l => { l with man := [] }) msg s [])
        else
          match (if v.lks.staged then (nv, v, true) else planeStart nv v (1 - activePlane v)) with
          | (nv, v, true) => (nv, svcAnswer (setLks v fun l => { l with phase := 3, stored := [] }) msg 0 [])
          | (nv, v, false) => (nv, svcAnswer (setLks v fun l => { l with man := [] }) msg 11 [])

/-- BLOCK (R499, R503). -/
def svcBlock (nv : Nv) (v : Vol) (msg : List Byte) : Nv × Vol :=
  let pay := msg.drop 16
  let b := (leWord pay 0).toNat
  let ct := (pay.drop 4).take 4096
  let tag := (pay.drop 4104).take 16
  let man := v.lks.man
  let hashOk := Config.sha384 ct == (man.drop (512 + 48 * b)).take 48
  let iv := (man.drop 16).take 8 ++ beBytes 4 b
  if v.lks.phase ≠ 3 then (nv, svcAnswer v msg 2 [])
  else if pay.length ≠ 4120 then (nv, svcAnswer v msg 1 [])
  else if manN man ≤ b then (nv, svcAnswer v msg 18 [])
  else if leWord pay 4100 ≠ crc32c (ct ++ tag) then (nv, svcAnswer v msg 8 [])
  else if (match manKey v man with | some k => (Config.gcmOpen k iv ((man.drop 8).take 24) ct tag).isNone | none => true) then
    (nv, svcAnswer v msg 8 [])
  else if !hashOk then (nv, svcAnswer v msg 9 [])
  else if v.lks.stored.contains b then (nv, svcAnswer v msg 0 [])
  else if v.lks.staged && !ldgMounted v then (nv, svcAnswer v msg 12 [])
  else if !v.lks.staged && v.flc.op != 0 then (nv, svcAnswer v msg 14 [])
  else
    let kept (v : Vol) : Vol := setLks v fun l => { l with stored := l.stored ++ [b] }
    if v.lks.staged then
      let r := stagingWrite nv (nextFree v) b ct (!Config.flashFails v.free)
      (nv, if r.2 then svcAnswer (kept r.1) msg 0 [] else svcAnswer r.1 msg 11 [])
    else
      let (nv, v, s) := planeProgram nv v ((1 - activePlane v) * 0x800000 + 4096 * b) ct
      (nv, svcAnswer (if s = 0 then kept v else v) msg s [])

/-- INSTALL (R503, R504): the staged blocks are copied into the inactive plane. -/
def svcInstall (nv : Nv) (v : Vol) (msg : List Byte) : Nv × Vol :=
  let n := manN v.lks.man
  if probRuns v then (nv, svcAnswer v msg 10 [])
  else if v.lks.phase ≠ 3 ∨ !v.lks.staged ∨ v.lks.stored.length < n then (nv, svcAnswer v msg 2 [])
  else if !ldgMounted v then (nv, svcAnswer v msg 12 [])
  else if v.flc.op ≠ 0 then (nv, svcAnswer v msg 14 [])
  else
    let p := 1 - activePlane v
    let r := planeStart nv v p
    let (nv, v, s) := (List.range n).foldl (fun r b =>
      if r.2.2 ≠ 0 then r else planeProgram r.1 r.2.1 (p * 0x800000 + 4096 * b) (stagingUnit v b)) (r.1, r.2.1, wroteStatus r.2.2)
    (nv, svcAnswer (if s = 0 then setLks v fun l => { l with phase := 4 } else v) msg s [])

/-- The phase that STATUS answers (R501). -/
def svcPhase (v : Vol) : Nat :=
  if switchWaits v || v.lks.pauseAt.isSome then 4
  else if probRuns v then 5
  else [0, 0, 1, 2, 2, 3].getD v.lks.phase 0

/-- The HELLO response beyond the status (R501). -/
def helloBytes (nv : Nv) (v : Vol) : List Byte :=
  let act := activePlane v
  leBytes 4 (lcCode nv) ++ serialOf nv ++ productOf nv
    ++ [BitVec.ofNat 8 act, BitVec.ofNat 8 (b2n (probRuns v) + b2n (planeVerified v (1 - act)) * 2
      + b2n (ldgMounted v && decide (0 < stagingUnits v)) * 4), 0, 0]
    ++ leBytes 4 (counterOf nv 0) ++ leBytes 4 (planeSv nv act) ++ (List.range 12).flatMap (fun i => wordBytes (rg v (aLks 3 (0x0C0 + 4 * i))))

/-- A message of the operation `op` arrives on the update endpoint (R500-R504, R584); a QUOTE waits for the signatures requested
before it (R483). -/
def svcMessage (nv : Nv) (v : Vol) (op : Nat) (msg : List Byte) : Nv × Vol :=
  let pay := msg.drop 16
  let lc := lcCode nv
  let v := if svcUp v then setLks v fun l => { l with msgAt := wall v } else v
  if !svcUp v || !ready v pLks || lc == 5 then (nv, v)
  else if !messageOk magicUpdate msg || byteAt msg 4 != op then (nv, svcAnswer v msg 1 [])
  else if lc = 1 then (nv, svcAnswer v msg 13 [])
  else if op = 1 then
    (nv, svcAnswer (setLks (sessionEnds v) fun l => { l with session := true, phase := 1 }) msg 0 (helloBytes nv v))
  else if op = 2 then
    let staged := byteAt pay 0 % 2 = 1
    if pay.length ≠ 4 then (nv, svcAnswer v msg 1 [])
    else if v.lks.phase ≠ 1 then (nv, svcAnswer v msg 2 [])
    else if !staged && probRuns v then (nv, svcAnswer v msg 10 [])
    else if staged && !ldgMounted v then (nv, svcAnswer v msg 12 [])
    else (nv, svcAnswer (setLks v fun l => { l with phase := 2, staged := staged, man := [], stored := [] }) msg 0 [])
  else if op = 3 then svcManifest nv v msg
  else if op = 4 then svcBlock nv v msg
  else if op = 5 then svcInstall nv v msg
  else if op = 6 then
    if probRuns v then (nv, svcAnswer v msg 10 [])
    else if v.lks.phase = 4 || (v.lks.phase = 3 && !v.lks.staged && decide (manN v.lks.man ≤ v.lks.stored.length)) then
      let (v, s) := verifyInactive nv v
      (nv, svcAnswer (if s = 0 then setLks v fun l => { l with phase := 5 } else v) msg s [])
    else (nv, svcAnswer v msg 2 [])
  else if op = 7 then
    if pay.length ≠ 8 then (nv, svcAnswer v msg 1 [])
    else if v.lks.phase ≠ 5 then (nv, svcAnswer v msg 2 [])
    else
      let s := activateStatus nv v
      if s ≠ 0 then (nv, svcAnswer v msg s [])
      else activateGo nv (svcAnswer v msg 0 []) ((leWord pay 0).toNat + (leWord pay 4).toNat * 2 ^ 32)
  else if op = 8 then
    (nv, svcAnswer v msg 0 ([BitVec.ofNat 8 (svcPhase v), 0, 0, 0] ++ leBytes 4 v.lks.stored.length
      ++ leBytes 4 (if probRuns v then secsTo v v.lks.probEnd else 0)))
  else if op = 9 then (nv, svcAnswer (sessionEnds v) msg 0 [])
  else
    if pay.length ≠ 32 then (nv, svcAnswer v msg 1 [])
    else if !canSign v then (nv, svcAnswer v msg 3 [])
    else idGoes nv (setLks v fun l => { l with quoteQ := some msg, idq := l.idq ++ [65] })

/-- A session has had no message for 60 s (R500). -/
def sessionTimesOut (v : Vol) : Vol :=
  if v.lks.session then sessionEnds (wallTo v (v.lks.msgAt + 24000000000)) else v

end Sys2Proof.Machine
end

