-- ==== Sys2Proof/Machine/Streams.lean ====
section
/-! DEFINITION. The request streams of master 15 that go on by themselves (R38): the words of a host SPI read (R579) and those of a
diagnostic message (R583), and what waited for domains or blocks that have come up (R285). -/

namespace Sys2Proof.Machine

/-- Whether the part refuses a host SPI access (R580). -/
def hspRefuses (v : Vol) (write : Bool) (a : Nat) : Bool :=
  a % 4 != 0 || !rb v (aCtl pHsp) 0 || (write && !rb v (aCtl pHsp) 1)

/-- A refused access: a write sets FAULT.REFUSED. -/
def hspRefused (v : Vol) (write : Bool) : Vol := raiseEvent (if write then setFault v pHsp 0 else v) pHsp 0

/-- Whether a request of a stream of master 15 waits: of host SPI, one of the transaction in progress (R580). -/
def streamWaits (v : Vol) (id : Nat) : Bool :=
  decide ((if id = 1 then v.hsp.stale else 0) < v.parked.countP fun q => q.master == 15 && q.id == id)

/-- The next word of a host SPI read (R579): its read, the marker of a word that is not ready, or that of a refused access. The word
read is shown as it arrives (`hspArrives`). -/
def hspStep (nv : Nv) (v : Vol) : Vol :=
  let put (v : Vol) (l : List Byte) : Vol := { v with hsp := { v.hsp with out := v.hsp.out ++ l } }
  match v.hsp.left with
  | none => v
  | some (n, a) =>
    if !ready v pHsp then { v with hsp := { v.hsp with out := v.hsp.out ++ List.replicate (5 * n) 0xFF, kind := 0, left := none } }
    else if hspRefuses v false a then
      put (hspRefused { v with hsp := { v.hsp with left := none } } false) [0xE8]
    else
      let v := busAccess nv v ⟨15, 1, false, .word, a, TWord.zero⟩
      if streamWaits v 1 then put v [0xFF] else v

/-- The next word of a diagnostic READ or WRITE (R583): what it moved is kept as it arrives (`diagArrives`). -/
def diagStep (nv : Nv) (v : Vol) : Vol :=
  let msg := v.svc.diag
  let i := v.svc.got.length
  busAccess nv v ⟨15, 2, diagWrites msg, .word, diagAddr msg i, ⟨(diagWords msg).getD i 0, Tag.raw⟩⟩

/-- Whether a stream has a word to move now: a host SPI read (1), a diagnostic message (2). -/
def streamReady (v : Vol) (id : Nat) : Bool :=
  !streamWaits v id && (if id = 1 then v.hsp.kind == 2 && v.hsp.left.isSome else !v.svc.diag.isEmpty)

/-- The streams of master 15 go on, a word of each in turn (R38), until both wait or have ended. -/
def streamsGo (nv : Nv) : Nat → Vol → Vol
  | 0, v => v
  | n + 1, v =>
    if streamReady v 1 && (!streamReady v 2 || decide (streamTurn v 1 < streamTurn v 2)) then streamsGo nv n (hspStep nv v)
    else if streamReady v 2 then streamsGo nv n (diagStep nv v)
    else v

/-- The words that the streams still have to move, the word that a host SPI read begins behind its last one among them. -/
def streamWords (v : Vol) : Nat :=
  (match v.hsp.left with | some (n, _) => n + 1 | none => 0) + ((diagWords v.svc.diag).length - v.svc.got.length)
abbrev streamsRun (nv : Nv) (v : Vol) : Vol := streamsGo nv (streamWords v) v

/-- What waited for domains or blocks that have come up goes on (R285). -/
def goOn (nv : Nv) (v : Vol) : Vol :=
  let v := flushParked nv v
  streamsRun nv v

/-- A request that waits loses to an access of another master that waited too; it goes on once that has been performed (R278). -/
def afterRival (nv : Nv) (v : Vol) (waited : Bool) : Vol := if waited && !v.parked.isEmpty then goOn nv v else v

/-- A DMA channel goes on by f; what lost to a beat of it that had waited follows (R278). -/
def dmaStep (nv : Nv) (v : Vol) (e c : Nat) (f : Nv → Vol → Nat → Nat → Vol) : Vol :=
  let v' := f nv v e c
  afterRival nv v' ((dmaOf v e c).wait.isSome && (dmaOf v' e c).wait.isNone)

end Sys2Proof.Machine
end

