-- ==== Sys2Proof/Machine/CoreBus.lean ====
section
/-! DEFINITION. What a core asks of the bus: the two halves of a split access (R104), the response of a held access (R138,
R198), the drain of the Ozhan-S store buffer (R208-R210) and the entry of the service core's interrupt (R300). -/

namespace Sys2Proof.Machine

/-- A masked word access to the n bytes at an address (R104, R276): a register page answers SLAVE. -/
def maskedRoute (nv : Nv) (v : Vol) (r : Req) (n : Nat) : Vol × Bool :=
  let p := (r.addr - 0x40000000) / 0x1000
  match (if 0x40000000 ≤ r.addr then pageInfo p else none) with
  | some inf => if domUp v inf.dom then (answer v 2 TWord.zero, false) else toDown v inf.dom
  | none =>
    let full : Req := { r with size := .word, addr := r.addr / 4 * 4 }
    let pick (x : Vol × Bool) : Vol × Bool :=
      ({ x.1 with ans := { x.1.ans with data := ⟨x.1.ans.data.data >>> (8 * (r.addr % 4)), x.1.ans.data.tag⟩ } }, x.2)
    match place r.addr with
    | some pl =>
      if wiping v pl.dom then (answer v 3 TWord.zero, false)
      else if !domUp v pl.dom then toDown v pl.dom
      else if pl.win ≠ .direct then (answer v 2 TWord.zero, false)
      else if !r.write then pick (sramAccess v pl full)
      else
        match sramStore (sharedTurn v r.master pl).1 r.master 4 full.addr pl (byteMask (r.addr % 4) n) ⟨r.data.data <<< (8 * (r.addr % 4)), r.data.tag⟩ with
        | (some v, _) => (answer v 0 TWord.zero, false)
        | (none, v) => (answer v 2 TWord.zero, false)
    | none => if r.addr < 0x1084000 then pick (flashAccess nv v full) else (decodeError v r, false)

/-- One transaction of core k for n bytes inside one word, with the next ID of its counter (R628). The answer tells whether it
waits for auto-wake; one whose count has reached MTX_TMO is answered TIMEOUT (R282). -/
def coreBeat (nv : Nv) (v : Vol) (k : Nat) (write : Bool) (a n : Nat) (w : TWord) : Vol × Bool :=
  let sz : Size := if n = 4 then .word else if n = 2 then .half else .byte
  let r : Req := ⟨k, (coreOf v k).busId, write, sz, a, w⟩
  let one (v : Vol) : Vol × Bool := if n = 3 then busBy (fun v => maskedRoute nv v r 3) v r else busOne nv v r
  let x := match v.mtx.late.find? fun t => t.1 == k && t.2.2 == a with
    | some t => (busLateBy (fun v => (one v).1) v write t, false)
    | none => one v
  if x.2 then x else ({ dmaSettle nv (idTaken (noteGrant x.1 r) k r.id) with ans := x.1.ans }, false)

/-- The value of an n-byte load from the bytes of its words, lowest first (R102, R104). -/
def gatherLoad (k n : Nat) (sx : Bool) (ps : List (Nat × TWord)) : TWord :=
  match ps with
  | [(_, w)] => untag k (pickBytes w 0 n sx)
  | ps =>
    let x := ps.foldr (fun p acc => p.2.data.toNat % 2 ^ (8 * p.1) + 2 ^ (8 * p.1) * acc) 0
    pickBytes ⟨BitVec.ofNat 32 x, Tag.raw⟩ 0 n sx

/-- Whether a core's load of n bytes inside one word finds an uncorrectable SRAM word (R252): SRAMUNC, noted as response 8 + SLAVE. -/
def loadUnc (v : Vol) (a n : Nat) : Bool :=
  match place a with
  | some p => domUp v p.dom && (p.win == .direct || (n == 4 && a % 4 == 0)) && wordBad v v.free p.key
  | none => false

/-- What the halves of an access have answered: the state, the words read, the first response other than OKAY and whether the
second half alone failed; none while a half waits for auto-wake, when nothing of the access has been made. -/
def heldHalves (nv : Nv) (v : Vol) (k : Nat) (h : Held) : Option (Vol × List (Nat × TWord) × Nat × Bool) :=
  (halvesOf h.addr h.size).foldl (fun acc p =>
    match acc with
    | none => none
    | some (v, ws, code, _) =>
      let skip := 8 * (ws.map fun w => w.1).sum
      let unc := !h.write && loadUnc v p.1 p.2
      match coreBeat nv v k h.write p.1 p.2 ⟨h.data.data >>> skip, h.data.tag⟩ with
      | (_, true) => none
      | (v, false) =>
        let c := v.ans.code + if unc && v.ans.code == 2 then 8 else 0
        some (v, ws ++ [(p.2, v.ans.data)], if code = 0 then c else code, code == 0 && c != 0 && h.write && !ws.isEmpty)) (some (v, [], 0, false))

/-- The domains that the words of an access of core k wait for are started, and the access waits for them (R285). -/
def wakeFor (v : Vol) (k : Nat) (h : Held) : Vol :=
  (halvesOf h.addr h.size).foldl (fun v p =>
    let d := addrDom p.1
    if !domOn v d && autoWake v d then
      onHeld (startPower v d) k fun x => if x.addr = h.addr ∧ x.pc = h.pc then { x with wake := true } else x
    else v) v

/-- A core's access is performed by f; a close of its block's gate that waits for it stays in force (R286). -/
def keepingGate (v : Vol) (a : Nat) (f : Vol → Option (Vol × TWord × Nat × Bool)) : Option (Vol × TWord × Nat × Bool) :=
  let g := aGate (blockPage ((a - 0x40000000) / 0x1000))
  if decide (0x40000000 ≤ a) && rg v g == 1 then (f v).map fun x => (rgSet x.1 g 1, x.2) else f v

/-- The response of an access (R138): the state after it, the load's value, the response code and PARTIAL; none while it
waits for its targets to be READY (R285). A response forced from outside the target, and a value that the store buffer forwards, reach nothing. -/
def heldPerform (nv : Nv) (v : Vol) (k : Nat) (h : Held) : Option (Vol × TWord × Nat × Bool) :=
  match h.resp, h.fwd with
  | some r, _ => some (onCore v k fun c => { c with busId := (c.busId + 1) % 16 }, TWord.zero, r, false)
  | none, some w => some (v, w, 0, false)
  | none, none =>
    if h.wake && (halvesOf h.addr h.size).any fun p => !targetUp v p.1 then none
    else keepingGate v h.addr fun v => (heldHalves nv v k h).map fun x => (x.1, gatherLoad k h.size h.sx x.2.1, x.2.2.1, x.2.2.2)

/-- The response of a held access arrives (R138, R198): that of the oldest access in a frame first, which waits there
for the return; else issue is released, a load reaches lsu.d, and a response other than OKAY is a fault taken before the
next bundle. -/
def heldRespond (nv : Nv) (v : Vol) (k : Nat) : Vol :=
  let c := coreOf v k
  let inFrame := (fheldNext c).bind fun h => (heldPerform nv v k h.2).map fun x => (h, x)
  if !coreUp v k then v
  else
    match inFrame with
    | some ((dep, h), v, w, code, _) =>
      let h' := { h with done := true, data := w, resp := if code = 0 then none else some code }
      afterRival nv (gateSettle (settleDowns (onCore v k fun c =>
        { c with fheld := c.fheld.map fun p => if p.1 = dep then (dep, h') else p })) h.addr) h.wake
    | none =>
      let v := match fheldNext c with | some h => wakeFor v k h.2 | none => v
      match c.held with
      | none => v
      | some h =>
        match heldPerform nv v k h with
        | none => wakeFor v k h
        | some (v, w, code, part) =>
          let v := onCore v k fun c => { c with held := none, last := none }
          let v :=
            if code = 0 then (if h.write then v else onCore v k fun c => setRes c 38 w)
            else recordBus v k 0 { heldFault h code with part := part }
          let v := afterRival nv (gateSettle (settleDowns v) h.addr) h.wake
          if canEnter v k then afterIssue nv v k else v

/-! ### The store buffer (R208-R210) -/

/-- The first byte and the number of bytes that a buffered store names in its word. -/
def entBytes (e : StoreEnt) : Nat × Nat :=
  let on := (List.range 4).filter fun i => bit e.mask (8 * i)
  (on.headD 0, on.length)

/-- The oldest entry leaves with a response: an error is an imprecise BUS fault, or SBMORE while one is recorded, and core event 5
(R210, R213). -/
def drainDone (nv : Nv) (v : Vol) (e : StoreEnt) (code : Nat) : Vol :=
  let a := e.addr + (entBytes e).1
  let v := onCore v 8 fun c => { c with sbuf := c.sbuf.tail }
  let v :=
    if code = 0 then v
    else raiseEvent (recordBus v 8 1 { cfault 0x0F e.lane e.port e.pc with addr := a, resp := code, part := e.half, sb := true })
      (pCore 8) 5
  let was := (coreOf v 8).wait
  let v := settleDowns (endFence v 8)
  takeBehind nv v 8 was

/-- The oldest store-buffer entry reaches its target (R208): it waits there for auto-wake. -/
def drainOne (nv : Nv) (v : Vol) : Vol :=
  match (coreOf v 8).sbuf with
  | [] => v
  | e :: _ =>
    let (o, n) := entBytes e
    match coreBeat nv v 8 true (e.addr + o) n ⟨e.data >>> (8 * o), Tag.raw⟩ with
    | (v, true) => v
    | (v, false) => drainDone nv v e v.ans.code

/-- The store buffer drains while the part switches planes (R510). -/
def drainAll (nv : Nv) (v : Vol) : Vol := (List.range (coreOf v 8).sbuf.length).foldl (fun v _ => drainOne nv v) v

/-- MATRIX_TIMEOUT (R282) for any master: the store buffer's oldest entry, a half of which may wait, leaves with it; else a held access
or another master's request. -/
def requestTimeout (nv : Nv) (v : Vol) (m id a : Nat) : Vol :=
  if m = 8 && !(coreReqs (coreOf v 8)).contains a then
    match (coreOf v 8).sbuf with
    | e :: _ =>
      let b := e.addr + (entBytes e).1
      if a / 4 * 4 = e.addr ∧ counts v a then
        (let i := (coreOf v 8).busId
         drainOne nv { timeoutNoted v 8 i b with mtx := { v.mtx with late := v.mtx.late ++ [(8, i, b)] } })
      else matrixTimeout nv v m id a
    | [] => matrixTimeout nv v m id a
  else matrixTimeout nv v m id a

/-! ### The interrupt (R111, R197, R198, R300) -/

/-- Whether core 8 may take an interrupt: it runs, ICTL.IE is 1 and XSTAT.ACTIVE 0; a hold does not keep it. -/
def intAllowed (v : Vol) : Bool :=
  let c := coreOf v 8
  coreUp v 8 && c.run && !c.dfHalt && !c.safeHalt && !ctlBit v 8 5 && bit (sysW c 0x53) 0 && !xActive c

/-- The asserted source's interrupt enters its handler (R195, R198, R300); a recorded fault is taken before it. -/
def enterInterrupt (nv : Nv) (v : Vol) : Vol :=
  match intSource v with
  | none => v
  | some n =>
    if !intAllowed v then v
    else
      let v := repLive v 8
      match takePending nv v 8 with
      | some v => v
      | none =>
        let c := coreOf v 8
        enterExc v 8 { cfault 1 0 0 c.pc with info := n } 0 c.pc c.le

end Sys2Proof.Machine
end

