-- ==== Sys2Proof/Machine/HostOps.lean ====
section
/-! DEFINITION. Host SPI (R578-R580), the USB service port and its diagnostics (R582-R584) and the JTAG port (R585-R590). All
reach the bus as master 15 (R628). -/

namespace Sys2Proof.Machine

/-! ### Host SPI -/

def setHsp (v : Vol) (kind : Nat) (out : List Byte) : Vol := { v with hsp := { v.hsp with out := out, kind := kind, left := none } }

/-- A transaction of a kind begins: HSP_CNT counts it, and what still waits belongs to earlier ones (R580). -/
def hspBegin (v : Vol) (kind : Nat) : Vol :=
  let v := setHsp (rgInc v (ra pHsp 0x04C)) kind []
  { v with hsp := { v.hsp with stale := v.parked.countP fun q => q.master == 15 && q.id == 1 } }

/-- Words written upward from an address, each when its last bit arrives. -/
def hspPut (nv : Nv) : List Word → Nat → Vol → Vol
  | [], _, v => v
  | w :: ws, a, v =>
    let v := if !ready v pHsp then v
      else if hspRefuses v true a then hspRefused v true
      else busAccess nv v ⟨15, 1, true, .word, a, ⟨w, Tag.raw⟩⟩
    hspPut nv ws ((a + 4) % 2 ^ 32) v

/-- Command 0x02 (R578). -/
def hspWriteCmd (nv : Nv) (v : Vol) (a : Nat) (ws : List Word) : Vol :=
  let up := ready v pHsp
  let v := if up then hspBegin v 1 else v
  let v := hspPut nv ws a v
  setHsp v (if ready v pHsp then 1 else 0) (List.replicate (4 * ws.length) (if up then 0 else 0xFF))

/-- Command 0x0B (R579): the host shifts n words; the read of the word after them begins too. Without its block the port shifts ones. -/
def hspReadCmd (nv : Nv) (v : Vol) (a n : Nat) : Vol :=
  if !ready v pHsp then setHsp v 0 ([0xFF] ++ List.replicate (5 * n) 0xFF)
  else
    let v := hspBegin v 2
    streamsRun nv { v with hsp := { v.hsp with out := [0xFF], left := some (n, a) } }

/-- Command 0x05: the status byte (R578). -/
def hspStatusCmd (v : Vol) : Vol :=
  if !ready v pHsp then setHsp v 0 [0xFF]
  else
    let busy := v.parked.any fun q => q.master == 15 && q.id == 1 && q.write
    setHsp (hspBegin v 3) 3 [BitVec.ofNat 8 (b2n busy * 128 + rf v (ra pHsp 0x040) 2 0 * 16)]

/-- Any other command (R578). -/
def hspBad (v : Vol) (cmd : Byte) : Vol :=
  if !ready v pHsp ∨ cmd = 0x02 ∨ cmd = 0x0B ∨ cmd = 0x05 then v else setFault (hspBegin v 3) pHsp 2

/-- HSP_CS_N rises (R580): a transaction that ends in the middle of a word is short. -/
def hspCs (v : Vol) (bits : Nat) : Vol :=
  let k := v.hsp.kind
  let v := { v with hsp := { v.hsp with kind := 0, left := none } }
  if ready v pHsp && (k == 1 || k == 2) && bits % 32 != 0 then raiseEvent (setFault v pHsp 1) pHsp 0 else v

/-! ### The service port -/

/-- A bus reset (R595): the default state, address and configuration 0. -/
def usbReset (v : Vol) : Vol :=
  if !ready v pSvc || !ioClocked v || svcState v == 0 then v
  else rgSet { v with svc := { v.svc with prev := 0, config := 0 } } (ra pSvc 0x040) 2

/-- The bus idles (R595, R596): suspended, event 1. -/
def usbIdle (v : Vol) : Vol :=
  if !ready v pSvc || !ioClocked v || svcState v == 0 || svcState v == 5 then v
  else raiseEvent (svcSet { v with svc := { v.svc with prev := svcState v } } 5) pSvc 1

def usbWake (v : Vol) : Vol := if ready v pSvc && ioClocked v && svcState v == 5 then svcSet v v.svc.prev else v

/-- A standard request on endpoint 0 (R582): SET_ADDRESS, SET_CONFIGURATION and GET_CONFIGURATION as USB 2.0 has them. -/
def usbRequest (v : Vol) (s : List Byte) : Vol :=
  let t := byteAt s 0
  let q := byteAt s 1
  let val := byteAt s 2 + 256 * byteAt s 3
  let st := svcState v
  if !ready v pSvc || !ioClocked v || s.length != 8 then v
  else if t = 0 ∧ q = 5 ∧ (st = 2 ∨ st = 3) ∧ val < 128 then
    svcSet (rfSet v (ra pSvc 0x040) 14 8 val) (if val = 0 then 2 else 3)
  else if t = 0 ∧ q = 9 ∧ (st = 3 ∨ st = 4) then
    let v := { v with svc := { v.svc with config := val % 256 } }
    if val % 256 = 0 then svcSet v 3 else raiseEvent (svcSet v 4) pSvc 0
  else if t = 0x80 ∧ q = 8 ∧ (st = 3 ∨ st = 4) then
    { v with svc := { v.svc with ctl := [BitVec.ofNat 8 v.svc.config] } }
  else v

/-! ### Diagnostics (R583, R584) -/

/-- Run a well-formed READ or WRITE (R583). -/
def diagRun (nv : Nv) (v : Vol) (msg : List Byte) : Vol := streamsRun nv { v with svc := { v.svc with diag := msg, got := [] } }

/-- A message of the operation `op` on the diagnostic endpoint: 1 INFO, 2 READ, 3 WRITE. -/
def diagMessage (nv : Nv) (v : Vol) (op : Nat) (msg : List Byte) : Vol :=
  let pay := msg.drop 16
  let n := (leWord pay 4).toNat
  if !svcUp v || lcCode nv == 5 || !v.svc.diag.isEmpty then v
  else if !messageOk magicDiag msg || byteAt msg 4 != op then diagAnswer v msg 1 0 []
  else if op = 1 then
    (if pay.isEmpty then
        diagAnswer v msg 0 0 (leBytes 4 (lcCode nv) ++ wordBytes (sysPageView v 0x040 (rg v (ra pSys 0x040)))
          ++ wordBytes (rg v (ra pRst 0x040)))
      else diagAnswer v msg 1 0 [])
  else if op = 2 then
    (if pay.length ≠ 8 then diagAnswer v msg 1 0 []
      else if n % 4 ≠ 0 ∨ n < 4 ∨ 4096 < n then diagAnswer v msg 18 0 []
      else diagRun nv v msg)
  else
    if lcCode nv = 3 then diagAnswer v msg 13 0 []
    else if pay.length < 8 ∨ 4100 < pay.length ∨ pay.length % 4 ≠ 0 then diagAnswer v msg 1 0 []
    else diagRun nv v msg

/-! ### JTAG -/

/-- The balls that the part uses only as inputs, in the order of R587. -/
def inputBall (i : Nat) : Bool :=
  (64 ≤ i && i ≤ 74) || (386 ≤ i && i ≤ 388) || (395 ≤ i && i ≤ 398)
    || [195, 220, 222, 223, 296, 321, 390, 402, 404, 406, 407, 408, 410].contains i

/-- What the part puts on the pad of ball b, where State tells it (R587, R614): `some none` while it does not drive the pad. -/
def ownPad (v : Vol) (b : Nat) : Option (Option Bool) :=
  if b < 64 then some (firePad v b)
  else if 75 ≤ b ∧ b < 171 then some (if (b - 75) % 2 = 0 then drivePad v ((b - 75) / 2) else clampPad v ((b - 75) / 2))
  else if b = 221 then some (if domUp v 28 then some v.yok.token else none)
  else if 224 ≤ b ∧ b < 272 then some (motPad v ((b - 224) / 6) ((b - 224) % 6 / 2) ((b - 224) % 2 == 0))
  else if 322 ≤ b ∧ b < 386 then some (pinPad v (b - 322))
  else if b = 405 then some (if domUp v 29 then some (ptpPpsPin v) else none)
  else if b = 411 then some (if hostAttention v then some false else none)
  else none

/-- Cell i of the boundary register as captured (R587): an input cell has the level at the pad, the other cells of an input-only ball
0, those of a ball that State tells the level and the enable there, those of any other ball what the sender saw (log entry 75). -/
def captureCell (v : Vol) (l : List Bool) (i : Nat) : Bool :=
  let seen := l.getD i false
  if i % 3 = 0 then seen
  else if inputBall (i / 3) then false
  else
    match ownPad v (i / 3) with
    | none => seen
    | some none => i % 3 == 1 && seen
    | some (some level) => i % 3 == 2 || level

/-- The boundary register as captured (R587). -/
def captureCells (v : Vol) (l : List Bool) : List Bool := (List.range 1236).map (captureCell v l)

/-- Select an instruction: the data register it connects, and what it does to the pads. -/
def jtagSelect (v : Vol) (ir : Nat) (drive float : Bool) (dr : Word) : Vol :=
  { v with jtag := { v.jtag with ir := ir, drive := drive, float := float, dr := dr } }

/-- EXTEST, CLAMP and HIGHZ (R588): only while RST_N is held low; else BYPASS with SCANREF. -/
def jtagPads (v : Vol) (ir : Nat) (float rstLow : Bool) : Vol :=
  if rstLow then jtagSelect v ir (!float) float 0
  else
    let v := jtagSelect v 31 false false 0
    if ready v pDbg then raiseEvent (setFault v pDbg 0) pDbg 1 else v

/-- SAMPLE/PRELOAD (R586, R587). -/
def jtagSample (v : Vol) (load : Bool) (l : List Bool) : Vol :=
  let v := jtagSelect v 2 false false 0
  let cells := if load then (List.range 1236).map fun i => l.getD i false else captureCells v l
  { v with jtag := { v.jtag with cells := cells } }

/-- Whether the part issues a debug request to an address (R485, R518, R589): in FIELD to the DBG page, with permission 1 to any
address, with permission 0 to a CORE page; in SCRAPPED to none; else to all. -/
def dbgAllows (nv : Nv) (v : Vol) (a : Nat) : Bool :=
  let perm := rg v (aLks 2 0x054)
  if lcCode nv = 5 then false
  else if lcCode nv ≠ 3 then true
  else (0x40090000 ≤ a && a < 0x40091000) || bit perm 1 || (bit perm 0 && 0x40010000 ≤ a && a < 0x40019000)

/-- An Update-DR of DBGACC (R589). -/
def debugRequest (nv : Nv) (v : Vol) (x : BitVec 72) : Vol :=
  let w := x.getLsbD 71
  let a := (x.extractLsb' 39 32).toNat
  let d := x.extractLsb' 7 32
  let v := jtagSelect v 8 false false 0
  if dbgAllows nv v a then
    busAccess nv { v with jtag := { v.jtag with dbgacc := x &&& ~~~0x7F } } ⟨15, 0, w, .word, a, ⟨d, Tag.raw⟩⟩
  else { v with jtag := { v.jtag with dbgacc := (x &&& ~~~0x7F) ||| 8 } }

end Sys2Proof.Machine
end

