-- ==== Sys2Proof/Machine/Boundary.lean ====
section
/-! DEFINITION. The boundary as a whole (R40, R72, R424, R431, R506-R509, R553), the end of DROP and the release of the
cores (R41, R43). -/

namespace Sys2Proof.Machine

/-- The settings that follow a boundary whatever the mode (R535, R559): the run set of CLK_DIV and SYS_SVCPROF. -/
def boundarySettings (v : Vol) : Vol :=
  let d := rg v (ra pClk 0x044)
  setSysP v fun s => { s with divs := (s.divs &&& 0xFFFF0000) ||| (d &&& 0xFFFF), svcProf := rg v (ra pSys 0x04C) }

/-- A mode request that waited for this boundary takes effect (R553); BANKED follows the boundary's own actions. -/
def boundaryMode (v : Vol) : Vol :=
  match v.sys.target with
  | some .banked => v
  | some t => applyMode v t
  | none => v

/-- The tick number of the boundary (R40 step 3, R54, R417): a shadow's is its MARK's. -/
def nextNumber (v : Vol) : BitVec 64 :=
  if 2 ≤ v.yok.role && !v.yok.mark.isEmpty then
    BitVec.ofNat 64 ((leWord v.yok.mark 0).toNat + (leWord v.yok.mark 4).toNat * 2 ^ 32)
  else if v.tick.had then v.tick.number + 1 else v.tick.number

/-- Step 3: the tick number and the PTP time of the boundary, which Ledger remembers (R458). -/
def boundaryNumber (v : Vol) : Vol :=
  let n := nextNumber v
  let v := captureBts (setTick v fun t => { t with number := n, boundary := v.now, had := true })
  let v := raiseEvent v pTick 0
  if ready v pLdg then
    setLdg v fun l => { l with bts := ((n.toNat, v.tick.btsSec, v.tick.btsNs) :: l.bts.filter fun b => b.1 != n.toNat).take 256 }
  else v

/-- The length of the tick that opens, its source and the generator's state in the registers (R46-R53, R58, R75). -/
def boundaryLength (v : Vol) : Vol :=
  let r := tickLength v
  let v := setTick r.1 fun t => { t with next := t.boundary + r.2, first := false }
  let v := rfSet v (aTick 0x040) 10 8 (tickSource v)
  if v.tick.stopReq then rgClr (setTick v fun t => { t with running := false, stopReq := false }) (aStat pTick) 1
  else rgOr v (aStat pTick) 1

/-- Step 5: DROP opens, and the samples or the lead's snapshot reach the drop areas (R41, R418, R424). -/
def boundaryDrop (v : Vol) : Vol :=
  let v := openDrop v
  if 2 ≤ v.yok.role && !v.yok.takeDue then snapDrop v else sampleDrop v

/-- A core has reached TICK_OVRLIM (R73): source 39 goes to its route, and SAFE is entered at this boundary whether or not the source
was already pending. -/
def overLimitSafe (v : Vol) : Vol :=
  let v := tallyHand v 39
  if v.sys.mode == .safe then v else enterSafe (safeCause v 39)

/-- The boundary (R40): what the twin's frames decide; the latch of the samples; a mode change; the outputs; number and PTP
time; the overrun check against the old settings; an apply; DROP; a SAFE that Yoke has decided, what Yoke sends, a detach, and what Locksmith brings. -/
def boundary (v : Vol) : Vol :=
  if !ready v pTick || !v.tick.running then v
  else
    let sel := taf v 0x040 2 0
    let lost := markMissing v
    let v := if lost then sourceLoss { v with now := max v.now v.tick.next } else v
    let v := yokReleases { v with now := max v.now v.tick.next }
    let first := v.tick.first
    let len := v.now - v.tick.boundary
    let safe := v.sys.mode == .safe
    let v := yokDecide v
    let v := if v.yok.role = 2 && v.yok.takeDue then takeoverSettle v else v
    let v := (List.range 24).foldl (fun v b => if ready v (pMea b) then meaLatch v b 0xFF else v) v
    let v := outBoundary (boundaryMode (boundarySettings v))
    let v := boundaryNumber v
    let check := !safe && !tickPaused v
    let r := if first then (v, false) else kerfCheck v len check
    let v := if first then r.1 else rgSet r.1 (aTick 0x074) (BitVec.ofNat 32 (len % 2 ^ 19))
    let v := if r.2 then overLimitSafe v else v
    let v := if rb v (aStat pTick) 3 then applyCheck v else v
    let v := if lost && taf v 0x040 2 0 == sel then rgOr v (aStat pTick) 16 else v
    let v := boundaryDrop (boundaryLength v)
    let v := if v.tick.running then v else setTick v fun t => { t with released := true }
    let v := if v.yok.safeDue then enterSafe (setYok v fun y => { y with safeDue := false }) else v
    let v := yokBoundary v
    let v := if v.yok.takeDue && v.sys.mode == .shadow then v else detachBoundary v
    let v := lksBoundary v
    if v.sys.target = some .banked then outApply (applyMode v .banked) else v

/-- DROP ends (R41, R43, R419). -/
def dropDone (v : Vol) : Vol := if v.tick.inDrop then yokReleases (snapGivenUp (dropEnds v)) else v

/-- Core k starts afresh (R509, R558): with the state of R95, and the BTB entries that the boot stage has loaded (R177). -/
def restartCore (v : Vol) (k : Nat) : Vol :=
  startCore (onCore (resetCore v k) k fun c => { c with btb := (coreOf v k).btb }) k

/-- The release of control core k (R43, R72 step 5, R214, R237, R509, R558): one that HALTREQ halts goes on when that ends (R211). -/
def releaseCore (v : Vol) (k : Nat) : Vol :=
  let has (b : BitVec 8) : Bool := b.getLsbD k
  let t := v.tick
  if !coreUp v k then v
  else if has t.restart then restartCore v k
  else
    let v := invRel v k
    let v := onCore v k fun c => if c.wait == .wft then { c with wait := .none, last := none } else c
    let c := coreOf v k
    if c.dfHalt then v
    else if ctlBit v k 5 then onCore v k fun c => { c with ovr := false }
    else if has t.enter then
      let v := if c.impr.isEmpty && c.busf.isNone then v else setFault v (pCore k) 0
      let c := coreOf v k
      enterExc (setCore v k { c with ovr := false }) k (cfault 0x30 0 0 c.pc) 0 c.pc c.le
    else if has t.resume then onCore v k fun c => { c with ovr := false }
    else v

/-- The release cycle (R43), 3 c after DROP: none in SAFE (R53) and in an activation pause (R508), none once the generator has
stopped (R58), and in a cut pause none of a core that takes part (R431). -/
def releaseCores (v : Vol) : Vol :=
  if v.tick.inDrop || v.tick.released || !v.tick.had then v
  else
    let v := yokReleases { v with now := max v.now v.tick.release }
    let v := setTick v fun t => { t with released := true }
    if v.sys.mode == .safe || v.lks.pauseAt.isSome then v
    else
      let held : BitVec 8 := if v.yok.pause then (ta v 0x088).setWidth 8 else 0
      let v := (List.range 8).foldl (fun v k => if held.getLsbD k then v else releaseCore v k) v
      setTick v fun t => { t with enter := t.enter &&& held, resume := t.resume &&& held, restart := t.restart &&& held }

end Sys2Proof.Machine
end

