-- ==== Sys2Proof/Machine/CmdOps.lean ====
section
/-! DEFINITION. The shapes that the meanings of the commands share: accesses of a master to one register, and the parts of a
command that touch more than one unit. -/

namespace Sys2Proof.Machine

abbrev Out := Host.Outcome State Fault Refusal

/-- A write of a word, tag RAW. -/
def wr (nv : Nv) (v : Vol) (m a : Nat) (w : Word) : Vol := busWrite nv v m .word a (TWord.ofWord w)

/-- A write through the bit-set alias of a register, and one through its bit-clear alias (R1, R4). -/
def setBits (nv : Nv) (v : Vol) (m a : Nat) (w : Word) : Vol := wr nv v m (a + 0x400) w
def clearBits (nv : Nv) (v : Vol) (m a : Nat) (w : Word) : Vol := wr nv v m (a + 0x800) w
def putBits (nv : Nv) (v : Vol) (m a : Nat) (w : Word) (b : Bool) : Vol := if b then setBits nv v m a w else clearBits nv v m a w

/-- A write of a window register, or its read. -/
def rdwr (nv : Nv) (v : Vol) (m a : Nat) (w : Option Word) : Vol :=
  match w with
  | some x => wr nv v m a x
  | none => busRead nv v m a

/-- The page that an address lies in. -/
def pageNo (a : Nat) : Nat := (a - 0x40000000) / 0x1000

/-- BLOCK_RESET_DONE (R10) for the page at an address; the service port's pull-up follows its CTL (R582). -/
def resetDone (nv : Nv) (v : Vol) (a : Nat) : Vol :=
  if a < 0x40000000 || (pageInfo (pageNo a)).isNone then v
  else
    let p := blockPage (pageNo a)
    let v := blockResetEnds v p
    goOn nv (if p = pSvc then svcPull nv v else v)

/-- TICK: a lost source (R52). -/
def tickSourceLost (v : Vol) : Vol := sourceLost v

/-- The trigger port of operation i of ALU unit u (R96). -/
def aluPort (u i : Nat) : Nat := if u = 0 then 33 + i else 52 + i

/-- `sys.w` of a to sys register n in one bundle (R118). -/
def sysMove (nv : Nv) (v : Vol) (k n : Nat) (a : TWord) : Vol :=
  triggerWith nv v k [(102, TWord.ofWord (BitVec.ofNat 32 n))] 103 a

/-- A pending MODE takes effect once its two bundles have passed (R120, log entry 24). -/
def modeApplies (v : Vol) (k : Nat) : Vol := onCore v k modeDue

/-- A factory record is read (R328): the block is READY. -/
def factoryRead (nv : Nv) (v : Vol) (b : Nat) : Vol := goOn nv (meaFactory nv v b)

/-- A write of YOK CTL with ATTACH and the attach mode (R430, R438). -/
def attachWrite (nv : Nv) (v : Vol) (m : Nat) (mode : BitVec 2) : Vol :=
  wr nv v m (aCtl pYok) (putFld (rg v (aCtl pYok) ||| 4) 6 5 mode.toNat)

/-- A power-on reset (R543): outside COLD nothing of the VBAT domain has been kept when it lost its supply too. -/
def powerOn (v : Vol) (xtsel : Nat) (vbatLost prime : Bool) : Vol :=
  let v := if vbatLost then setSysP v fun s => { s with rtcSec := 0, rtcAt := wall v, coldTamp := false, mesh2 := false, ctrShadow := [] } else v
  wholeReset { v with yok := { v.yok with prime := prime } } 0 (some xtsel)

/-- Resets that COLD does not know (R553). -/
def unlessCold (v : Vol) (f : Vol → Vol) : Vol := if v.sys.mode == .cold then v else f v

/-- A write of one PWR_ON bit through an alias (R549-R551). -/
def pwrOnBit (nv : Nv) (v : Vol) (m d : Nat) (on : Bool) : Vol :=
  if d = 0 then v else putBits nv v m (ra pPwr (0x040 + 4 * ((d - 1) / 32))) (bitWord ((d - 1) % 32)) on

/-- POWER_GOOD (R550): what waited for the domain is performed, at an SRAM behind its wipe, whose time then runs (R266, R285). -/
def powerIsGood (nv : Nv) (v : Vol) (d : Nat) : Vol :=
  let was := v.sys.powering.contains d
  let v := powerGoodOf v d
  let v := goOn nv (if d = 31 then svcPull nv v else v)
  if was then wipeRuns v d else v

/-- POWER_GOOD_TIMEOUT (R550). -/
def powerIsBad (nv : Nv) (v : Vol) (d : Nat) : Vol :=
  if v.sys.powering.contains d then streamsRun nv (parkedOff nv (powerGoodFails v d) d) else v

/-- Locksmith's boot ends (R490, R544): the service port's pull-up may connect. -/
def bootDone (nv : Nv) (v : Vol) : Nv × Vol :=
  let r := bootCompletes nv v
  (r.1, svcPull r.1 r.2)

/-- A cycle passes in which no command comes: driven pin levels may count (R391), and a lead may release its
token (R428, R433). -/
def cyclePasses (v : Vol) : Vol := yokReleases (gioSettle { v with now := v.now + 1 } (v.now + 1))

/-- A whole second of the RTC (R560). -/
def rtcTick (v : Vol) : Vol := setSysP v fun s => { s with rtcSec := s.rtcSec + 1, rtcAt := wall v }

/-- SVC_VBUS changes its level (R582). -/
def vbusChange (nv : Nv) (v : Vol) (b : Bool) : Vol := svcPull nv { v with svc := { v.svc with vbus := b } }

end Sys2Proof.Machine
end

