-- ==== Sys2Proof/Machine/BusCmds.lean ====
section
/-! DEFINITION. Meanings of the commands: register pages, the bus and the tick (R1-R16, R40-R78, R276-R289). -/

namespace Sys2Proof.Machine

/-- REGISTER_WRITE (R14): a master writes a register. -/
def execRegisterWrite (m : Fin 16) (sz : Size) (addr : Word) (w : TWord) (s : State) : Out :=
  onVol s fun nv v =>
    busWrite nv v m sz addr.toNat w

/-- ALIAS_WRITE (R4): a master writes through a bit-set or bit-clear alias. -/
def execAliasWrite (m : Fin 16) (sz : Size) (addr : Word) (w : TWord) (s : State) : Out :=
  onVol s fun nv v =>
    busWrite nv v m sz addr.toNat w

/-- GATE_AUTO_CLOSE (R542): the clock gate of an idle block closes. -/
def execGateAutoClose (page : Word) (s : State) : Out := onVol s fun _ v => gateCloses v page.toNat

/-- MATRIX_TIMEOUT (R282): a request times out. -/
def execMatrixTimeout (m id : Fin 16) (addr : Word) (s : State) : Out :=
  onVol s fun nv v =>
    requestTimeout nv v m id addr.toNat

/-- BLOCK_SOFTRST (R10): CTL.SOFTRST is written. -/
def execBlockSoftrst (m : Fin 16) (page : Word) (s : State) : Out :=
  onVol s fun nv v =>
    setBits nv v m (page.toNat / 0x1000 * 0x1000 + 0x008) (bitWord 31)

/-- BLOCK_RESET_DONE (R10): the reset of the block of a page ends. -/
def execBlockResetDone (page : Word) (s : State) : Out := onVol s fun nv v => resetDone nv v page.toNat

/-- SRAM_ALIAS_WRITE (R255): a write through an SRAM bit-set or bit-clear window. -/
def execSramAliasWrite (m : Fin 16) (sz : Size) (addr : Word) (w : TWord) (s : State) : Out :=
  onVol s fun nv v =>
    busWrite nv v m sz addr.toNat w

/-- TAG_VIEW_WRITE (R256): a write through an SRAM tag view. -/
def execTagViewWrite (m : Fin 16) (sz : Size) (addr : Word) (w : TWord) (s : State) : Out :=
  onVol s fun nv v =>
    busWrite nv v m sz addr.toNat w

/-- TICK_BOUNDARY (R40): the boundary. -/
def execTickBoundary (s : State) : Out := onBoth s fun nv v => fellBack nv (boundary v)

/-- DROP_END (R41): DROP ends. -/
def execDropEnd (s : State) : Out := onVol s fun _ v => dropDone v

/-- CORE_RELEASE (R43): the cores are released. -/
def execCoreRelease (s : State) : Out := onVol s fun _ v => releaseCores v

/-- TICK_EN (R54): TICK_CTL.EN = 1 is written. -/
def execTickEn (m : Fin 16) (s : State) : Out := onVol s fun nv v => setBits nv v m (aTick 0x008) 1

/-- TICK_STOP (R58): TICK_CTL.EN = 0 is written. -/
def execTickStop (m : Fin 16) (s : State) : Out := onVol s fun nv v => clearBits nv v m (aTick 0x008) 1

/-- APPLY (R55): TICK_CTL.APPLY = 1 is written. -/
def execApply (m : Fin 16) (s : State) : Out := onVol s fun nv v => setBits nv v m (aTick 0x008) 2

/-- SOURCE_LOST (R52): the tick source is lost. -/
def execSourceLost (s : State) : Out := onVol s fun _ v => tickSourceLost v

/-- TICK_SVCCOMMIT (R65): TICK_SVCCOMMIT is written. -/
def execTickSvccommit (m : Fin 16) (w : Word) (s : State) : Out := onVol s fun nv v => wr nv v m (aTick 0x08C) w

/-- TICK_NUM_LO_READ (R75): TICK_NUM_LO is read. -/
def execTickNumLoRead (m : Fin 16) (s : State) : Out := onVol s fun nv v => busRead nv v m (aTick 0x068)

/-- TICK_BTS_NS_READ (R75): TICK_BTS_NS is read. -/
def execTickBtsNsRead (m : Fin 16) (s : State) : Out := onVol s fun nv v => busRead nv v m (aTick 0x090)

end Sys2Proof.Machine
end

