-- ==== Sys2Proof/Machine/CoreCmds.lean ====
section
/-! DEFINITION. Meanings of the commands: the processor cores (R79-R237). -/

namespace Sys2Proof.Machine

/-- BUNDLE_ISSUE (R79): core k issues the bundle at its pc. -/
def execBundleIssue (k : Fin 9) (s : State) : Out := onVol s fun nv v => issueBundle nv v k

/-- ADD (R130): a move of a to the port `add` of ALU unit u. -/
def execAdd (k : Fin 9) (u : Fin 2) (a : TWord) (s : State) : Out :=
  onVol s fun nv v =>
    triggerMove nv v k (aluPort u 0) a

/-- SUB (R131): a move of a to the port `sub` of ALU unit u. -/
def execSub (k : Fin 9) (u : Fin 2) (a : TWord) (s : State) : Out :=
  onVol s fun nv v =>
    triggerMove nv v k (aluPort u 1) a

/-- ADDS (R132): a move of a to the port `adds` of ALU unit u. -/
def execAdds (k : Fin 9) (u : Fin 2) (a : TWord) (s : State) : Out :=
  onVol s fun nv v =>
    triggerMove nv v k (aluPort u 2) a

/-- SUBS (R132): a move of a to the port `subs` of ALU unit u. -/
def execSubs (k : Fin 9) (u : Fin 2) (a : TWord) (s : State) : Out :=
  onVol s fun nv v =>
    triggerMove nv v k (aluPort u 3) a

/-- AND (R130): a move of a to the port `and` of ALU unit u. -/
def execAnd (k : Fin 9) (u : Fin 2) (a : TWord) (s : State) : Out :=
  onVol s fun nv v =>
    triggerMove nv v k (aluPort u 4) a

/-- OR (R130): a move of a to the port `or` of ALU unit u. -/
def execOr (k : Fin 9) (u : Fin 2) (a : TWord) (s : State) : Out :=
  onVol s fun nv v =>
    triggerMove nv v k (aluPort u 5) a

/-- XOR (R130): a move of a to the port `xor` of ALU unit u. -/
def execXor (k : Fin 9) (u : Fin 2) (a : TWord) (s : State) : Out :=
  onVol s fun nv v =>
    triggerMove nv v k (aluPort u 6) a

/-- SHL (R133): a move of a to the port `shl` of ALU unit u. -/
def execShl (k : Fin 9) (u : Fin 2) (a : TWord) (s : State) : Out :=
  onVol s fun nv v =>
    triggerMove nv v k (aluPort u 7) a

/-- SHR (R133): a move of a to the port `shr` of ALU unit u. -/
def execShr (k : Fin 9) (u : Fin 2) (a : TWord) (s : State) : Out :=
  onVol s fun nv v =>
    triggerMove nv v k (aluPort u 8) a

/-- SAR (R133): a move of a to the port `sar` of ALU unit u. -/
def execSar (k : Fin 9) (u : Fin 2) (a : TWord) (s : State) : Out :=
  onVol s fun nv v =>
    triggerMove nv v k (aluPort u 9) a

/-- ROL (R133): a move of a to the port `rol` of ALU unit u. -/
def execRol (k : Fin 9) (u : Fin 2) (a : TWord) (s : State) : Out :=
  onVol s fun nv v =>
    triggerMove nv v k (aluPort u 10) a

/-- MIN (R130): a move of a to the port `min` of ALU unit u. -/
def execMin (k : Fin 9) (u : Fin 2) (a : TWord) (s : State) : Out :=
  onVol s fun nv v =>
    triggerMove nv v k (aluPort u 11) a

/-- MAX (R130): a move of a to the port `max` of ALU unit u. -/
def execMax (k : Fin 9) (u : Fin 2) (a : TWord) (s : State) : Out :=
  onVol s fun nv v =>
    triggerMove nv v k (aluPort u 12) a

/-- CEQ (R130): a move of a to the port `ceq` of ALU unit u. -/
def execCeq (k : Fin 9) (u : Fin 2) (a : TWord) (s : State) : Out :=
  onVol s fun nv v =>
    triggerMove nv v k (aluPort u 13) a

/-- CLT (R130): a move of a to the port `clt` of ALU unit u. -/
def execClt (k : Fin 9) (u : Fin 2) (a : TWord) (s : State) : Out :=
  onVol s fun nv v =>
    triggerMove nv v k (aluPort u 14) a

/-- CLTU (R130): a move of a to the port `cltu` of ALU unit u. -/
def execCltu (k : Fin 9) (u : Fin 2) (a : TWord) (s : State) : Out :=
  onVol s fun nv v =>
    triggerMove nv v k (aluPort u 15) a

/-- TSET (R144): a move of a to `alu0.tset`. -/
def execTset (k : Fin 9) (a : TWord) (s : State) : Out := onVol s fun nv v => triggerMove nv v k 49 a

/-- TCHK (R144): a move of a to `alu0.tchk`. -/
def execTchk (k : Fin 9) (a : TWord) (s : State) : Out := onVol s fun nv v => triggerMove nv v k 50 a

/-- MUL_S (R134): a move of a to `mul.s`. -/
def execMulS (k : Fin 9) (a : TWord) (s : State) : Out := onVol s fun nv v => triggerMove nv v k 69 a

/-- MUL_U (R134): a move of a to `mul.u`. -/
def execMulU (k : Fin 9) (a : TWord) (s : State) : Out := onVol s fun nv v => triggerMove nv v k 70 a

/-- DIV_S (R135): a move of a to `div.s`. -/
def execDivS (k : Fin 9) (a : TWord) (s : State) : Out := onVol s fun nv v => triggerMove nv v k 72 a

/-- DIV_U (R135): a move of a to `div.u`. -/
def execDivU (k : Fin 9) (a : TWord) (s : State) : Out := onVol s fun nv v => triggerMove nv v k 73 a

/-- LDW (R101): a move of a to `lsu.ldw`. -/
def execLdw (k : Fin 9) (a : TWord) (s : State) : Out := onVol s fun nv v => triggerMove nv v k 77 a

/-- LDH (R101): a move of a to `lsu.ldh`. -/
def execLdh (k : Fin 9) (a : TWord) (s : State) : Out := onVol s fun nv v => triggerMove nv v k 78 a

/-- LDB (R101): a move of a to `lsu.ldb`. -/
def execLdb (k : Fin 9) (a : TWord) (s : State) : Out := onVol s fun nv v => triggerMove nv v k 79 a

/-- STW (R102): a move of a to `lsu.stw`. -/
def execStw (k : Fin 9) (a : TWord) (s : State) : Out := onVol s fun nv v => triggerMove nv v k 80 a

/-- STH (R102): a move of a to `lsu.sth`. -/
def execSth (k : Fin 9) (a : TWord) (s : State) : Out := onVol s fun nv v => triggerMove nv v k 81 a

/-- STB (R102): a move of a to `lsu.stb`. -/
def execStb (k : Fin 9) (a : TWord) (s : State) : Out := onVol s fun nv v => triggerMove nv v k 82 a

/-- JUMP (R105): a move of a to `cu.jump`. -/
def execJump (k : Fin 9) (a : TWord) (s : State) : Out := onVol s fun nv v => triggerMove nv v k 83 a

/-- CALL (R108): a move of a to `cu.call`. -/
def execCall (k : Fin 9) (a : TWord) (s : State) : Out := onVol s fun nv v => triggerMove nv v k 84 a

/-- RET (R109): a move to `cu.ret`. -/
def execRet (k : Fin 9) (s : State) : Out := onVol s fun nv v => triggerMove nv v k 85 TWord.zero

/-- RETX (R202): a move to `cu.retx`. -/
def execRetx (k : Fin 9) (s : State) : Out := onVol s fun nv v => triggerMove nv v k 86 TWord.zero

/-- FENCE (R148): a move to `cu.fence`. -/
def execFence (k : Fin 9) (s : State) : Out := onVol s fun nv v => triggerMove nv v k 87 TWord.zero

/-- WFT (R111): a move to `cu.wft`. -/
def execWft (k : Fin 8) (s : State) : Out := onVol s fun nv v => triggerMove nv v k 88 TWord.zero

/-- COMMIT (R62): a move to `cu.commit`. -/
def execCommit (k : Fin 8) (s : State) : Out := onVol s fun nv v => triggerMove nv v k 89 TWord.zero

/-- WFI (R111): a move to `cu.wfi`. -/
def execWfi (s : State) : Out := onVol s fun nv v => triggerMove nv v 8 88 TWord.zero

/-- TRAP (R107): a move of a to `cu.trap`. -/
def execTrap (k : Fin 9) (a : TWord) (s : State) : Out := onVol s fun nv v => triggerMove nv v k 90 a

/-- LP_BEGIN (R112): a move of a to `lp.begin`. -/
def execLpBegin (k : Fin 9) (a : TWord) (s : State) : Out := onVol s fun nv v => triggerMove nv v k 91 a

/-- LP_POP (R115): a move to `lp.pop`. -/
def execLpPop (k : Fin 9) (s : State) : Out := onVol s fun nv v => triggerMove nv v k 92 TWord.zero

/-- REP_GO (R164): a move of the control word a to `rep.go`. -/
def execRepGo (k : Fin 9) (a : TWord) (s : State) : Out := onVol s fun nv v => triggerMove nv v k 96 a

/-- ITP_X (R153): a move of a to `itp.x`. -/
def execItpX (k : Fin 9) (a : TWord) (s : State) : Out := onVol s fun nv v => triggerMove nv v k 98 a

/-- SEQ_EV (R161): a move of the event a to `seq.ev`. -/
def execSeqEv (k : Fin 9) (a : TWord) (s : State) : Out := onVol s fun nv v => triggerMove nv v k 101 a

/-- SYS_W (R118): a move of a to `sys.w`. -/
def execSysW (k : Fin 9) (a : TWord) (s : State) : Out := onVol s fun nv v => triggerMove nv v k 103 a

/-- SYS_R (R118): a move to `sys.r`. -/
def execSysR (k : Fin 9) (s : State) : Out := onVol s fun nv v => triggerMove nv v k 104 TWord.zero

/-- MODE_CHANGE (R120): a pending MODE whose two bundles have passed takes effect. -/
def execModeChange (k : Fin 9) (s : State) : Out := onVol s fun _ v => modeApplies v k

/-- FSAVE (R200): `sys.w` of a to FSAVE. -/
def execFsave (k : Fin 9) (a : TWord) (s : State) : Out := onVol s fun nv v => sysMove nv v k 0x54 a

/-- FRESTORE (R200): `sys.w` of a to FRESTORE. -/
def execFrestore (k : Fin 9) (a : TWord) (s : State) : Out := onVol s fun nv v => sysMove nv v k 0x55 a

/-- EVEC_WRITE (R196): `sys.w` of a to EVEC. -/
def execEvecWrite (k : Fin 9) (a : TWord) (s : State) : Out := onVol s fun nv v => sysMove nv v k 0x51 a

/-- EVEC_LOAD_DONE (R196): both vector lines are in. -/
def execEvecLoadDone (k : Fin 9) (s : State) : Out := onVol s fun nv v => evecDone nv v k

/-- LONG_OP_COMPLETE (R126): a long operation delivers. -/
def execLongOpComplete (k : Fin 9) (u : LongUnit) (s : State) : Out := onVol s fun nv v => completeLong nv v k u

/-- HELD_ACCESS_RESPONSE (R138): the response of a held access arrives. -/
def execHeldAccessResponse (k : Fin 9) (s : State) : Out := onVol s fun nv v => heldRespond nv v k

/-- INTERRUPT_ENTRY (R300): the service core takes its interrupt. -/
def execInterruptEntry (s : State) : Out := onVol s fun nv v => enterInterrupt nv v

/-- STORE_BUFFER_DRAIN (R208): the oldest store-buffer entry leaves. -/
def execStoreBufferDrain (s : State) : Out := onVol s fun nv v => drainOne nv v

/-- BTBLOAD (R177): CORE_CTL.BTBLOAD is written. -/
def execBtbload (m : Fin 16) (k : Fin 9) (s : State) : Out := onVol s fun nv v => setBits nv v m (aCtl (pCore k)) 0x40

/-- BTB_LOAD_DONE (R178): the BTB load ends. -/
def execBtbLoadDone (k : Fin 9) (s : State) : Out := onVol s fun nv v => btbLoadDone nv v k

/-- HALTREQ (R211): CORE_CTL.HALTREQ is written. -/
def execHaltreq (m : Fin 16) (k : Fin 9) (b : Bool) (s : State) : Out :=
  onVol s fun nv v =>
    putBits nv v m (aCtl (pCore k)) 0x20 b

/-- RUN (R211): CORE_CTL.RUN is written. -/
def execRun (m : Fin 16) (k : Fin 9) (b : Bool) (s : State) : Out :=
  onVol s fun nv v =>
    putBits nv v m (aCtl (pCore k)) 0x10 b

end Sys2Proof.Machine
end

