-- ==== Sys2Proof/Machine/HostCmds.lean ====
section
/-! DEFINITION. Meanings of the commands: Ethernet, PTP, CAN FD, host SPI, the service port and JTAG (R568-R597). -/

namespace Sys2Proof.Machine

/-- ETH_FRAME_RECEIVED (R569): a frame has been received. -/
def execEthFrameReceived (f : List Byte) (crcGood : Bool) (s : State) : Out := onVol s fun _ v => ethReceive v f crcGood

/-- ETH_RXDATA (R569): ETH_RXDATA is read. -/
def execEthRxdata (m : Fin 16) (s : State) : Out := onVol s fun nv v => busRead nv v m (ra pEth 0x058)

/-- ETH_TXLEN (R570): ETH_TXLEN is written. -/
def execEthTxlen (m : Fin 16) (w : Word) (s : State) : Out := onVol s fun nv v => wr nv v m (ra pEth 0x05C) w

/-- ETH_TXDATA (R570): ETH_TXDATA is written. -/
def execEthTxdata (m : Fin 16) (w : Word) (s : State) : Out := onVol s fun nv v => wr nv v m (ra pEth 0x060) w

/-- ETH_FRAME_SENT (R570): a frame has been sent. -/
def execEthFrameSent (s : State) : Out := onVol s fun _ v => ethSent v

/-- ETH_TSQ3_READ (R571): ETH_TSQ[3] is read. -/
def execEthTsq3Read (m : Fin 16) (s : State) : Out := onVol s fun nv v => busRead nv v m (ra pEth 0x074)

/-- ETH_MDIO (R591): ETH_MDIO is written. -/
def execEthMdio (m : Fin 16) (w : Word) (s : State) : Out := onVol s fun nv v => wr nv v m (ra pEth 0x078) w

/-- MDIO_DONE (R596): the MDIO operation ends. -/
def execMdioDone (data : BitVec 16) (s : State) : Out := onVol s fun _ v => ethMdioDone v data.toNat

/-- SET (R572): PTP CTL.SET is written. -/
def execSet (m : Fin 16) (s : State) : Out := onVol s fun nv v => setBits nv v m (aCtl pPtp) 2

/-- STEP (R572): PTP CTL.STEP is written. -/
def execStep (m : Fin 16) (s : State) : Out := onVol s fun nv v => setBits nv v m (aCtl pPtp) 4

/-- PTP_RATE (R572): PTP_RATE is written. -/
def execPtpRate (m : Fin 16) (w : Word) (s : State) : Out := onVol s fun nv v => wr nv v m (ra pPtp 0x04C) w

/-- SYNC (R573): PTP CTL.SYNC is written. -/
def execSync (m : Fin 16) (b : Bool) (s : State) : Out := onVol s fun nv v => putBits nv v m (aCtl pPtp) 8 b

/-- PTP_HOLD_EXPIRY (R573): PTP_HOLD has run out. -/
def execPtpHoldExpiry (s : State) : Out := onVol s fun _ v => ptpLossNoted v (ptpHoldExpire v)

/-- PTP_NS_READ (R592): PTP_NS is read. -/
def execPtpNsRead (m : Fin 16) (s : State) : Out := onVol s fun nv v => busRead nv v m (ra pPtp 0x040)

/-- PPS (R574): a whole second of PTP time. -/
def execPps (s : State) : Out := onVol s fun _ v => ptpPulse v

/-- PTP_CAP (R574): PTP_CAP rises. -/
def execPtpCap (s : State) : Out := onVol s fun _ v => ptpCapture v

/-- CAN_FRAME_RECEIVED (R576): a CAN frame has been received. -/
def execCanFrameReceived (e : Fin 2) (f : CanFrame) (s : State) : Out := onVol s fun _ v => canReceive v e f

/-- CAN_RXDATA (R576): CAN_RXDATA is read. -/
def execCanRxdata (m : Fin 16) (e : Fin 2) (s : State) : Out := onVol s fun nv v => busRead nv v m (ra (pCan e) 0x050)

/-- CAN_TXDATA (R576): CAN_TXDATA is written. -/
def execCanTxdata (m : Fin 16) (e : Fin 2) (w : Word) (s : State) : Out :=
  onVol s fun nv v =>
    wr nv v m (ra (pCan e) 0x054) w

/-- CAN_FRAME_SENT (R576): a CAN frame has been sent. -/
def execCanFrameSent (e : Fin 2) (s : State) : Out := onVol s fun _ v => canSent v e

/-- BUS_OFF (R577): the controller enters bus-off. -/
def execBusOff (e : Fin 2) (s : State) : Out := onVol s fun _ v => canBusOff v e

/-- BUS_OFF_RECOVERY (R577): the controller may rejoin. -/
def execBusOffRecovery (e : Fin 2) (s : State) : Out := onVol s fun _ v => canRejoin v e

/-- HSP_WRITE (R578): command 0x02. -/
def execHspWrite (addr : Word) (ws : List Word) (s : State) : Out := onVol s fun nv v => hspWriteCmd nv v addr.toNat ws

/-- HSP_READ (R579): command 0x0B; the host shifts n words. -/
def execHspRead (addr : Word) (n : Nat) (s : State) : Out := onVol s fun nv v => hspReadCmd nv v addr.toNat n

/-- HSP_STATUS (R578): command 0x05. -/
def execHspStatus (s : State) : Out := onVol s fun _ v => hspStatusCmd v

/-- HSP_BAD_COMMAND (R578): another command. -/
def execHspBadCommand (cmd : Byte) (s : State) : Out := onVol s fun _ v => hspBad v cmd

/-- HSP_CS_RISE (R580): HSP_CS_N rises after some bits of a word. -/
def execHspCsRise (partialBits : Nat) (s : State) : Out := onVol s fun _ v => hspCs v partialBits

/-- VBUS_CONNECT (R582): SVC_VBUS rises. -/
def execVbusConnect (s : State) : Out := onVol s fun nv v => vbusChange nv v true

/-- INFO (R583): diagnostic message INFO. -/
def execInfo (msg : List Byte) (s : State) : Out := onVol s fun nv v => diagMessage nv v 1 msg

/-- DIAG_READ (R583): diagnostic message READ. -/
def execDiagRead (msg : List Byte) (s : State) : Out := onVol s fun nv v => diagMessage nv v 2 msg

/-- DIAG_WRITE (R583): diagnostic message WRITE. -/
def execDiagWrite (msg : List Byte) (s : State) : Out := onVol s fun nv v => diagMessage nv v 3 msg

/-- EXTEST (R588): EXTEST is selected; `rstLow` says whether RST_N is held low. -/
def execExtest (rstLow : Bool) (s : State) : Out := onVol s fun _ v => jtagPads v 0 false rstLow

/-- IDCODE (R586): IDCODE is selected. -/
def execIdcode (s : State) : Out := onVol s fun _ v => jtagSelect v 1 false false 0x19640E77

/-- SAMPLE_PRELOAD (R586): the boundary register is captured or loaded. -/
def execSamplePreload (load : Bool) (cells : List Bool) (s : State) : Out := onVol s fun _ v => jtagSample v load cells

/-- CLAMP (R588): CLAMP is selected. -/
def execClamp (rstLow : Bool) (s : State) : Out := onVol s fun _ v => jtagPads v 4 false rstLow

/-- HIGHZ (R588): HIGHZ is selected. -/
def execHighz (rstLow : Bool) (s : State) : Out := onVol s fun _ v => jtagPads v 5 true rstLow

/-- BYPASS (R586): BYPASS is selected. -/
def execBypass (s : State) : Out := onVol s fun _ v => jtagSelect v 31 false false 0

/-- DBGACC (R589): an Update-DR of the debug access register. -/
def execDbgacc (reg : BitVec 72) (s : State) : Out := onVol s fun nv v => debugRequest nv v reg

/-- TEST_LOGIC_RESET (R586): Test-Logic-Reset, or TRST_N low. -/
def execTestLogicReset (s : State) : Out := onVol s fun _ v => jtagSelect v 1 false false 0x19640E77

/-- DBG_AUTH (R590): DBG_AUTH is written. -/
def execDbgAuth (m : Fin 16) (w : Word) (s : State) : Out := onVol s fun nv v => wr nv v m (ra pDbg 0x040) w

/-- USB_STANDARD_REQUEST (R582): a standard request on endpoint 0. -/
def execUsbStandardRequest (setup : List Byte) (s : State) : Out := onVol s fun _ v => usbRequest v setup

/-- USB_BUS_RESET (R595): a USB bus reset. -/
def execUsbBusReset (s : State) : Out := onVol s fun _ v => usbReset v

/-- USB_SUSPEND (R596): the USB bus idles. -/
def execUsbSuspend (s : State) : Out := onVol s fun _ v => usbIdle v

/-- USB_RESUME (R595): USB activity after a suspend. -/
def execUsbResume (s : State) : Out := onVol s fun _ v => usbWake v

/-- VBUS_LOSS (R596): SVC_VBUS falls. -/
def execVbusLoss (s : State) : Out := onVol s fun nv v => vbusChange nv v false

end Sys2Proof.Machine
end

