-- ==== Sys2Proof/Machine/LdgCmds.lean ====
section
/-! DEFINITION. Meanings of the commands: Ledger (R441-R480). -/

namespace Sys2Proof.Machine

/-- FORMAT (R475): LDG_CMD = 1 is written; `scan` is what it finds. -/
def execFormat (m : Fin 16) (scan : NandScan) (s : State) : Out := onVol s fun nv v => ldgCommand nv v m 1 (some scan)

/-- MOUNT (R452): LDG_CMD = 2 is written; `scan` is what it finds. -/
def execMount (m : Fin 16) (scan : NandScan) (s : State) : Out := onVol s fun nv v => ldgCommand nv v m 2 (some scan)

/-- FLUSH (R467): LDG_CMD = 3 is written. -/
def execFlush (m : Fin 16) (s : State) : Out := onVol s fun nv v => ldgCommand nv v m 3 none

/-- SEAL (R462): LDG_CMD = 4 is written. -/
def execSeal (m : Fin 16) (s : State) : Out := onVol s fun nv v => ldgCommand nv v m 4 none

/-- PROVE (R472): LDG_CMD = 5 is written. -/
def execProve (m : Fin 16) (s : State) : Out := onVol s fun nv v => ldgCommand nv v m 5 none

/-- READ (R473): LDG_CMD = 6 is written. -/
def execRead (m : Fin 16) (s : State) : Out := onVol s fun nv v => ldgCommand nv v m 6 none

/-- UNMOUNT (R475): LDG_CMD = 7 is written. -/
def execUnmount (m : Fin 16) (s : State) : Out := onVol s fun nv v => ldgCommand nv v m 7 none

/-- STGWR (R474): LDG_CMD = 8 is written. -/
def execStgwr (m : Fin 16) (s : State) : Out := onVol s fun nv v => ldgCommand nv v m 8 none

/-- STGRD (R474): LDG_CMD = 9 is written. -/
def execStgrd (m : Fin 16) (s : State) : Out := onVol s fun nv v => ldgCommand nv v m 9 none

/-- STGERASE (R474): LDG_CMD = 10 is written. -/
def execStgerase (m : Fin 16) (s : State) : Out := onVol s fun nv v => ldgCommand nv v m 10 none

/-- LDG_SQTAIL (R456): LDG_SQTAIL is written. -/
def execLdgSqtail (m : Fin 16) (w : Word) (s : State) : Out := onVol s fun nv v => wr nv v m (aLdg 0x078) w

/-- LDG_SUBMISSION (R456): Ledger takes a ring entry. -/
def execLdgSubmission (s : State) : Out := onVol s fun nv v => ldgTakes nv v

/-- SEAL_TIMER (R462): the seal period of stream t ends. -/
def execSealTimer (t : Fin 64) (s : State) : Out := onVol s fun nv v => sealTimeUp nv v t

/-- SEAL_SIGNED (R465): the seal of stream t is signed. -/
def execSealSigned (t : Fin 64) (s : State) : Out := onBoth s fun nv v => idGoes nv (sealIsSigned nv v t)

/-- PAGE_PROGRAM_DONE (R469): a page program of stream t ends. -/
def execPageProgramDone (t : Fin 64) (pass : Bool) (s : State) : Out := onVol s fun nv v => pageProgrammed nv v t pass

/-- BLOCK_ERASE_DONE (R447): a block erase ends. -/
def execBlockEraseDone (blk : Nat) (pass : Bool) (s : State) : Out := onVol s fun nv v => blockErased nv v blk pass

/-- LUN_TIMEOUT (R444): a LUN stays busy. -/
def execLunTimeout (l : LunId) (s : State) : Out := onVol s fun nv v => lunExpires nv v l

/-- LDG_FMTDATA (R453): LDG_FMTDATA is read or written. -/
def execLdgFmtdata (m : Fin 16) (wd : Option Word) (s : State) : Out := onVol s fun nv v => rdwr nv v m (aLdg 0x06C) wd

/-- LDG_SNEXTLO_READ (R476): LDG_SNEXTLO is read. -/
def execLdgSnextloRead (m : Fin 16) (s : State) : Out := onVol s fun nv v => busRead nv v m (aLdg 0x0A4)

/-- LDG_SDURLO_READ (R476): LDG_SDURLO is read. -/
def execLdgSdurloRead (m : Fin 16) (s : State) : Out := onVol s fun nv v => busRead nv v m (aLdg 0x0AC)

/-- LDG_COMMAND_DONE (R475): the Ledger command ends; `worst` is the worst count of corrected bits, none when a page is uncorrectable. -/
def execLdgCommandDone (worst : Option (Fin 73)) (s : State) : Out := onVol s fun nv v => ldgDone nv v worst

end Sys2Proof.Machine
end

