-- ==== Sys2Proof/Machine/LksCmds.lean ====
section
/-! DEFINITION. Meanings of the commands: Locksmith, update and the service-port messages (R481-R530). -/

namespace Sys2Proof.Machine

/-- VERIFY (R491): LKS_CMD = 1 is written. -/
def execVerify (m : Fin 16) (s : State) : Out := onVol s fun nv v => wr nv v m (aLks 0 0x040) 1

/-- ACTIVATE (R505): LKS_CMD = 2 is written. -/
def execActivate (m : Fin 16) (s : State) : Out := onVol s fun nv v => wr nv v m (aLks 0 0x040) 2

/-- RESUME (R509): LKS_CMD = 3 is written. -/
def execResume (m : Fin 16) (s : State) : Out := onVol s fun nv v => wr nv v m (aLks 0 0x040) 3

/-- CONFIRM (R512): LKS_CMD = 4 is written. -/
def execConfirm (m : Fin 16) (s : State) : Out := onVol s fun nv v => wr nv v m (aLks 0 0x040) 4

/-- REJECT (R513): LKS_CMD = 5 is written. -/
def execReject (m : Fin 16) (s : State) : Out := onVol s fun nv v => wr nv v m (aLks 0 0x040) 5

/-- QUOTE (R520): LKS_CMD = 6 is written. -/
def execQuote (m : Fin 16) (s : State) : Out := onVol s fun nv v => wr nv v m (aLks 0 0x040) 6

/-- HASH (R526): LKS_CMD = 7 is written. -/
def execHash (m : Fin 16) (s : State) : Out := onVol s fun nv v => wr nv v m (aLks 0 0x040) 7

/-- RANDOM (R526): LKS_CMD = 8 is written. -/
def execRandom (m : Fin 16) (s : State) : Out := onVol s fun nv v => wr nv v m (aLks 0 0x040) 8

/-- AEAD (R526): LKS_CMD = 9 is written. -/
def execAead (m : Fin 16) (s : State) : Out := onVol s fun nv v => wr nv v m (aLks 0 0x040) 9

/-- ECDH (R526): LKS_CMD = 10 is written. -/
def execEcdh (m : Fin 16) (s : State) : Out := onVol s fun nv v => wr nv v m (aLks 0 0x040) 10

/-- SIGN (R526): LKS_CMD = 11 is written. -/
def execSign (m : Fin 16) (s : State) : Out := onVol s fun nv v => wr nv v m (aLks 0 0x040) 11

/-- UKGEN (R526): LKS_CMD = 12 is written. -/
def execUkgen (m : Fin 16) (s : State) : Out := onVol s fun nv v => wr nv v m (aLks 0 0x040) 12

/-- UKLOAD (R526): LKS_CMD = 13 is written. -/
def execUkload (m : Fin 16) (s : State) : Out := onVol s fun nv v => wr nv v m (aLks 0 0x040) 13

/-- INCR (R515): LKS_CMD = 14 is written. -/
def execIncr (m : Fin 16) (s : State) : Out := onVol s fun nv v => wr nv v m (aLks 0 0x040) 14

/-- DBGAUTH (R518): LKS_CMD = 15 is written. -/
def execDbgauth (m : Fin 16) (s : State) : Out := onVol s fun nv v => wr nv v m (aLks 0 0x040) 15

/-- ROOTSET (R526): LKS_CMD = 16 is written. -/
def execRootset (m : Fin 16) (s : State) : Out := onVol s fun nv v => wr nv v m (aLks 0 0x040) 16

/-- IDGEN (R526): LKS_CMD = 17 is written. -/
def execIdgen (m : Fin 16) (s : State) : Out := onVol s fun nv v => wr nv v m (aLks 0 0x040) 17

/-- PROVDATA (R522): LKS_CMD = 18 is written. -/
def execProvdata (m : Fin 16) (s : State) : Out := onVol s fun nv v => wr nv v m (aLks 0 0x040) 18

/-- LCSTEP (R489): LKS_CMD = 19 is written. -/
def execLcstep (m : Fin 16) (s : State) : Out := onVol s fun nv v => wr nv v m (aLks 0 0x040) 19

/-- REVOKE (R517): LKS_CMD = 20 is written. -/
def execRevoke (m : Fin 16) (s : State) : Out := onVol s fun nv v => wr nv v m (aLks 0 0x040) 20

/-- LKS_COMMAND_DONE (R526): the Locksmith command ends. -/
def execLksCommandDone (s : State) : Out := onBoth s fun nv v => lksDone nv v

/-- HELLO (R501): update message 1 arrives. -/
def execHello (msg : List Byte) (s : State) : Out := onBoth s fun nv v => svcMessage nv v 1 msg

/-- BEGIN (R503): update message 2 arrives. -/
def execBegin (msg : List Byte) (s : State) : Out := onBoth s fun nv v => svcMessage nv v 2 msg

/-- MANIFEST (R503): update message 3 arrives. -/
def execManifest (msg : List Byte) (s : State) : Out := onBoth s fun nv v => svcMessage nv v 3 msg

/-- BLOCK (R503): update message 4 arrives. -/
def execBlock (msg : List Byte) (s : State) : Out := onBoth s fun nv v => svcMessage nv v 4 msg

/-- INSTALL (R503): update message 5 arrives. -/
def execInstall (msg : List Byte) (s : State) : Out := onBoth s fun nv v => svcMessage nv v 5 msg

/-- SERVICE_PORT_VERIFY (R503): update message 6 arrives. -/
def execServicePortVerify (msg : List Byte) (s : State) : Out := onBoth s fun nv v => svcMessage nv v 6 msg

/-- SERVICE_PORT_ACTIVATE (R505): update message 7 arrives. -/
def execServicePortActivate (msg : List Byte) (s : State) : Out := onBoth s fun nv v => svcMessage nv v 7 msg

/-- STATUS (R501): update message 8 arrives. -/
def execStatus (msg : List Byte) (s : State) : Out := onBoth s fun nv v => svcMessage nv v 8 msg

/-- ABORT (R501): update message 9 arrives. -/
def execAbort (msg : List Byte) (s : State) : Out := onBoth s fun nv v => svcMessage nv v 9 msg

/-- SERVICE_PORT_QUOTE (R501): update message 10 arrives. -/
def execServicePortQuote (msg : List Byte) (s : State) : Out := onBoth s fun nv v => svcMessage nv v 10 msg

/-- SESSION_TIMEOUT (R500): the session has had no message for 60 s. -/
def execSessionTimeout (s : State) : Out := onVol s fun _ v => sessionTimesOut v

/-- ACTIVATION_SWITCH (R507): the part switches planes within tick S. -/
def execActivationSwitch (s : State) : Out := onVol s fun nv v => switchPlanes nv v (drainAll nv)

/-- PAUSE_TIMEOUT (R510): no RESUME in time. -/
def execPauseTimeout (s : State) : Out := onVol s fun _ v => pauseExpires v

/-- PROBATION_WARNING (R511): 60 s of probation remain. -/
def execProbationWarning (s : State) : Out := onVol s fun _ v => probWarns v

/-- PROBATION_EXPIRY (R513): probation ends unconfirmed. -/
def execProbationExpiry (s : State) : Out := onBoth s fun nv v => probExpires nv v

/-- TAMPER (R523): the mesh does not match. -/
def execTamper (s : State) : Out := onBoth s fun nv v => idGoes nv (meshTamper v)

/-- COLD_TAMPER_CHECK (R523): the VBAT domain checks the mesh in COLD. -/
def execColdTamperCheck (mismatch : Bool) (s : State) : Out := onVol s fun _ v => coldCheck v mismatch

/-- GLITCH (R524): a voltage or clock glitch. -/
def execGlitch (s : State) : Out := onBoth s fun nv v => idGoes nv (lksGlitch v)

/-- DEBUG_ACCESS_EXPIRY (R519): debug access ends. -/
def execDebugAccessExpiry (s : State) : Out := onVol s fun _ v => dbgExpires v

end Sys2Proof.Machine
end

