-- ==== Sys2Proof/Machine/MemCmds.lean ====
section
/-! DEFINITION. Meanings of the commands: flash, Whetstone, DMA, Tally and the mailboxes (R239-R313). -/

namespace Sys2Proof.Machine

/-- PROG (R244): FLC_CMD = 1 is written. -/
def execProg (m : Fin 16) (s : State) : Out := onVol s fun nv v => wr nv v m (ra pFlc 0x040) 1

/-- ESECT (R268): FLC_CMD = 2 is written. -/
def execEsect (m : Fin 16) (s : State) : Out := onVol s fun nv v => wr nv v m (ra pFlc 0x040) 2

/-- EPLANE (R268): FLC_CMD = 3 is written. -/
def execEplane (m : Fin 16) (s : State) : Out := onVol s fun nv v => wr nv v m (ra pFlc 0x040) 3

/-- BLANK (R269): FLC_CMD = 4 is written. -/
def execBlank (m : Fin 16) (s : State) : Out := onVol s fun nv v => wr nv v m (ra pFlc 0x040) 4

/-- FLC_OP_DONE (R245): the FLC command ends; `good` says whether it verified. -/
def execFlcOpDone (us : BitVec 20) (good : Bool) (s : State) : Out := onBoth s fun nv v => flcDone nv v us.toNat good

/-- WHS_REGION_START (R263): Whetstone takes the next region. -/
def execWhsRegionStart (s : State) : Out := onVol s fun _ v => whsRegionStart v

/-- WHS_REGION_DONE (R261): a region passes or fails. -/
def execWhsRegionDone (fail : Option MarchFail) (s : State) : Out := onVol s fun _ v => whsRegionDone v fail

/-- WHS_REGION_TIMEOUT (R263): a region is not restored in time. -/
def execWhsRegionTimeout (s : State) : Out := onVol s fun _ v => whsRegionTimeout v

/-- FAST (R264): WHS CTL.FAST is written. -/
def execFast (m : Fin 16) (s : State) : Out := onVol s fun nv v => setBits nv v m (aCtl pWhs) 2

/-- FAST_PASS_DONE (R264): the fast pass ends. -/
def execFastPassDone (len : BitVec 20) (marchFail : Bool) (s : State) : Out :=
  onVol s fun _ v =>
    whsFastDone v len.toNat marchFail

/-- FSIG_LINE_READ (R265): one flash line enters the signature. -/
def execFsigLineRead (s : State) : Out := onVol s fun nv v => whsFlashLine nv v

/-- DMA_GO (R291): DMA_CCTL.GO is written. -/
def execDmaGo (m : Fin 16) (e : Fin 2) (c : Fin 8) (s : State) : Out :=
  onVol s fun nv v =>
    setBits nv v m (aDma e c 0x104) 1

/-- DMA_DESCRIPTOR_READ (R291): a channel reads its descriptor. -/
def execDmaDescriptorRead (e : Fin 2) (c : Fin 8) (s : State) : Out := onVol s fun nv v => dmaStep nv v e c dmaFetch

/-- DMA_BURST (R291): one burst moves. -/
def execDmaBurst (e : Fin 2) (c : Fin 8) (s : State) : Out := onVol s fun nv v => dmaStep nv v e c dmaBurst

/-- DMA_ABORT (R293): DMA_CCTL.ABORT is written. -/
def execDmaAbort (m : Fin 16) (e : Fin 2) (c : Fin 8) (s : State) : Out :=
  onVol s fun nv v =>
    setBits nv v m (aDma e c 0x104) 4

/-- TALLY_LINE_RISE (R299): a pending source is handed to its route. -/
def execTallyLineRise (n : Fin 512) (s : State) : Out := onVol s fun _ v => tallyHand v n

/-- TAL_SET (R298): TAL_SET[i] is written. -/
def execTalSet (m : Fin 16) (i : Fin 16) (w : Word) (s : State) : Out :=
  onVol s fun nv v =>
    wr nv v m (ra (pTal + 2) (0x100 + 4 * i)) w

/-- TAL_PEND (R298): TAL_PEND[i] is written. -/
def execTalPend (m : Fin 16) (i : Fin 16) (w : Word) (s : State) : Out :=
  onVol s fun nv v =>
    wr nv v m (ra (pTal + 2) (0x080 + 4 * i)) w

/-- TAL_EN (R298): TAL_EN[i] is written. -/
def execTalEn (m : Fin 16) (i : Fin 16) (w : Word) (s : State) : Out :=
  onVol s fun nv v =>
    wr nv v m (ra (pTal + 2) (0x040 + 4 * i)) w

/-- MBX_MSG (R305): a message word of mailbox b is written. -/
def execMbxMsg (m : Fin 16) (b : Fin 24) (i : Fin 8) (w : Word) (s : State) : Out :=
  onVol s fun nv v =>
    wr nv v m (aMbx b (0x20 + 4 * i)) w

/-- MBX_POST (R305): MBX_POST is written. -/
def execMbxPost (m : Fin 16) (b : Fin 24) (w : Word) (s : State) : Out := onVol s fun nv v => wr nv v m (aMbx b 0x08) w

/-- MBX_RING (R305): MBX_RING is written. -/
def execMbxRing (m : Fin 16) (b : Fin 24) (w : Word) (s : State) : Out := onVol s fun nv v => wr nv v m (aMbx b 0x0C) w

/-- MBX_DONE (R305): MBX_DONE is written. -/
def execMbxDone (m : Fin 16) (b : Fin 24) (w : Word) (s : State) : Out := onVol s fun nv v => wr nv v m (aMbx b 0x18) w

/-- MBX_DB (R305): MBX_DB is written. -/
def execMbxDb (m : Fin 16) (b : Fin 24) (w : Word) (s : State) : Out := onVol s fun nv v => wr nv v m (aMbx b 0x10) w

end Sys2Proof.Machine
end

