-- ==== Sys2Proof/Machine/ProcessCmds.lean ====
section
/-! DEFINITION. Meanings of the commands: measurement, trips and outputs (R315-R402). -/

namespace Sys2Proof.Machine

/-- MEA_CONVERSION (R326): the window of block b ends. -/
def execMeaConversion (b : Fin 24) (inp : BlockInput) (s : State) : Out := onVol s fun _ v => meaWindow v b inp

/-- BURNOUT_PULSE (R337): the burnout voltage of a channel is measured. -/
def execBurnoutPulse (b : Fin 24) (i : Fin 8) (microvolts : Nat) (s : State) : Out :=
  onVol s fun _ v =>
    meaBurnout v b i microvolts

/-- MEA_FACTORY_READ (R328): block b has read its factory record. -/
def execMeaFactoryRead (b : Fin 24) (s : State) : Out := onVol s fun nv v => factoryRead nv v b

/-- MEA_CRVDATA (R341): MEA_CRVDATA is read or written. -/
def execMeaCrvdata (m : Fin 16) (b : Fin 24) (wd : Option Word) (s : State) : Out :=
  onVol s fun nv v =>
    rdwr nv v m (ra (pMea b) 0x060) wd

/-- MEA_WAKE_CONVERSION (R343): a kept block converts in BANKED. -/
def execMeaWakeConversion (b : Fin 24) (inp : BlockInput) (s : State) : Out := onVol s fun _ v => meaWake v b inp

/-- TRIP_CROSSING (R345): a trip input moves to a level beyond its limit. -/
def execTripCrossing (x : TripInput) (s : State) : Out := onVol s fun _ v => tripInput v x.input x.level x.held

/-- TRIP_INPUT_RETURN (R344): a trip input moves back. -/
def execTripInputReturn (x : TripInput) (s : State) : Out := onVol s fun _ v => tripInput v x.input x.level x.held

/-- TRP_CLEAR (R347): TRP_CLEAR is written. -/
def execTrpClear (m : Fin 16) (w : Word) (s : State) : Out := onVol s fun nv v => wr nv v m (ra pTrp 0x0A4) w

/-- TRP_TEST (R349): TRP_TEST is written. -/
def execTrpTest (m : Fin 16) (w : Word) (s : State) : Out := onVol s fun nv v => wr nv v m (ra pTrp 0x0AC) w

/-- TRP_LOCK (R350): TRP_LOCK is written. -/
def execTrpLock (m : Fin 16) (w : Word) (s : State) : Out := onVol s fun nv v => wr nv v m (ra pTrp 0x0B0) w

/-- STAGING_WRITE (R362): a staging register is written. -/
def execStagingWrite (m : Fin 16) (addr : Word) (w : TWord) (s : State) : Out :=
  onVol s fun nv v =>
    busWrite nv v m .word addr.toNat w

/-- STOKER_DECISION (R375): Stoker decides for phase p. -/
def execStokerDecision (p : Fin 3) (s : State) : Out := onVol s fun _ v => stokerDecide v p

/-- STOKER_FIRE (R372): a granted channel fires. -/
def execStokerFire (c : Fin 64) (s : State) : Out := onVol s fun _ v => stokerFires v c

/-- STOKER_FIRE_END (R372): a firing output ends. -/
def execStokerFireEnd (c : Fin 64) (s : State) : Out := onVol s fun _ v => stokerFireEnds v c

/-- STOKER_HOLD_EXPIRY (R379): the hold of demands expires. -/
def execStokerHoldExpiry (s : State) : Out := onVol s fun _ v => holdExpire v

/-- BUDGET_TIMEOUT (R377): the external budget times out. -/
def execBudgetTimeout (s : State) : Out := onVol s fun _ v => budgetExpire v

/-- STK_EXTBUD (R377): STK_EXTBUD[p] is written. -/
def execStkExtbud (m : Fin 16) (p : Fin 3) (w : Word) (s : State) : Out :=
  onVol s fun nv v =>
    wr nv v m (ra pStk (0x050 + 4 * p)) w

/-- STK_ACC (R395): STK_ACC[c] is written. -/
def execStkAcc (m : Fin 16) (c : Fin 64) (w : Word) (s : State) : Out := onVol s fun nv v => wr nv v m (aAcc c) w

/-- ZERO_CROSSING (R366): a mains crossing of phase p. -/
def execZeroCrossing (p : Fin 3) (rising : Bool) (s : State) : Out := onVol s fun _ v => zeroCross v p rising

/-- PHASE_LOST (R368): phase p has no crossing by its deadline. -/
def execPhaseLost (p : Fin 3) (s : State) : Out := onVol s fun _ v => phaseTimeout v p

/-- MOT_TURNING_POINT (R386): a carrier turning point of group g. -/
def execMotTurningPoint (g : Fin 8) (top : Bool) (s : State) : Out := onVol s fun _ v => motTurn v g top

/-- PEAK_END (R388): the peak of a valve ends. -/
def execPeakEnd (x : Fin 48) (s : State) : Out := onVol s fun _ v => valvePeakEnd v x

/-- CLAMP_END (R389): the clamp of a valve ends. -/
def execClampEnd (x : Fin 48) (s : State) : Out := onVol s fun _ v => valveClampEnd v x

/-- GIO_INPUT_EDGE (R393): a filtered pin level changes. -/
def execGioInputEdge (n : Fin 64) (level : Bool) (s : State) : Out := onVol s fun _ v => gioInput v n level

end Sys2Proof.Machine
end

