-- ==== Sys2Proof/Machine/SysCmds.lean ====
section
/-! DEFINITION. Meanings of the commands: clocks, reset, power and modes (R531-R567). -/

namespace Sys2Proof.Machine

/-- CRYSTAL_READY (R533): the crystal is ready. -/
def execCrystalReady (s : State) : Out := onVol s fun _ v => crystalIsReady v

/-- PLL_LOCK (R534): PLL j locks. -/
def execPllLock (j : Fin 2) (s : State) : Out := onVol s fun _ v => pllLocks v j

/-- PLL_CFG (R534): PLL_CFG[j] is written. -/
def execPllCfg (m : Fin 16) (j : Fin 2) (w : Word) (s : State) : Out :=
  onVol s fun nv v =>
    wr nv v m (ra pClk (0x048 + 4 * j)) w

/-- MONITOR_WINDOW (R538): a window of monitor i ends. -/
def execMonitorWindow (i : Fin 4) (count : BitVec 12) (s : State) : Out := onVol s fun _ v => monWindow v i count.toNat

/-- PLL_COAST (R539): PLL j loses its reference. -/
def execPllCoast (j : Fin 2) (s : State) : Out := onVol s fun _ v => coast v j

/-- CLK_SEL (R540): CLK_SEL is written. -/
def execClkSel (m : Fin 16) (w : Word) (s : State) : Out := onVol s fun nv v => wr nv v m (ra pClk 0x040) w

/-- CLK_DIV (R537): CLK_DIV is written. -/
def execClkDiv (m : Fin 16) (w : Word) (s : State) : Out := onVol s fun nv v => wr nv v m (ra pClk 0x044) w

/-- POWER_ON_RESET (R543): the supplies rise; `vbatLost` says whether the VBAT domain has lost its state. -/
def execPowerOnReset (xtsel : BitVec 2) (vbatLost : Bool) (prime : Bool) (s : State) : Out :=
  onVol s fun _ v =>
    powerOn v xtsel.toNat vbatLost prime

/-- BROWN_OUT (R543): VDD_CORE sags. -/
def execBrownOut (xtsel : BitVec 2) (s : State) : Out :=
  onVol s fun _ v =>
    unlessCold v fun v => wholeReset v 1 (some xtsel.toNat)

/-- PIN_RESET (R543): RST_N is held low and released. -/
def execPinReset (s : State) : Out := onVol s fun _ v => unlessCold v fun v => wholeReset v 2 none

/-- RST_SOFT (R543): RST_SOFT is written. -/
def execRstSoft (m : Fin 16) (w : Word) (s : State) : Out := onVol s fun nv v => wr nv v m (ra pRst 0x044) w

/-- RST_DOM (R545): RST_DOM[i] is written. -/
def execRstDom (m : Fin 16) (i : Fin 3) (w : Word) (s : State) : Out :=
  onVol s fun nv v =>
    wr nv v m (ra pRst (0x048 + 4 * i)) w

/-- DOMAIN_RESET_DONE (R545): every block of domain d is READY. -/
def execDomainResetDone (d : Fin 97) (s : State) : Out := onVol s fun _ v => domainResetEnds v d

/-- RST_WDCFG (R547): RST_WDCFG is written. -/
def execRstWdcfg (m : Fin 16) (w : Word) (s : State) : Out := onVol s fun nv v => wr nv v m (ra pRst 0x054) w

/-- RST_WDKICK (R547): RST_WDKICK is written. -/
def execRstWdkick (m : Fin 16) (w : Word) (s : State) : Out := onVol s fun nv v => wr nv v m (ra pRst 0x058) w

/-- WATCHDOG_WARNING (R547): a quarter of the watchdog period remains. -/
def execWatchdogWarning (s : State) : Out := onVol s fun _ v => wdWarning v

/-- WATCHDOG_EXPIRY (R547): the watchdog count ends. -/
def execWatchdogExpiry (s : State) : Out := onVol s fun _ v => wdExpiry v

/-- WATCHDOG_RESET (R547): the watchdog reset. -/
def execWatchdogReset (s : State) : Out := onVol s fun _ v => wdReset v

/-- DOMAIN_POWER_UP (R550): a PWR_ON bit is set. -/
def execDomainPowerUp (m : Fin 16) (d : Fin 97) (s : State) : Out := onVol s fun nv v => pwrOnBit nv v m d true

/-- POWER_GOOD (R550): power-good of domain d. -/
def execPowerGood (d : Fin 97) (s : State) : Out := onVol s fun nv v => powerIsGood nv v d

/-- POWER_GOOD_TIMEOUT (R550): no power-good of domain d in time. -/
def execPowerGoodTimeout (d : Fin 97) (s : State) : Out := onVol s fun nv v => powerIsBad nv v d

/-- DOMAIN_POWER_DOWN (R551): a PWR_ON bit is cleared. -/
def execDomainPowerDown (m : Fin 16) (d : Fin 97) (s : State) : Out := onVol s fun nv v => pwrOnBit nv v m d false

/-- SUPPLY_WARNING (R565): supplies fall below their warnings: VDD_CORE, VDDA, VDDIO33. -/
def execSupplyWarning (low : BitVec 3) (s : State) : Out := onVol s fun _ v => supplyWarn v low.toNat

/-- CORE_SUPPLY_LOSS (R553): VDD_CORE is lost with VBAT present. -/
def execCoreSupplyLoss (s : State) : Out := onVol s fun _ v => coreSupplyLost v

/-- VBAT_MEASURE (R564): VBAT is measured. -/
def execVbatMeasure (mv : BitVec 12) (s : State) : Out := onVol s fun _ v => vbatSet v mv.toNat

/-- SYS_TEMP_UPDATE (R561): the die temperature is updated. -/
def execSysTempUpdate (t : Word) (s : State) : Out := onVol s fun _ v => tempSet v t

/-- MODE_REQ_RUN (R553): SYS_MODEREQ = 4 is written. -/
def execModeReqRun (m : Fin 16) (s : State) : Out := onVol s fun nv v => wr nv v m (ra pSys 0x044) 4

/-- MODE_REQ_WARM (R553): SYS_MODEREQ = 3 is written. -/
def execModeReqWarm (m : Fin 16) (s : State) : Out := onVol s fun nv v => wr nv v m (ra pSys 0x044) 3

/-- MODE_REQ_SERVICE (R553): SYS_MODEREQ = 6 is written. -/
def execModeReqService (m : Fin 16) (s : State) : Out := onVol s fun nv v => wr nv v m (ra pSys 0x044) 6

/-- MODE_REQ_SAFE (R555): SYS_MODEREQ = 7 is written. -/
def execModeReqSafe (m : Fin 16) (s : State) : Out := onVol s fun nv v => wr nv v m (ra pSys 0x044) 7

/-- MODE_REQ_BANKED (R556): SYS_MODEREQ = 2 is written. -/
def execModeReqBanked (m : Fin 16) (s : State) : Out := onVol s fun nv v => wr nv v m (ra pSys 0x044) 2

/-- LOCKSMITH_BOOT_COMPLETE (R544): Locksmith's boot ends. -/
def execLocksmithBootComplete (s : State) : Out := onBoth s fun nv v => bootDone nv v

/-- RTC_SECOND (R560): a whole second of the RTC. -/
def execRtcSecond (s : State) : Out := onVol s fun _ v => rtcTick v

end Sys2Proof.Machine
end

