-- ==== Sys2Proof/Machine/YokCmds.lean ====
section
/-! DEFINITION. Meanings of the commands: twin operation (R403-R440). -/

namespace Sys2Proof.Machine

/-- MARK (R410): a MARK arrives. -/
def execMark (f : List Byte) (s : State) : Out := onVol s fun _ v => markArrives v f

/-- SNAP (R412): a SNAP arrives. -/
def execSnap (f : List Byte) (s : State) : Out := onVol s fun _ v => snapArrives v f

/-- RPLY (R411): a RPLY arrives. -/
def execRply (f : List Byte) (s : State) : Out := onVol s fun _ v => rplyArrives v f

/-- NAK (R419): a NAK arrives. -/
def execNak (f : List Byte) (s : State) : Out := onVol s fun _ v => nakArrives v f

/-- MBOX (R436): an MBOX arrives. -/
def execMbox (f : List Byte) (s : State) : Out := onVol s fun _ v => mailArrives v f

/-- STATE (R414): a STATE arrives. -/
def execState (f : List Byte) (s : State) : Out := onVol s fun _ v => stateArrives v f

/-- ECHO (R407): CTRL operation 1 arrives. -/
def execEcho (f : List Byte) (s : State) : Out := onVol s fun _ v => ctrlArrives v f 1 echoArrives

/-- ECHOA (R407): CTRL operation 2 arrives. -/
def execEchoa (f : List Byte) (s : State) : Out := onVol s fun _ v => ctrlArrives v f 2 echoaArrives

/-- DOWN (R426): CTRL operation 3 arrives. -/
def execDown (f : List Byte) (s : State) : Out := onVol s fun _ v => ctrlArrives v f 3 downArrives

/-- ATTREQ (R430): CTRL operation 4 arrives. -/
def execAttreq (f : List Byte) (s : State) : Out := onVol s fun _ v => ctrlArrives v f 4 attreqArrives

/-- ATTACC (R430): CTRL operation 5 arrives. -/
def execAttacc (f : List Byte) (s : State) : Out := onVol s fun _ v => ctrlArrives v f 5 attaccArrives

/-- ATTREF (R430): CTRL operation 6 arrives. -/
def execAttref (f : List Byte) (s : State) : Out := onVol s fun _ v => ctrlArrives v f 6 attrefArrives

/-- CUTACK (R430): CTRL operation 7 arrives. -/
def execCutack (f : List Byte) (s : State) : Out := onVol s fun _ v => ctrlArrives v f 7 fun v p => cutackArrives v (frameTick f) p

/-- CUTEND (R430): CTRL operation 9 arrives. -/
def execCutend (f : List Byte) (s : State) : Out := onVol s fun _ v => ctrlArrives v f 9 cutendArrives

/-- CTRL_DETACH (R429): CTRL operation 8 arrives. -/
def execCtrlDetach (f : List Byte) (s : State) : Out := onVol s fun _ v => ctrlArrives v f 8 fun v _ => yokDetach v

/-- TAKEOVER (R424): the shadow takes over. -/
def execTakeover (freed : Bool) (s : State) : Out := onVol s fun _ v => takesOver v freed

/-- TOKEN_CLAIM (R405): YTOKI has been low for 80 c; a part alone takes the token. -/
def execTokenClaim (s : State) : Out := onVol s fun _ v => tokenClaims v

/-- TOKEN_CONFLICT (R440): both YTOKO nets are high. -/
def execTokenConflict (s : State) : Out := onVol s fun _ v => tokensConflict v

/-- LINK_UP (R406): the link comes up. -/
def execLinkUp (s : State) : Out := onVol s fun _ v => linkRises v

/-- LINK_DOWN (R429): the link goes down. -/
def execLinkDown (s : State) : Out := onVol s fun _ v => linkFalls v

/-- RPLY_MISS (R429): two boundaries without a RPLY. -/
def execRplyMiss (s : State) : Out := onVol s fun _ v => rplyMissed v

/-- ATTACH (R430): CTL.ATTACH is written with CTL.ATTMODE. -/
def execAttach (m : Fin 16) (mode : BitVec 2) (s : State) : Out := onVol s fun nv v => attachWrite nv v m mode

/-- DETACH (R429): CTL.DETACH is written. -/
def execDetach (m : Fin 16) (s : State) : Out := onVol s fun nv v => setBits nv v m (aCtl pYok) 8

/-- HANDOVER (R433): CTL.HANDOVER is written. -/
def execHandover (m : Fin 16) (s : State) : Out := onVol s fun nv v => setBits nv v m (aCtl pYok) 16

/-- ATTACH_TIMEOUT (R430): an attach has reached a limit. -/
def execAttachTimeout (s : State) : Out := onVol s fun _ v => attachExpires v

/-- YOK_RELAY (R435): YOK_RELAY is read. -/
def execYokRelay (m : Fin 16) (s : State) : Out := onVol s fun nv v => busRead nv v m (aYok 0x070)

end Sys2Proof.Machine
end

