-- ==== Sys2Proof/Machine/Dispatch.lean ====
section
/-! DEFINITION. The command set: one arm per command. -/

namespace Sys2Proof.Machine

def exec (i : Instr) (s : State) : Host.Outcome State Fault Refusal :=
  match i with
  | .registerWrite m sz addr w => Sys2Proof.Machine.execRegisterWrite m sz addr w s
  | .aliasWrite m sz addr w => Sys2Proof.Machine.execAliasWrite m sz addr w s
  | .gateAutoClose page => Sys2Proof.Machine.execGateAutoClose page s
  | .matrixTimeout m id addr => Sys2Proof.Machine.execMatrixTimeout m id addr s
  | .blockSoftrst m page => Sys2Proof.Machine.execBlockSoftrst m page s
  | .blockResetDone page => Sys2Proof.Machine.execBlockResetDone page s
  | .sramAliasWrite m sz addr w => Sys2Proof.Machine.execSramAliasWrite m sz addr w s
  | .tagViewWrite m sz addr w => Sys2Proof.Machine.execTagViewWrite m sz addr w s
  | .tickBoundary => Sys2Proof.Machine.execTickBoundary s
  | .dropEnd => Sys2Proof.Machine.execDropEnd s
  | .coreRelease => Sys2Proof.Machine.execCoreRelease s
  | .tickEn m => Sys2Proof.Machine.execTickEn m s
  | .tickStop m => Sys2Proof.Machine.execTickStop m s
  | .apply m => Sys2Proof.Machine.execApply m s
  | .sourceLost => Sys2Proof.Machine.execSourceLost s
  | .tickSvccommit m w => Sys2Proof.Machine.execTickSvccommit m w s
  | .tickNumLoRead m => Sys2Proof.Machine.execTickNumLoRead m s
  | .tickBtsNsRead m => Sys2Proof.Machine.execTickBtsNsRead m s
  | .bundleIssue k => Sys2Proof.Machine.execBundleIssue k s
  | .add k u a => Sys2Proof.Machine.execAdd k u a s
  | .sub k u a => Sys2Proof.Machine.execSub k u a s
  | .adds k u a => Sys2Proof.Machine.execAdds k u a s
  | .subs k u a => Sys2Proof.Machine.execSubs k u a s
  | .and k u a => Sys2Proof.Machine.execAnd k u a s
  | .or k u a => Sys2Proof.Machine.execOr k u a s
  | .xor k u a => Sys2Proof.Machine.execXor k u a s
  | .shl k u a => Sys2Proof.Machine.execShl k u a s
  | .shr k u a => Sys2Proof.Machine.execShr k u a s
  | .sar k u a => Sys2Proof.Machine.execSar k u a s
  | .rol k u a => Sys2Proof.Machine.execRol k u a s
  | .min k u a => Sys2Proof.Machine.execMin k u a s
  | .max k u a => Sys2Proof.Machine.execMax k u a s
  | .ceq k u a => Sys2Proof.Machine.execCeq k u a s
  | .clt k u a => Sys2Proof.Machine.execClt k u a s
  | .cltu k u a => Sys2Proof.Machine.execCltu k u a s
  | .tset k a => Sys2Proof.Machine.execTset k a s
  | .tchk k a => Sys2Proof.Machine.execTchk k a s
  | .mulS k a => Sys2Proof.Machine.execMulS k a s
  | .mulU k a => Sys2Proof.Machine.execMulU k a s
  | .divS k a => Sys2Proof.Machine.execDivS k a s
  | .divU k a => Sys2Proof.Machine.execDivU k a s
  | .ldw k a => Sys2Proof.Machine.execLdw k a s
  | .ldh k a => Sys2Proof.Machine.execLdh k a s
  | .ldb k a => Sys2Proof.Machine.execLdb k a s
  | .stw k a => Sys2Proof.Machine.execStw k a s
  | .sth k a => Sys2Proof.Machine.execSth k a s
  | .stb k a => Sys2Proof.Machine.execStb k a s
  | .jump k a => Sys2Proof.Machine.execJump k a s
  | .call k a => Sys2Proof.Machine.execCall k a s
  | .ret k => Sys2Proof.Machine.execRet k s
  | .retx k => Sys2Proof.Machine.execRetx k s
  | .fence k => Sys2Proof.Machine.execFence k s
  | .wft k => Sys2Proof.Machine.execWft k s
  | .wfi => Sys2Proof.Machine.execWfi s
  | .commit k => Sys2Proof.Machine.execCommit k s
  | .trap k a => Sys2Proof.Machine.execTrap k a s
  | .lpBegin k a => Sys2Proof.Machine.execLpBegin k a s
  | .lpPop k => Sys2Proof.Machine.execLpPop k s
  | .repGo k a => Sys2Proof.Machine.execRepGo k a s
  | .itpX k a => Sys2Proof.Machine.execItpX k a s
  | .seqEv k a => Sys2Proof.Machine.execSeqEv k a s
  | .sysW k a => Sys2Proof.Machine.execSysW k a s
  | .sysR k => Sys2Proof.Machine.execSysR k s
  | .modeChange k => Sys2Proof.Machine.execModeChange k s
  | .fsave k a => Sys2Proof.Machine.execFsave k a s
  | .frestore k a => Sys2Proof.Machine.execFrestore k a s
  | .evecWrite k a => Sys2Proof.Machine.execEvecWrite k a s
  | .evecLoadDone k => Sys2Proof.Machine.execEvecLoadDone k s
  | .longOpComplete k u => Sys2Proof.Machine.execLongOpComplete k u s
  | .heldAccessResponse k => Sys2Proof.Machine.execHeldAccessResponse k s
  | .interruptEntry => Sys2Proof.Machine.execInterruptEntry s
  | .storeBufferDrain => Sys2Proof.Machine.execStoreBufferDrain s
  | .btbload m k => Sys2Proof.Machine.execBtbload m k s
  | .btbLoadDone k => Sys2Proof.Machine.execBtbLoadDone k s
  | .haltreq m k b => Sys2Proof.Machine.execHaltreq m k b s
  | .run m k b => Sys2Proof.Machine.execRun m k b s
  | .prog m => Sys2Proof.Machine.execProg m s
  | .esect m => Sys2Proof.Machine.execEsect m s
  | .eplane m => Sys2Proof.Machine.execEplane m s
  | .blank m => Sys2Proof.Machine.execBlank m s
  | .flcOpDone us good => Sys2Proof.Machine.execFlcOpDone us good s
  | .whsRegionStart => Sys2Proof.Machine.execWhsRegionStart s
  | .whsRegionDone fail => Sys2Proof.Machine.execWhsRegionDone fail s
  | .whsRegionTimeout => Sys2Proof.Machine.execWhsRegionTimeout s
  | .fast m => Sys2Proof.Machine.execFast m s
  | .fastPassDone len marchFail => Sys2Proof.Machine.execFastPassDone len marchFail s
  | .fsigLineRead => Sys2Proof.Machine.execFsigLineRead s
  | .dmaGo m e c => Sys2Proof.Machine.execDmaGo m e c s
  | .dmaDescriptorRead e c => Sys2Proof.Machine.execDmaDescriptorRead e c s
  | .dmaBurst e c => Sys2Proof.Machine.execDmaBurst e c s
  | .dmaAbort m e c => Sys2Proof.Machine.execDmaAbort m e c s
  | .tallyLineRise n => Sys2Proof.Machine.execTallyLineRise n s
  | .talSet m j w => Sys2Proof.Machine.execTalSet m j w s
  | .talPend m j w => Sys2Proof.Machine.execTalPend m j w s
  | .talEn m j w => Sys2Proof.Machine.execTalEn m j w s
  | .mbxMsg m b j w => Sys2Proof.Machine.execMbxMsg m b j w s
  | .mbxPost m b w => Sys2Proof.Machine.execMbxPost m b w s
  | .mbxRing m b w => Sys2Proof.Machine.execMbxRing m b w s
  | .mbxDone m b w => Sys2Proof.Machine.execMbxDone m b w s
  | .mbxDb m b w => Sys2Proof.Machine.execMbxDb m b w s
  | .meaConversion b inp => Sys2Proof.Machine.execMeaConversion b inp s
  | .burnoutPulse b j microvolts => Sys2Proof.Machine.execBurnoutPulse b j microvolts s
  | .meaFactoryRead b => Sys2Proof.Machine.execMeaFactoryRead b s
  | .meaCrvdata m b wd => Sys2Proof.Machine.execMeaCrvdata m b wd s
  | .meaWakeConversion b inp => Sys2Proof.Machine.execMeaWakeConversion b inp s
  | .tripCrossing j => Sys2Proof.Machine.execTripCrossing j s
  | .tripInputReturn j => Sys2Proof.Machine.execTripInputReturn j s
  | .trpClear m w => Sys2Proof.Machine.execTrpClear m w s
  | .trpTest m w => Sys2Proof.Machine.execTrpTest m w s
  | .trpLock m w => Sys2Proof.Machine.execTrpLock m w s
  | .stagingWrite m addr w => Sys2Proof.Machine.execStagingWrite m addr w s
  | .stokerDecision p => Sys2Proof.Machine.execStokerDecision p s
  | .stokerFire c => Sys2Proof.Machine.execStokerFire c s
  | .stokerFireEnd c => Sys2Proof.Machine.execStokerFireEnd c s
  | .stokerHoldExpiry => Sys2Proof.Machine.execStokerHoldExpiry s
  | .budgetTimeout => Sys2Proof.Machine.execBudgetTimeout s
  | .stkExtbud m p w => Sys2Proof.Machine.execStkExtbud m p w s
  | .stkAcc m c w => Sys2Proof.Machine.execStkAcc m c w s
  | .zeroCrossing p rising => Sys2Proof.Machine.execZeroCrossing p rising s
  | .phaseLost p => Sys2Proof.Machine.execPhaseLost p s
  | .motTurningPoint g top => Sys2Proof.Machine.execMotTurningPoint g top s
  | .peakEnd x => Sys2Proof.Machine.execPeakEnd x s
  | .clampEnd x => Sys2Proof.Machine.execClampEnd x s
  | .gioInputEdge n level => Sys2Proof.Machine.execGioInputEdge n level s
  | .mark f => Sys2Proof.Machine.execMark f s
  | .snap f => Sys2Proof.Machine.execSnap f s
  | .rply f => Sys2Proof.Machine.execRply f s
  | .nak f => Sys2Proof.Machine.execNak f s
  | .mbox f => Sys2Proof.Machine.execMbox f s
  | .state f => Sys2Proof.Machine.execState f s
  | .echo f => Sys2Proof.Machine.execEcho f s
  | .echoa f => Sys2Proof.Machine.execEchoa f s
  | .down f => Sys2Proof.Machine.execDown f s
  | .attreq f => Sys2Proof.Machine.execAttreq f s
  | .attacc f => Sys2Proof.Machine.execAttacc f s
  | .attref f => Sys2Proof.Machine.execAttref f s
  | .cutack f => Sys2Proof.Machine.execCutack f s
  | .ctrlDetach f => Sys2Proof.Machine.execCtrlDetach f s
  | .cutend f => Sys2Proof.Machine.execCutend f s
  | .takeover freed => Sys2Proof.Machine.execTakeover freed s
  | .tokenClaim => Sys2Proof.Machine.execTokenClaim s
  | .tokenConflict => Sys2Proof.Machine.execTokenConflict s
  | .linkUp => Sys2Proof.Machine.execLinkUp s
  | .linkDown => Sys2Proof.Machine.execLinkDown s
  | .rplyMiss => Sys2Proof.Machine.execRplyMiss s
  | .attach m mode => Sys2Proof.Machine.execAttach m mode s
  | .detach m => Sys2Proof.Machine.execDetach m s
  | .handover m => Sys2Proof.Machine.execHandover m s
  | .attachTimeout => Sys2Proof.Machine.execAttachTimeout s
  | .yokRelay m => Sys2Proof.Machine.execYokRelay m s
  | .format m scan => Sys2Proof.Machine.execFormat m scan s
  | .mount m scan => Sys2Proof.Machine.execMount m scan s
  | .flush m => Sys2Proof.Machine.execFlush m s
  | .seal m => Sys2Proof.Machine.execSeal m s
  | .prove m => Sys2Proof.Machine.execProve m s
  | .read m => Sys2Proof.Machine.execRead m s
  | .unmount m => Sys2Proof.Machine.execUnmount m s
  | .stgwr m => Sys2Proof.Machine.execStgwr m s
  | .stgrd m => Sys2Proof.Machine.execStgrd m s
  | .stgerase m => Sys2Proof.Machine.execStgerase m s
  | .ldgSqtail m w => Sys2Proof.Machine.execLdgSqtail m w s
  | .ldgSubmission => Sys2Proof.Machine.execLdgSubmission s
  | .sealTimer t => Sys2Proof.Machine.execSealTimer t s
  | .sealSigned t => Sys2Proof.Machine.execSealSigned t s
  | .pageProgramDone t pass => Sys2Proof.Machine.execPageProgramDone t pass s
  | .blockEraseDone blk pass => Sys2Proof.Machine.execBlockEraseDone blk pass s
  | .lunTimeout l => Sys2Proof.Machine.execLunTimeout l s
  | .ldgFmtdata m wd => Sys2Proof.Machine.execLdgFmtdata m wd s
  | .ldgSnextloRead m => Sys2Proof.Machine.execLdgSnextloRead m s
  | .ldgSdurloRead m => Sys2Proof.Machine.execLdgSdurloRead m s
  | .ldgCommandDone worst => Sys2Proof.Machine.execLdgCommandDone worst s
  | .verify m => Sys2Proof.Machine.execVerify m s
  | .activate m => Sys2Proof.Machine.execActivate m s
  | .resume m => Sys2Proof.Machine.execResume m s
  | .confirm m => Sys2Proof.Machine.execConfirm m s
  | .reject m => Sys2Proof.Machine.execReject m s
  | .quote m => Sys2Proof.Machine.execQuote m s
  | .hash m => Sys2Proof.Machine.execHash m s
  | .random m => Sys2Proof.Machine.execRandom m s
  | .aead m => Sys2Proof.Machine.execAead m s
  | .ecdh m => Sys2Proof.Machine.execEcdh m s
  | .sign m => Sys2Proof.Machine.execSign m s
  | .ukgen m => Sys2Proof.Machine.execUkgen m s
  | .ukload m => Sys2Proof.Machine.execUkload m s
  | .incr m => Sys2Proof.Machine.execIncr m s
  | .dbgauth m => Sys2Proof.Machine.execDbgauth m s
  | .rootset m => Sys2Proof.Machine.execRootset m s
  | .idgen m => Sys2Proof.Machine.execIdgen m s
  | .provdata m => Sys2Proof.Machine.execProvdata m s
  | .lcstep m => Sys2Proof.Machine.execLcstep m s
  | .revoke m => Sys2Proof.Machine.execRevoke m s
  | .lksCommandDone => Sys2Proof.Machine.execLksCommandDone s
  | .hello msg => Sys2Proof.Machine.execHello msg s
  | .begin msg => Sys2Proof.Machine.execBegin msg s
  | .manifest msg => Sys2Proof.Machine.execManifest msg s
  | .block msg => Sys2Proof.Machine.execBlock msg s
  | .install msg => Sys2Proof.Machine.execInstall msg s
  | .servicePortVerify msg => Sys2Proof.Machine.execServicePortVerify msg s
  | .servicePortActivate msg => Sys2Proof.Machine.execServicePortActivate msg s
  | .status msg => Sys2Proof.Machine.execStatus msg s
  | .abort msg => Sys2Proof.Machine.execAbort msg s
  | .servicePortQuote msg => Sys2Proof.Machine.execServicePortQuote msg s
  | .sessionTimeout => Sys2Proof.Machine.execSessionTimeout s
  | .activationSwitch => Sys2Proof.Machine.execActivationSwitch s
  | .pauseTimeout => Sys2Proof.Machine.execPauseTimeout s
  | .probationWarning => Sys2Proof.Machine.execProbationWarning s
  | .probationExpiry => Sys2Proof.Machine.execProbationExpiry s
  | .tamper => Sys2Proof.Machine.execTamper s
  | .coldTamperCheck mismatch => Sys2Proof.Machine.execColdTamperCheck mismatch s
  | .glitch => Sys2Proof.Machine.execGlitch s
  | .debugAccessExpiry => Sys2Proof.Machine.execDebugAccessExpiry s
  | .crystalReady => Sys2Proof.Machine.execCrystalReady s
  | .pllLock j => Sys2Proof.Machine.execPllLock j s
  | .pllCfg m j w => Sys2Proof.Machine.execPllCfg m j w s
  | .monitorWindow j count => Sys2Proof.Machine.execMonitorWindow j count s
  | .pllCoast j => Sys2Proof.Machine.execPllCoast j s
  | .clkSel m w => Sys2Proof.Machine.execClkSel m w s
  | .clkDiv m w => Sys2Proof.Machine.execClkDiv m w s
  | .powerOnReset xtsel vbatLost prime => Sys2Proof.Machine.execPowerOnReset xtsel vbatLost prime s
  | .brownOut xtsel => Sys2Proof.Machine.execBrownOut xtsel s
  | .pinReset => Sys2Proof.Machine.execPinReset s
  | .rstSoft m w => Sys2Proof.Machine.execRstSoft m w s
  | .rstDom m j w => Sys2Proof.Machine.execRstDom m j w s
  | .domainResetDone d => Sys2Proof.Machine.execDomainResetDone d s
  | .rstWdcfg m w => Sys2Proof.Machine.execRstWdcfg m w s
  | .rstWdkick m w => Sys2Proof.Machine.execRstWdkick m w s
  | .watchdogWarning => Sys2Proof.Machine.execWatchdogWarning s
  | .watchdogExpiry => Sys2Proof.Machine.execWatchdogExpiry s
  | .watchdogReset => Sys2Proof.Machine.execWatchdogReset s
  | .domainPowerUp m d => Sys2Proof.Machine.execDomainPowerUp m d s
  | .powerGood d => Sys2Proof.Machine.execPowerGood d s
  | .powerGoodTimeout d => Sys2Proof.Machine.execPowerGoodTimeout d s
  | .domainPowerDown m d => Sys2Proof.Machine.execDomainPowerDown m d s
  | .supplyWarning low => Sys2Proof.Machine.execSupplyWarning low s
  | .coreSupplyLoss => Sys2Proof.Machine.execCoreSupplyLoss s
  | .vbatMeasure mv => Sys2Proof.Machine.execVbatMeasure mv s
  | .sysTempUpdate t => Sys2Proof.Machine.execSysTempUpdate t s
  | .modeReqRun m => Sys2Proof.Machine.execModeReqRun m s
  | .modeReqWarm m => Sys2Proof.Machine.execModeReqWarm m s
  | .modeReqService m => Sys2Proof.Machine.execModeReqService m s
  | .modeReqSafe m => Sys2Proof.Machine.execModeReqSafe m s
  | .modeReqBanked m => Sys2Proof.Machine.execModeReqBanked m s
  | .ethFrameReceived f crcGood => Sys2Proof.Machine.execEthFrameReceived f crcGood s
  | .ethRxdata m => Sys2Proof.Machine.execEthRxdata m s
  | .ethTxlen m w => Sys2Proof.Machine.execEthTxlen m w s
  | .ethTxdata m w => Sys2Proof.Machine.execEthTxdata m w s
  | .ethFrameSent => Sys2Proof.Machine.execEthFrameSent s
  | .ethTsq3Read m => Sys2Proof.Machine.execEthTsq3Read m s
  | .ethMdio m w => Sys2Proof.Machine.execEthMdio m w s
  | .mdioDone data => Sys2Proof.Machine.execMdioDone data s
  | .set m => Sys2Proof.Machine.execSet m s
  | .step m => Sys2Proof.Machine.execStep m s
  | .ptpRate m w => Sys2Proof.Machine.execPtpRate m w s
  | .sync m b => Sys2Proof.Machine.execSync m b s
  | .ptpHoldExpiry => Sys2Proof.Machine.execPtpHoldExpiry s
  | .ptpNsRead m => Sys2Proof.Machine.execPtpNsRead m s
  | .pps => Sys2Proof.Machine.execPps s
  | .ptpCap => Sys2Proof.Machine.execPtpCap s
  | .canFrameReceived e f => Sys2Proof.Machine.execCanFrameReceived e f s
  | .canRxdata m e => Sys2Proof.Machine.execCanRxdata m e s
  | .canTxdata m e w => Sys2Proof.Machine.execCanTxdata m e w s
  | .canFrameSent e => Sys2Proof.Machine.execCanFrameSent e s
  | .busOff e => Sys2Proof.Machine.execBusOff e s
  | .busOffRecovery e => Sys2Proof.Machine.execBusOffRecovery e s
  | .hspWrite addr ws => Sys2Proof.Machine.execHspWrite addr ws s
  | .hspRead addr n => Sys2Proof.Machine.execHspRead addr n s
  | .hspStatus => Sys2Proof.Machine.execHspStatus s
  | .hspBadCommand cmd => Sys2Proof.Machine.execHspBadCommand cmd s
  | .hspCsRise partialBits => Sys2Proof.Machine.execHspCsRise partialBits s
  | .vbusConnect => Sys2Proof.Machine.execVbusConnect s
  | .info msg => Sys2Proof.Machine.execInfo msg s
  | .diagRead msg => Sys2Proof.Machine.execDiagRead msg s
  | .diagWrite msg => Sys2Proof.Machine.execDiagWrite msg s
  | .extest rstLow => Sys2Proof.Machine.execExtest rstLow s
  | .idcode => Sys2Proof.Machine.execIdcode s
  | .samplePreload load cells => Sys2Proof.Machine.execSamplePreload load cells s
  | .clamp rstLow => Sys2Proof.Machine.execClamp rstLow s
  | .highz rstLow => Sys2Proof.Machine.execHighz rstLow s
  | .bypass => Sys2Proof.Machine.execBypass s
  | .dbgacc reg => Sys2Proof.Machine.execDbgacc reg s
  | .testLogicReset => Sys2Proof.Machine.execTestLogicReset s
  | .dbgAuth m w => Sys2Proof.Machine.execDbgAuth m w s
  | .locksmithBootComplete => Sys2Proof.Machine.execLocksmithBootComplete s
  | .rtcSecond => Sys2Proof.Machine.execRtcSecond s
  | .usbStandardRequest setup => Sys2Proof.Machine.execUsbStandardRequest setup s
  | .usbBusReset => Sys2Proof.Machine.execUsbBusReset s
  | .usbSuspend => Sys2Proof.Machine.execUsbSuspend s
  | .usbResume => Sys2Proof.Machine.execUsbResume s
  | .vbusLoss => Sys2Proof.Machine.execVbusLoss s

end Sys2Proof.Machine
end

