-- ==== Sys2Proof/Safety.lean ====
section
/-! DEFINITION. The terms in which claims are stated: accesses that are performed at once, the canonical form of the
memories, and what non-volatile memory keeps. -/

namespace Sys2Proof.Machine

/-- Whether no DMA channel that runs is being aborted or stops (R293). -/
def noAbort (v : Vol) : Bool :=
  (List.range 16).all fun i =>
    !dmaActive v (i / 8) (i % 8) || ((dmaOf v (i / 8) (i % 8)).stop.isNone && !rb v (aDma (i / 8) (i % 8) 0x104) 2)

/-- Whether the part answers master m's accesses at once (R277, R536, R553): it is in no reset, the dividers stand in a ratio
that R536 allows, the master may issue, and none of its requests has met the time-out of the matrix (R282). -/
def busOpen (v : Vol) (m : Nat) : Bool :=
  (v.sys.mode != .cold && v.sys.mode != .reset) && ratioOk v
    && !heldBack v ⟨m, masterId v m, false, .word, 0, TWord.zero⟩ && v.mtx.late.all fun r => r.1 != m

/-- Whether a word access of master m to a register of page p is performed at once (R10, R285, R286): the page exists, its block
is READY and its clock gate open. -/
def pageOpen (v : Vol) (m p : Nat) : Bool :=
  busOpen v m && (pageInfo p).isSome && ready v (blockPage p) && domUp v (pageDom p) && decide (rg v (aGate (blockPage p)) = 0)

/-- Whether nothing waits that the end of a reset or of a wake lets go on: no request, diagnostic message, host SPI read or
channel (R285, R293, R579). -/
def noWaits (v : Vol) : Bool := v.parked.isEmpty && v.svc.diag.isEmpty && v.hsp.left.isNone && noAbort v

/-- The state with another volatile part. -/
abbrev withVol (s : State) (v : Vol) : State := { s with vol := v }

/-- The state after a write of a word to an address that the part answered with a code and that brought the volatile part to
v'. -/
def written (s : State) (m a : Nat) (sz : Size) (w : TWord) (code : Nat) (v' : Vol) : State :=
  { s with vol := finish s.nv (answer v' code TWord.zero) ⟨m, masterId s.vol m, true, sz, a, w⟩ }

/-- The state after a write of a register word, answered OKAY, that brought the volatile part to v'. -/
abbrev performed (s : State) (m a : Nat) (w : Word) (v' : Vol) : State := written s m a .word (TWord.ofWord w) 0 v'

/-- The state after a word read of a register, answered with w, that brought the volatile part to v'. -/
def performedRead (s : State) (m a : Nat) (w : Word) (v' : Vol) : State :=
  { s with vol := finish s.nv (answer v' 0 (TWord.ofWord w)) ⟨m, masterId s.vol m, false, .word, a, TWord.zero⟩ }

/-- The commands that may write non-volatile memory: the end of an FLC command, of a Locksmith command and of its boot, the
service-port messages, the boundary that ends a fallback, its start, and the events that may let a switch go on. -/
def writesNv : Instr → Bool
  | .flcOpDone .. | .lksCommandDone | .hello .. | .begin .. | .manifest .. | .block .. | .install .. | .servicePortVerify ..
  | .servicePortActivate .. | .status .. | .abort .. | .servicePortQuote .. | .tickBoundary | .probationExpiry | .sealSigned ..
  | .tamper | .glitch | .locksmithBootComplete => true
  | _ => false

/-! ### Cores -/

/-- Whether core k may take a trigger now: it issues, and no fault or trap of it is recorded (R138, R184). -/
def canMove (v : Vol) (k : Nat) : Bool := issuing v k && (coreOf v k).busf.isNone && (coreOf v k).trapNo.isNone

/-- A core as a trigger that issues finds it: a mode change that is due is in force, and the store of the bundle before occupies no
bank any more (R120, R218). -/
def moved (v : Vol) (k : Nat) : Core := { modeDue (coreOf v k) with last := none }

/-- The change that a trigger makes of its core. -/
def onMove (v : Vol) (k : Nat) (f : Core → Core) : Vol := setCore v k (f (moved v k))

/-- Whether a move of x to trigger port d of core k issues and takes effect: the core issues, the port and the number that it uses
exist there, no unit, buffer or return holds it, and no check finds a fault (R119, R122, R127, R170, R190, R205, R209). -/
def canTake (v : Vol) (k d : Nat) (x : TWord) : Bool :=
  let c := modeDue (coreOf v k)
  canMove v k && dstOk k d && !((isTransfer d || d == 91) && c.ds.isSome) && !trigHolds k d x c && !trigReserved d x c
    && (execFault v k c.pc none [(⟨0, d, 0⟩, x)] c).isNone

/-- The commands of the two-operand operations of an ALU unit, with the operation and its trigger port (R96). -/
def aluCommands (k : Fin 9) (u : Fin 2) (a : TWord) : List (Instr × Alu × Nat) :=
  let b := if u.val = 0 then 33 else 52
  [(.add k u a, .add, b), (.sub k u a, .sub, b + 1), (.adds k u a, .adds, b + 2), (.subs k u a, .subs, b + 3),
   (.and k u a, .and, b + 4), (.or k u a, .or, b + 5), (.xor k u a, .xor, b + 6), (.shl k u a, .shl, b + 7),
   (.shr k u a, .shr, b + 8), (.sar k u a, .sar, b + 9), (.rol k u a, .rol, b + 10), (.min k u a, .min, b + 11),
   (.max k u a, .max, b + 12), (.ceq k u a, .ceq, b + 13), (.clt k u a, .clt, b + 14), (.cltu k u a, .cltu, b + 15)]

/-- A core after an ALU result r on result port n, from trigger port d of the bundle at pc (R81, R118, R147). -/
def aluTaken (c : Core) (n d pc : Nat) (r : OpRes) : Core :=
  { orFlags (setRes c n r.r0) r.flags with impr := c.impr ++ if r.tagf then [cfault 0x20 0 d pc] else [] }

/-- The canonical form of the memories that outlast power (R267). -/
def Nv.wf (nv : Nv) : Bool := smapWf flashBlank nv.flash && smapWf noErr nv.unitErr && smapWf otpBlank nv.otp

/-- The canonical form of SRAM. -/
def Vol.memWf (v : Vol) : Bool := smapWf sramBlank v.sram && smapWf noErr v.sramErr

/-- The canonical form of every addressed memory of the part. -/
def Memory.wf (s : State) : Bool := s.nv.wf && s.vol.memWf

/-- OTP only gains bits: every bit that reads 1 in nv reads 1 in nv' (R30). -/
def otpKept (nv nv' : Nv) : Prop := ∀ a i, bit (otpWord nv a) i = true → bit (otpWord nv' a) i = true

end Sys2Proof.Machine
end

