-- ==== Sys2Proof/Certificates/Slice0/Obligations.lean ====
section
/-! DEFINITION. The statements about the model for the provers: what each family of commands does, what it leaves unchanged,
and what every step keeps. -/

open Sys2Proof Sys2Proof.Machine

/-! ### The machine -/

/-- A step with commands waiting runs the front one on the state with the queue's rest. Rests on spec/INDEX.md,
spec/opcode_table.json; log 6. -/
def Obligations.StepRunsFrontCommand : Prop :=
  ∀ (c : Instr) (rest : List Instr) (s : State),
    step { s with pending := c :: rest } = exec c { s with pending := rest }

/-- Every command answers a next state, and none touches the queue of the commands that wait. Rests on spec/opcode_table.json;
log 2. -/
def Obligations.CommandsLeaveTheQueue : Prop :=
  ∀ (c : Instr) (s : State), ∃ t, exec c s = .next t ∧ t.pending = s.pending

/-- Only the commands of `writesNv` change flash, config flash or OTP: every other command leaves them as they are. Rests on
R243, R244, R251, R267. -/
def Obligations.NonVolatileWritersAreNamed : Prop :=
  ∀ (c : Instr) (s t : State), writesNv c = false → exec c s = .next t → t.nv = s.nv

/-- Every step keeps the canonical form of flash, config flash and OTP. Rests on R239, R251, R267; log 7. -/
def Obligations.NonVolatileFormIsKept : Prop :=
  ∀ s t : State, s.nv.wf = true → step s = .next t → t.nv.wf = true

/-- After reset every memory is in canonical form. Rests on R19, R267; log 7. -/
def Obligations.MemoryFormAtReset : Prop := Memory.wf State.reset = true

/-- OTP bits are only ever set: no step clears one. Rests on R251, R515. -/
def Obligations.OtpBitsAreNeverCleared : Prop := ∀ s t : State, step s = .next t → otpKept s.nv t.nv

/-- After the power-on reset: SERVICE (6) with no transition, RST_CAUSE names the power-on alone, the tick generator is off and
TICK_NUM is 0, no trip is latched, and the service core alone runs, in supervisor mode with every general register 0. The model
takes a part whose OTP is unprogrammed (log entry 43). Rests on R19, R95, R490, R493, R544; log 43. -/
def Obligations.ResetState : Prop :=
  State.reset.vol.sys.mode = .service ∧ State.reset.vol.sys.target = none ∧ rg State.reset.vol (ra pRst 0x040) = 1
    ∧ State.reset.vol.tick.running = false ∧ State.reset.vol.tick.number = 0 ∧ rg State.reset.vol (ra pTrp 0x0A0) = 0
    ∧ (coreOf State.reset.vol 8).run = true ∧ (∀ k, k < 8 → (coreOf State.reset.vol k).run = false)
    ∧ userMode (coreOf State.reset.vol 8) = false ∧ ∀ k n, gReg (coreOf State.reset.vol k) n = TWord.zero

/-! ### Register pages and the bus -/

/-- A write at a register's own offset, through its bit-set alias and through its bit-clear alias reaches the register with that
access, whatever tag the word carries; shown on the blocks whose registers only store: matrix, NAND channels and host SPI. Rests
on R1, R4, R28. -/
def Obligations.RegisterWritesReachTheRegister : Prop :=
  ∀ (s : State) (m : Fin 16) (p off : Nat) (inf : PageInfo) (w : TWord),
    pageOpen s.vol m p = true → pageInfo p = some inf → (inf.blk = .mtx ∨ inf.blk = .nand ∨ inf.blk = .hsp) →
    (specAt p off).isSome = true → off < 0x400 → off % 4 = 0 → off ≠ 0x01C → (off = 0x008 → bit w.data 31 = false) →
    exec (.registerWrite m .word (BitVec.ofNat 32 (ra p off)) w) s
        = .next (written s m (ra p off) .word w 0 (regWrite s.vol p off .direct w.data))
      ∧ exec (.aliasWrite m .word (BitVec.ofNat 32 (ra p off + 0x400)) w) s
        = .next (written s m (ra p off + 0x400) .word w 0 (regWrite s.vol p off .setBits w.data))
      ∧ exec (.aliasWrite m .word (BitVec.ofNat 32 (ra p off + 0x800)) w) s
        = .next (written s m (ra p off + 0x800) .word w 0 (regWrite s.vol p off .clearBits w.data))

/-- What a register takes: of a write at its offset every bit that is RW, 0 in a W1C bit written as 1, through the bit-set alias
its RW bits OR the written ones, through the bit-clear alias its bits AND NOT the written ones; bits of no mask stay. Every
other register but STAT keeps its value. Said of registers with no reserved codes and no write-once bits. Rests on R4, R11, R13.
-/
def Obligations.RegisterTakesItsAccessMasks : Prop :=
  ∀ (v : Vol) (p off : Nat) (sp : RegSpec) (w : Word), specAt p off = some sp → sp.chk = [] → sp.rwo = 0 →
    let old := rg v (ra p off)
    let rw := BitVec.ofNat 32 sp.rw
    let w1c := BitVec.ofNat 32 sp.w1c
    (∀ i, i < 32 → rb (regWrite v p off .direct w) (ra p off) i
        = if bit w1c i && bit w i then false else if bit rw i then bit w i else bit old i)
      ∧ (∀ i, i < 32 → rb (regWrite v p off .setBits w) (ra p off) i = (bit old i || (bit rw i && bit w i)))
      ∧ (∀ i, i < 32 → rb (regWrite v p off .clearBits w) (ra p off) i = (bit old i && !((bit rw i || bit w1c i) && bit w i)))
      ∧ ∀ via a, a ≠ ra p off → rg (regWrite v p off via w) a = rg v a

/-- A reserved offset of a register page, or an unassigned one below 0x400, reads 0 and ignores writes, both with response OKAY.
Rests on R3. -/
def Obligations.UnassignedOffsetsReadZero : Prop :=
  ∀ (s : State) (m : Fin 16) (p off : Nat) (w : TWord), pageOpen s.vol m p = true → off < 0x1000 → off % 4 = 0 →
    (0xC00 ≤ off ∨ off < 0x400 ∧ off ≠ 0x010 ∧ off ≠ 0x01C ∧ specAt p off = none ∧ stageChan (ra p off) = none) →
    exec (.registerWrite m .word (BitVec.ofNat 32 (ra p off)) w) s = .next (written s m (ra p off) .word w 0 s.vol)
      ∧ withVol s (busRead s.nv s.vol m (ra p off)) = performedRead s m (ra p off) 0 s.vol

/-- The order of the checks of a register page: a domain that is down and does not wake by itself answers OFF, whatever the
access; then an access that is no aligned word answers SLAVE; then a block that is not READY answers RESET. Nothing is written.
Rests on R2, R10, R16, R276; log 11. -/
def Obligations.PageChecksInOrder : Prop :=
  ∀ (s : State) (m : Fin 16) (sz : Size) (a : Word) (w : TWord) (p : Nat),
    busOpen s.vol m = true → 0x40000000 ≤ a.toNat → p = (a.toNat - 0x40000000) / 0x1000 → (pageInfo p).isSome = true →
    (domUp s.vol (pageDom p) = false → autoWake s.vol (pageDom p) = false →
        exec (.registerWrite m sz a w) s = .next (written s m a.toNat sz w 4 s.vol))
      ∧ (domUp s.vol (pageDom p) = true → (sz ≠ .word ∨ a.toNat % 4 ≠ 0) →
        exec (.registerWrite m sz a w) s = .next (written s m a.toNat sz w 2 s.vol))
      ∧ (domUp s.vol (pageDom p) = true → sz = .word → a.toNat % 4 = 0 → ready s.vol (blockPage p) = false →
        rg s.vol (aGate (blockPage p)) = 0 → exec (.registerWrite m sz a w) s = .next (written s m a.toNat sz w 3 s.vol))

/-- GATE_AUTO_CLOSE: the gate of a READY block that is idle closes when its domain closes gates by itself, and stands at closing while an
access of a core to the block is outstanding; of any other block nothing changes. BLOCK_SOFTRST resets the block of the page, which is then
not READY; Locksmith ignores it with FAULT bit 5, and the trip matrix, while locked or latched, with FAULT bit 1.
BLOCK_RESET_DONE ends the reset of the block, but that of a measurement block, which waits for its factory record. MATRIX_TIMEOUT
of a request whose count runs sets FAULT.TIMEOUT and raises matrix event 0: one that still waits to be granted is withdrawn and answered
TIMEOUT; a core's held access and an engine's request meet that answer with their response, and a DMA channel whose descriptor read it is
stops with RESP 5; of a request that has not reached a target that is up, or goes to the default target, nothing happens. Rests on R10, R282, R283, R286, R542; log 4, 93. -/
def Obligations.BlockGateResetAndTimeout : Prop :=
  ∀ (s : State) (m id : Fin 16) (p : Nat) (a : Word), (pageInfo p).isSome = true →
    let v := s.vol
    let b := blockPage p
    let page : Word := BitVec.ofNat 32 (ra p 0)
    let auto := pageDom p ≠ 0 ∧ rb v (ra pClk (0x070 + 4 * ((pageDom p - 1) / 32))) ((pageDom p - 1) % 32) = true
    let hard := rb v (ra pTrp 0x0B0) 0 = true ∨ rf v (ra pTrp 0x0A0) 15 0 ≠ 0
    ((ready v b = true ∧ auto ∧ blockIdle v b = true → exec (.gateAutoClose page) s
            = .next (withVol s (rgSet v (aGate b) (if blockHeld v p then 1 else 2))))
        ∧ (¬ (ready v b = true ∧ auto ∧ blockIdle v b = true) → exec (.gateAutoClose page) s = .next s))
      ∧ (pageOpen v m p = true →
        (b ≠ pLks → (b = pTrp → ¬ hard) →
            exec (.blockSoftrst m page) s = .next (performed s m (aCtl p + 0x400) 0x80000000 (blockReset v b))
              ∧ ready (blockReset v b) b = false)
          ∧ (b = pLks → ∃ v', exec (.blockSoftrst m page) s = .next (performed s m (aCtl p + 0x400) 0x80000000 v')
              ∧ rb v' (aFault pLks) 5 = true ∧ ready v' pLks = true)
          ∧ (b = pTrp → hard → ∃ v', exec (.blockSoftrst m page) s = .next (performed s m (aCtl p + 0x400) 0x80000000 v')
              ∧ rb v' (aFault pTrp) 1 = true ∧ ready v' pTrp = true))
      ∧ (noWaits v = true →
        ((pageInfo b).map (fun i => i.blk) ≠ some .mea → ∃ t, exec (.blockResetDone page) s = .next t
            ∧ t.vol.resetting = v.resetting.filter (· != b) ∧ t.vol.sram = v.sram ∧ t.vol.cores = v.cores ∧ t.nv = s.nv)
          ∧ ((pageInfo b).map (fun i => i.blk) = some .mea → exec (.blockResetDone page) s = .next s))
      ∧ (let noted (y : Vol) : Prop := rb y (aFault pMtx) 0 = true ∧ (rb v (aEvEn pMtx) 0 = true → rb y (aEvPend pMtx) 0 = true)
        let i := ownId v m id a.toNat
        let late : Vol := { timeoutNoted v m i a.toNat with mtx := { v.mtx with late := v.mtx.late ++ [(m.val, i, a.toNat)] } }
        (counts v a.toNat = true →
            (m.val < 9 → v.parked = [] → (∃ h ∈ heldOf (coreOf v m), h.addr = a.toNat ∧ h.resp = none) →
              exec (.matrixTimeout m id a) s = .next (withVol s late) ∧ noted late)
            ∧ (11 ≤ m.val → v.parked = [] → exec (.matrixTimeout m id a) s = .next (withVol s (answer late 5 TWord.zero)) ∧ noted late)
            ∧ (∀ r, 9 ≤ m.val → (v.parked.find? fun q => q.master == m.val && q.addr == a.toNat && q.id == id.val) = some r →
              exec (.matrixTimeout m id a) s = .next (withVol s
                (shown (answer { timeoutNoted v m r.id a.toNat with parked := v.parked.erase r } 5 TWord.zero) r)))
            ∧ (∀ (e : Fin 2) (c : Fin 8), m.val = 9 + e.val → id.val = c.val → (dmaOf v e c).live = false →
              dmaGrant v e = some c.val → heldBack v ⟨m, id, false, .word, a.toNat, TWord.zero⟩ = false →
              a = rg v (aDma e c 0x100) → (m.val, id.val, a.toNat) ∉ v.mtx.late →
              ∃ t, exec (.matrixTimeout m id a) s = .next t ∧ noted t.vol ∧ dmaActive t.vol e c = false
                ∧ rg t.vol (aDma e c 0x108) = 0x68000000 ∧ t.vol.sram = v.sram ∧ t.nv = s.nv))
          ∧ (counts v a.toNat = false → exec (.matrixTimeout m id a) s = .next s))

/-- A word written through the bit-set window sets data bits, through the bit-clear window clears them, both keeping the tag;
through the tag view it sets the tag from its four low bits, keeping the data. Only that word changes. Said of a word with no wrong bit
in a memory that is not being wiped. Rests on R102, R255, R256. -/
def Obligations.SramWindowsChangeOneWord : Prop :=
  ∀ (s : State) (m : Fin 16) (a : Word) (pl : Place) (w : TWord),
    busOpen s.vol m = true → place a.toNat = some pl → a.toNat % 4 = 0 → domUp s.vol pl.dom = true →
    wiping s.vol pl.dom = false → wrongBits s.vol pl.key = 0 →
    let old := sramWord s.vol pl.key
    let turn := if m.val < 9 then (sharedTurn s.vol m pl).1 else s.vol
    let to' (x : TWord) : State := written s m a.toNat .word w 0 (sramPut turn pl.key x)
    (pl.win = .setBits → exec (.sramAliasWrite m .word a w) s = .next (to' ⟨old.data ||| w.data, old.tag⟩))
      ∧ (pl.win = .clearBits → exec (.sramAliasWrite m .word a w) s = .next (to' ⟨old.data &&& ~~~w.data, old.tag⟩))
      ∧ (pl.win = .tagView → exec (.tagViewWrite m .word a w) s = .next (to' ⟨old.data, w.data.setWidth 4⟩))

/-! ### The tick -/

/-- EN starts a generator that stands still, its first boundary 64 cycles later, and takes back a stop that waits (DESIGN CHOICE, log
entry 99); EN 0 asks it to stop at the next boundary; APPLY is checked at once before the generator was ever on and waits for the
next boundary from then on. Said with no other CTL bit of the page changing. A read of TICK_NUM_LO latches TICK_NUM_HI, one of
TICK_BTS_NS the two words of the seconds; the service core's commit makes the pending words of its channels committed, once bit
0 of TICK_SVCCOMMIT is written as 1, and does nothing with 0. An apply that passes the check makes every double-buffered tick
register active with the value last written, clears STAT.APPLYPEND and raises event 6; one that fails changes no active register,
sets FAULT.CFGREF and raises event 5. Rests on R54, R55, R56, R58, R65, R75, R76; log 99. -/
def Obligations.TickRegistersAct : Prop :=
  ((∀ (s : State) (m : Fin 16), pageOpen s.vol m pTick = true → rb s.vol (aCtl pTick) 1 = false →
    let v := s.vol
    let on := rgOr v (aCtl pTick) 1
    (rb v (aCtl pTick) 0 = false → v.tick.running = false →
        exec (.tickEn m) s = .next (performed s m (aCtl pTick + 0x400) 1 (meaStart
          (setTick on fun t => { t with
            running := true, everOn := true, stopReq := false, next := v.now + 64, first := true
            inPhase := 0, mainsLeft := 0, mainsLong := 0, mainsZc := some v.now }))))
      ∧ (rb v (aCtl pTick) 0 = false → v.tick.running = true →
        exec (.tickEn m) s = .next (performed s m (aCtl pTick + 0x400) 1 (setTick on fun t => { t with stopReq := false })))
      ∧ (rb v (aCtl pTick) 0 = true →
        exec (.tickEn m) s = .next (performed s m (aCtl pTick + 0x400) 1 on)
          ∧ exec (.tickStop m) s = .next (performed s m (aCtl pTick + 0x800) 1
            (setTick (rgClr v (aCtl pTick) 1) fun t => { t with stopReq := true })))
      ∧ (rb v (aCtl pTick) 0 = false →
        exec (.tickStop m) s = .next (performed s m (aCtl pTick + 0x800) 1 (rgClr v (aCtl pTick) 1)))
      ∧ exec (.apply m) s = .next (performed s m (aCtl pTick + 0x400) 2
          (if v.tick.everOn then rgOr (rgOr v (aCtl pTick) 2) (aStat pTick) 8 else applyCheck (rgOr v (aCtl pTick) 2))))
    ∧ (∀ (s : State) (m : Fin 16), pageOpen s.vol m pTick = true →
    exec (.tickNumLoRead m) s = .next (performedRead s m (aTick 0x068) (s.vol.tick.number.setWidth 32)
        (rgSet s.vol (aTick 0x06C) ((s.vol.tick.number >>> 32).setWidth 32)))
      ∧ exec (.tickBtsNsRead m) s = .next (performedRead s m (aTick 0x090) (BitVec.ofNat 32 (s.vol.tick.btsNs % 2 ^ 30))
        (rgSet (rgSet s.vol (aTick 0x094) (BitVec.ofNat 32 s.vol.tick.btsSec)) (aTick 0x098)
          (BitVec.ofNat 32 (s.vol.tick.btsSec / 2 ^ 32 % 2 ^ 16))))
      ∧ ∀ w : Word,
        (exec (.tickSvccommit m w) s = .next (performed s m (aTick 0x08C) w
            (if bit w 0 then commitService (regWrite s.vol pTick 0x08C .direct w) else regWrite s.vol pTick 0x08C .direct w)))
          ∧ ∀ (v : Vol) (i : Nat), i < 256 → commOf (commitService v) i = if outOwner v i = 8 then pendOf v i else commOf v i))
    ∧ (∀ v : Vol,
    (applyOk v = true →
        (∀ off, off < 0x400 → tickBuffered off = true → off ≠ 0x040 → ta (applyCheck v) off = rg v (aTick off))
          ∧ ta (applyCheck v) 0x040 = rg v (aTick 0x040) &&& 0x37 ∧ rb (applyCheck v) (aStat pTick) 3 = false
          ∧ (rb v (aEvEn pTick) 6 = true → rb (applyCheck v) (aEvPend pTick) 6 = true))
      ∧ (applyOk v = false → (applyCheck v).tick.act = v.tick.act ∧ rb (applyCheck v) (aFault pTick) 17 = true
          ∧ rb (applyCheck v) (aStat pTick) 3 = false
          ∧ (rb v (aEvEn pTick) 5 = true → rb (applyCheck v) (aEvPend pTick) 5 = true)))

/-- The boundary of a part alone, with nothing due for it: the tick number goes up by one, or stays for the first boundary, the
boundary lies at its time, or where a lost marker puts it, and DROP opens with no core committed; at the boundary that a stop
waited for the generator stops and no release follows. DROP ends at its time, the release follows 3 cycles later and event 1
occurs. The release wakes the control cores that wait for the tick. A source that its rule loses (PTP that is not synchronised,
YOKE without its marker, MAINS past its deadline) ends the tick with its nominal length, falls back to the internal source and
raises event 3; any other stays. Rests on R40, R41, R43, R52, R58, R63; log 56. -/
def Obligations.TickProceeds : Prop :=
  (∀ s : State, ready s.vol pTick = true → s.vol.tick.running = true → (ready s.vol pYok = false ∨ s.vol.yok.twin = false) →
    s.vol.yok.role = 0 →
    s.vol.yok.takeDue = false → s.vol.yok.safeDue = false → s.vol.yok.detachDue = false → s.vol.sys.target = none →
    s.vol.lks.pauseAt = none → s.vol.lks.switchTo = none → s.vol.lks.fellDue = false → s.vol.yok.relAt = none →
    let v := s.vol
    let at' := max v.now v.tick.next
    ∃ t, exec .tickBoundary s = .next t
      ∧ t.vol.tick.number = (if v.tick.had then v.tick.number + 1 else v.tick.number)
      ∧ t.vol.tick.boundary = (if markMissing v then max at' (max (v.tick.boundary + taf v 0x044 18 0) (at' + 1)) else at')
      ∧ t.vol.tick.inDrop = true ∧ t.vol.tick.commits = [] ∧ t.vol.tick.had = true
      ∧ t.vol.tick.running = !v.tick.stopReq ∧ t.vol.tick.released = v.tick.stopReq ∧ t.nv = s.nv)
    ∧ (∀ s : State,
    (s.vol.yok.relAt = none → s.vol.tick.inDrop = true → s.vol.yok.noSnap = false →
        exec .dropEnd s = .next (withVol s (raiseEvent
          (setTick { s.vol with now := max s.vol.now s.vol.tick.dropEnd } fun t =>
            { t with inDrop := false, release := max s.vol.now s.vol.tick.dropEnd + 3 }) pTick 1)))
      ∧ (s.vol.yok.relAt = none → s.vol.tick.inDrop = false → s.vol.tick.released = false → s.vol.tick.had = true → s.vol.sys.mode ≠ .safe →
        tickPaused s.vol = false → s.vol.tick.restart = 0 → s.vol.tick.enter = 0 → s.vol.cores.length = 9 →
        ∃ t, exec .coreRelease s = .next t ∧ t.vol.tick.released = true ∧ t.vol.sram = s.vol.sram ∧ t.nv = s.nv
          ∧ ∀ k, k < 8 → coreUp s.vol k = true → (coreOf t.vol k).wait ≠ .wft)
      ∧ (ready s.vol pTick = true → s.vol.tick.running = true →
        let v := s.vol
        let unsynced := tickSource v = 1 ∧ rb v (aStat pPtp) 0 = false
        let lost (n : Nat) : Prop := ∃ t, exec .sourceLost s = .next t ∧ t.vol.now = n
          ∧ t.vol.tick.next = (if v.tick.first then v.tick.next else max (v.tick.boundary + taf v 0x044 18 0) (n + 1))
          ∧ tickSource t.vol = 0 ∧ rb t.vol (aFault pTick) 16 = true ∧ rb t.vol (aStat pTick) 1 = false
          ∧ (rb v (aEvEn pTick) 3 = true → rb t.vol (aEvPend pTick) 3 = true)
          ∧ t.vol.sram = v.sram ∧ t.vol.cores = v.cores ∧ t.nv = s.nv
        (unsynced → lost v.now)
          ∧ (markMissing v = true → lost (max v.now v.tick.next))
          ∧ (tickSource v = 3 → lost (max v.now (mainsDeadline v)))
          ∧ (¬ unsynced → markMissing v = false → tickSource v ≠ 3 → exec .sourceLost s = .next s)))

/-! ### The cores -/

/-- The two-operand operations of an ALU unit: the trigger value and the unit's operand port give the result port its word, its
valid bit sets, FLAGS take the operation's bits, and a tag fault is recorded with POISON in the port; nothing else changes. TSET
and TCHK act so on ALU unit 0 of a control core; the service core, which has no tags, has neither port: the move is a reserved
operation, fault code 3. The tags follow R142 (a POISON operand gives POISON with no fault, then tag 14 faults, equal tags stay, RAW
adopts, the compares give RAW, all else faults), R143 for the shifts and R144 for TSET and TCHK. Rests on R18, R96, R128, R130,
R142, R143, R144, R147; log 19. -/
def Obligations.AluCommandsDeliver : Prop :=
  (∀ (s : State) (k : Fin 9) (u : Fin 2) (a : TWord) (i : Instr) (op : Alu) (d : Nat),
    (i, op, d) ∈ aluCommands k u a → canMove s.vol k = true →
    exec i s = .next (withVol s (onMove s.vol k fun c => aluTaken c (32 + u.val) d (curBundle s.vol k)
      (aluOp op (untag k a) (opnd c (if u.val = 0 then 32 else 51))))))
    ∧ (∀ (s : State) (k : Fin 9) (a : TWord), canMove s.vol k = true →
    (k.val < 8 →
        exec (.tset k a) s = .next (withVol s (onMove s.vol k fun c =>
            aluTaken c 32 49 (curBundle s.vol k) (aluOp .tset a (opnd c 32))))
          ∧ exec (.tchk k a) s = .next (withVol s (onMove s.vol k fun c =>
            aluTaken c 32 50 (curBundle s.vol k) (aluOp .tchk a (opnd c 32)))))
      ∧ (k.val = 8 →
        exec (.tset k a) s = .next (withVol s (takePrecise s.nv s.vol 8 (cfault 3 0 49 (coreOf s.vol 8).pc)))
          ∧ exec (.tchk k a) s = .next (withVol s (takePrecise s.nv s.vol 8 (cfault 3 0 50 (coreOf s.vol 8).pc)))))
    ∧ (∀ (op : Alu) (a b : TWord),
    let compares := op = .ceq ∨ op = .clt ∨ op = .cltu
    let shifts := op = .shl ∨ op = .shr ∨ op = .sar ∨ op = .rol
    let r := aluOp op a b
    let gives (t : Tag) : Prop := r.r0 = ⟨(aluData op a.data b.data).1, t⟩ ∧ r.flags = (aluData op a.data b.data).2 ∧ r.tagf = false
    let x : Nat := b.data.toNat % 16
    (a.isPoison = true ∨ b.isPoison = true → r = OpRes.poison false)
      ∧ (a.isPoison = false → b.isPoison = false →
        (¬ shifts → op ≠ .tset → op ≠ .tchk →
            (a.tag = 14 ∨ b.tag = 14 → r = OpRes.poison true)
              ∧ (a.tag ≠ 14 → b.tag ≠ 14 → (a.tag = b.tag ∨ a.tag = Tag.raw ∨ b.tag = Tag.raw) →
                gives (if compares then Tag.raw else if a.tag = Tag.raw then b.tag else a.tag))
              ∧ (a.tag ≠ b.tag → a.tag ≠ Tag.raw → b.tag ≠ Tag.raw → r = OpRes.poison true))
          ∧ (shifts → if a.tag ≠ 14 ∧ (b.tag = Tag.raw ∨ b.tag = Tag.count) then gives a.tag else r = OpRes.poison true)
          ∧ (op = .tset → if x = 15 then r = OpRes.poison false else if x = 14 then r = OpRes.poison true
            else r.r0 = ⟨a.data, BitVec.ofNat 4 x⟩ ∧ r.flags = 0 ∧ r.tagf = false)
          ∧ (op = .tchk → if a.tag ≠ 14 ∧ x ≠ 14 ∧ (a.tag = BitVec.ofNat 4 x ∨ a.tag = Tag.raw)
            then r.r0 = a ∧ r.flags = 0 ∧ r.tagf = false else r = OpRes.poison true)))

/-- The integer arithmetic of the ALU units, as their ports and FLAGS show it. `add` and `sub` set OV when the signed result
overflows, negating the most negative number too; `adds` and `subs` set SAT when they clamp and never OV; a shift takes its
amount from the low eight bits of b. A product is exact. Rests on R131, R132, R133. -/
def Obligations.IntegerArithmetic : Prop :=
  ∀ a b : Word,
    let n := b.toNat % 256
    let sum := a.toInt + b.toInt
    let dif := a.toInt - b.toInt
    (aluData .add a b = (a + b, if (a + b).toInt = sum then 0 else flOV)
        ∧ aluData .sub a b = (a - b, if (a - b).toInt = dif then 0 else flOV) ∧ aluData .sub 0 0x80000000 = (0x80000000, flOV))
      ∧ ((aluData .adds a b).1.toInt = max (-2147483648) (min 2147483647 sum)
        ∧ (aluData .adds a b).2 = (if (aluData .adds a b).1.toInt = sum then 0 else flSAT)
        ∧ (aluData .subs a b).1.toInt = max (-2147483648) (min 2147483647 dif)
        ∧ (aluData .subs a b).2 = (if (aluData .subs a b).1.toInt = dif then 0 else flSAT))
      ∧ ((∀ op, op ∈ [Alu.shl, .shr, .sar, .rol] → aluData op a b = aluData op a (b &&& 0xFF))
        ∧ (n < 32 → (aluData .shl a b).1 = a <<< n ∧ (aluData .shr a b).1.toNat = a.toNat / 2 ^ n
          ∧ (aluData .sar a b).1.toInt = a.toInt / 2 ^ n)
        ∧ (32 ≤ n → (aluData .shl a b).1 = 0 ∧ (aluData .shr a b).1 = 0
          ∧ (aluData .sar a b).1 = if a.toInt < 0 then 0xFFFFFFFF else 0)
        ∧ ∀ i, i < 32 → bit (aluData .rol a b).1 ((i + n) % 32) = bit a i)
      ∧ ((mulData false a b).toInt = a.toInt * b.toInt ∧ (mulData true a b).toNat = a.toNat * b.toNat
        ∧ ∀ u, mulOp u ⟨a, Tag.raw⟩ ⟨b, Tag.raw⟩
          = ⟨⟨(mulData u a b).extractLsb' 0 32, Tag.raw⟩, ⟨(mulData u a b).extractLsb' 32 32, Tag.raw⟩, 0, false⟩)
      ∧ ∀ (s : State) (k : Fin 9) (u : Fin 2) (i : Instr) (op : Alu) (d : Nat),
        (i, op, d) ∈ aluCommands k u ⟨a, Tag.raw⟩ → canMove s.vol k = true →
        opnd (coreOf s.vol k) (if u.val = 0 then 32 else 51) = ⟨b, Tag.raw⟩ →
        ∃ t, exec i s = .next t ∧ (resPort (coreOf t.vol k) (32 + u.val)).data = (aluData op a b).1
          ∧ sysW (coreOf t.vol k) 0 = sysW (coreOf s.vol k) 0 ||| (aluData op a b).2

/-- A division, as its ports and FLAGS show it: the quotient is truncated toward 0, the remainder has the dividend's sign and a
= q × b + r; by 0 the quotient saturates, the remainder is the dividend and DZ sets; the most negative number by -1 gives
itself, with OV. Delivery is said of operands with tag RAW, DZTRAP 0 and a core with nothing recorded. Rests on R135. -/
def Obligations.DivisionArithmetic : Prop :=
  (∀ a b : Word,
    (b ≠ 0 → ¬ (a = 0x80000000 ∧ b = 0xFFFFFFFF) →
        (divData false a b).1.toInt * b.toInt + (divData false a b).2.1.toInt = a.toInt
          ∧ (divData false a b).2.1.toInt.natAbs < b.toInt.natAbs ∧ (divData false a b).2.2 = 0
          ∧ (0 ≤ a.toInt → 0 ≤ (divData false a b).2.1.toInt) ∧ (a.toInt < 0 → (divData false a b).2.1.toInt ≤ 0))
      ∧ (b ≠ 0 → (divData true a b).1.toNat * b.toNat + (divData true a b).2.1.toNat = a.toNat
          ∧ (divData true a b).2.1.toNat < b.toNat ∧ (divData true a b).2.2 = 0)
      ∧ divData false 0x80000000 0xFFFFFFFF = (0x80000000, 0, flOV)
      ∧ (0 ≤ a.toInt → divData false a 0 = (0x7FFFFFFF, a, flDZ)) ∧ (a.toInt < 0 → divData false a 0 = (0x80000000, a, flDZ))
      ∧ divData true a 0 = (0xFFFFFFFF, a, flDZ))
    ∧ ∀ (s : State) (k : Fin 9) (l : LongOp),
      let c := coreOf s.vol k
      c.long.find? (fun l => l.kind == 0) = some l → l.a.tag = Tag.raw → l.b.tag = Tag.raw → ctlBit s.vol k 2 = false →
      c.busf = none → c.sbf = none → c.impr = [] → c.wait = .none →
      let d := divData l.uns l.a.data l.b.data
      ∃ t, exec (.longOpComplete k .div) s = .next t ∧ (resPort (coreOf t.vol k) 36).data = d.1
        ∧ (resPort (coreOf t.vol k) 37).data = d.2.1 ∧ sysW (coreOf t.vol k) 0 = sysW c 0 ||| d.2.2

/-- A multiplication is in flight for three bundles; a division, an interpolation, a sequencer step and a block operation run as
long operations, and in precise mode the core waits for its own. Said of a unit that is free and a control word without reserved
bits. A long operation delivers: quotient and remainder, the interpolated value, the next state and action, or a block
operation's answer reach their ports, and the operation runs no more. Said of operations that record no fault, with none
recorded before, and of table words with sound check bits. Rests on R125, R126, R134, R135, R148, R153, R161, R164; log 19, 21. -/
def Obligations.LongUnitsAct : Prop :=
  (∀ (s : State) (k : Fin 9) (a : TWord), canMove s.vol k = true →
    let v := s.vol
    let c := moved v k
    let x := untag k a
    let pc := curBundle v k
    let begun (l : LongOp) : State := withVol s (onMove v k fun c =>
      { c with long := c.long ++ [l], wait := if ctlBit v k 1 then .op [l.kind] else c.wait })
    let flown (d : Nat) (ctl : Word) : State := withVol s (onMove v k fun c =>
      { c with fl := c.fl ++ [⟨false, x, opnd c 68, ctl, 3, pc, 0, d, false⟩] })
    exec (.mulS k a) s = .next (flown 69 0)
      ∧ exec (.mulU k a) s = .next (flown 70 4)
      ∧ ((c.long.any fun l => l.kind == 0) = false →
        exec (.divS k a) s = .next (begun ⟨0, x, opnd c 71, TWord.zero, false, pc, 0, 72, v.now, 0⟩)
          ∧ exec (.divU k a) s = .next (begun ⟨0, x, opnd c 71, TWord.zero, true, pc, 0, 73, v.now, 0⟩))
      ∧ ((c.long.any fun l => l.kind != 0) = false →
        exec (.itpX k a) s = .next (begun ⟨1, x, opnd c 97, TWord.zero, false, pc, 0, 98, v.now, 0⟩)
          ∧ exec (.seqEv k a) s = .next (begun ⟨2, x, opnd c 99, opnd c 100, false, pc, 0, 101, v.now, 0⟩)
          ∧ (fld a.data 31 4 = 0 → fld a.data 3 2 ≠ 3 → x.isPoison = false →
            exec (.repGo k a) s = .next (begun ⟨3, x, TWord.zero, x, false, pc, 0, 96, v.now, 0⟩))))
    ∧ (∀ (s : State) (k : Fin 9) (u : LongUnit) (l : LongOp),
    let v := s.vol
    let c := coreOf v k
    c.long.find? (fun l => l.kind == unitKind u) = some l → c.busf = none → c.sbf = none → c.impr = [] → c.wait = .none →
    (∀ x, wrongBits v x = 0) →
    let done (f : Core → Core) : State := withVol s (onCore v k fun c =>
      f { c with long := c.long.eraseP fun l => l.kind == unitKind u })
    (∀ r, u = .div → r = divOp l.uns l.a l.b → r.tagf = false → (r.flags &&& flDZ) = 0 →
        exec (.longOpComplete k u) s
          = .next (done fun c => orFlags (setRes (setRes c 36 (untag k r.r0)) 37 (untag k r.r1)) r.flags))
      ∧ (∀ y f, u = .itp → l.a.isPoison = false → l.b.isPoison = false →
        (k.val = 8 ∨ l.b.tag = Tag.handle ∨ l.b.tag = Tag.raw) →
        curveEval (tableRd v k l.b.data.toNat) false l.a = .ok y f →
        exec (.longOpComplete k u) s = .next (done fun c => orFlags (setRes c 40 (untag k y)) f))
      ∧ (∀ x f act, u = .seq → l.a.isPoison = false → l.b.isPoison = false → l.c.isPoison = false →
        seqEval (tableRd v k l.b.data.toNat) (k.val == 8) l.b l.c l.a = (.ok x f, act) →
        exec (.longOpComplete k u) s = .next (done fun c => setRes (setRes c 41 (untag k x)) 42 (untag k act)))
      ∧ (u = .rep → (opnd c 95).data = 0 →
        exec (.longOpComplete k u) s = .next (done fun c => setRes c 43 TWord.zero)))

/-- A block fill of n words in a control core's own SRAM writes exactly those words, advances the address port by 4n and takes n
from the count port. Rests on R116, R117, R164. -/
def Obligations.BlockFillWritesItsWords : Prop :=
  ∀ (v : Vol) (k n o : Nat), k < 8 → k < v.cores.length → o % 4 = 0 → o + 4 * n ≤ 0x40000 →
    let c := coreOf v k
    let base := 0x10000000 + k * 0x100000 + o
    (opnd c 93).data.toNat = base → (opnd c 95).data.toNat = n →
    let r := repRun k 1 4 n v
    r.2 = (none, some 0)
      ∧ (∀ i, i < n → sramWord r.1 (base + 4 * i) = opnd c 94)
      ∧ (∀ b, (b < base ∨ base + 4 * n ≤ b) → sramWord r.1 b = sramWord v b)
      ∧ (opnd (coreOf r.1 k) 93).data.toNat = base + 4 * n ∧ (opnd (coreOf r.1 k) 95).data = 0

/-- A load from the core's own local SRAM or from shared SRAM: the value is on its way to lsu.d, two bundles or four, and the
base moves as lsu.m says. Memory does not change. A load of the service core whose bytes the youngest covering entry of its store
buffer holds takes them. A store of a control core to its own local or to shared SRAM: the addressed bytes change, and with a
whole word its tag; no other word does. A store of the service core enters its store buffer. Said of words with sound check bits
and of moves that nothing holds and no check turns away (R103, R209, R218 say when one does). Rests on R101, R102, R103, R104,
R208, R209, R217; log 19, 104. -/
def Obligations.FastAccessesAct : Prop :=
  (∀ (s : State) (k : Fin 9) (a : TWord) (i : Instr) (d : Nat),
    (i, d) ∈ [(Instr.ldw k a, 77), (Instr.ldh k a, 78), (Instr.ldb k a, 79)] → canTake s.vol k d (untag k a) = true →
    let v := s.vol
    let c := moved v k
    let x := untag k a
    let f := lsuForm c d x
    let sx := bit (opnd c 76).data 4
    ∀ p, fastSpan v k f.1 f.2.2 = some p →
      let flown (w : Vol) (y : TWord) : State := withVol s (onMove w k fun c => { c with
          port := smapSet zeroT c.port 74 f.2.1
          fl := c.fl ++ [⟨true, ⟨BitVec.ofNat 32 f.1, Tag.raw⟩, y,
            BitVec.ofNat 32 (b2n sx * 32 + (if f.2.2 = 4 then 2 else f.2.2 - 1) * 8),
            if p.dom = 10 + k.val then 2 else 4, curBundle v k, 0, d, false⟩] })
      (c.sbuf.any (entCover · f.1 f.2.2) = false → wrongBits v (f.1 / 4 * 4) = 0 → wrongBits v (f.1 / 4 * 4 + 4) = 0 →
          exec i s = .next (flown (sharedTurn v k p).1 (untag k (fastLoad v k f.1 f.2.2 sx).2))
            ∧ (f.1 % 4 + f.2.2 ≤ 4 →
              (fastLoad v k f.1 f.2.2 sx).2 = pickBytes (loadTag p (sramWord v p.key)) (f.1 % 4) f.2.2 sx))
        ∧ ∀ e, c.sbuf.reverse.find? (entCover · f.1 f.2.2) = some e →
          exec i s = .next (flown v (pickBytes ⟨e.data, Tag.raw⟩ (f.1 % 4) f.2.2 sx)))
    ∧ (∀ (s : State) (k : Fin 9) (a : TWord) (i : Instr) (d : Nat),
    (i, d) ∈ [(Instr.stw k a, 80), (Instr.sth k a, 81), (Instr.stb k a, 82)] → canTake s.vol k d (untag k a) = true →
    let v := s.vol
    let f := lsuForm (moved v k) d (untag k a)
    let pc := curBundle v k
    (∀ p, k.val < 8 → fastPlace v k f.1 = some p → wrongBits v p.key = 0 →
        let mask := byteMask (f.1 % 4) f.2.2
        let old := sramWord v p.key
        exec i s = .next (withVol s (sramPut (onMove (sharedTurn v k p).1 k fun c => { c with
            port := smapSet zeroT c.port 74 f.2.1
            last := if p.dom = 10 + k.val then some ⟨v.now, f.1 / 4 % 8, pc, 0, d⟩ else none }) p.key
          (if f.2.2 = 4 then a else ⟨(old.data &&& ~~~mask) ||| ((a.data <<< (8 * (f.1 % 4))) &&& mask), old.tag⟩))))
      ∧ (k.val = 8 → ∃ es, exec i s = .next (withVol s (onMove v 8 fun c => { c with
            port := smapSet zeroT c.port 74 f.2.1, sbuf := c.sbuf ++ es }))
          ∧ es ≠ [] ∧ ∀ j, j < f.2.2 → ∃ e ∈ es, e.addr = (f.1 + j) / 4 * 4 % 2 ^ 32
            ∧ fld e.mask (8 * ((f.1 + j) % 4) + 7) (8 * ((f.1 + j) % 4)) = 255
            ∧ fld e.data (8 * ((f.1 + j) % 4) + 7) (8 * ((f.1 + j) % 4)) = fld a.data (8 * j + 7) (8 * j)))

/-- An access to an address that the core does not reach directly is held: nothing else of the core moves until its response. A
store of a word of POISON to a target without tags sets FLAGS.PZ. A held load of an SRAM word ends with the word in lsu.d, a
held store with the word in memory, and issue goes on; the oldest buffered store of the service core reaches its word with tag
RAW. Said of accesses that are answered OKAY and of cores with nothing recorded. Rests on R101, R102, R138, R208; log 19, 54. -/
def Obligations.HeldAccessesAct : Prop :=
  (∀ (s : State) (k : Fin 9) (a : TWord) (i : Instr) (d : Nat),
    (i, d) ∈ [(Instr.ldw k a, 77), (Instr.ldh k a, 78), (Instr.ldb k a, 79), (Instr.stw k a, 80), (Instr.sth k a, 81),
      (Instr.stb k a, 82)] → canTake s.vol k d (untag k a) = true →
    let v := s.vol
    let c := moved v k
    let x := untag k a
    let f := lsuForm c d x
    (if d < 80 then fastSpan v k f.1 f.2.2 = none else k.val < 8 ∧ fastPlace v k f.1 = none) →
    let w := issueGate (onMove v k fun c => { c with
        port := smapSet zeroT c.port 74 f.2.1
        held := some ⟨decide (80 ≤ d), f.2.2, f.1, if d < 80 then TWord.zero else x, bit (opnd c 76).data 4, curBundle v k, 0, d,
          none, false, if d < 80 then (c.sbuf.reverse.find? (entCover · f.1 f.2.2)).map fun e =>
            pickBytes ⟨e.data, Tag.raw⟩ (f.1 % 4) f.2.2 (bit (opnd c 76).data 4) else none, false⟩ }) f.1
    exec i s = .next (withVol s
      (if 80 ≤ d ∧ taggedTarget f.1 = false ∧ x.isPoison = true then onCore w k (orFlags · flPZ) else w)))
    ∧ (∀ (s : State) (k : Fin 9) (pl : Place) (a : Nat),
    let v := s.vol
    let c := coreOf v k
    k.val < v.cores.length → coreUp v k = true → (v.sys.mode ≠ .cold ∧ v.sys.mode ≠ .reset) → ratioOk v = true →
    noAbort v = true → v.sys.downHeld = [] → place a = some pl → pl.win = .direct → a % 4 = 0 → domUp v pl.dom = true →
    wiping v pl.dom = false → wrongBits v pl.key = 0 → c.fheld = [] → c.busf = none → c.sbf = none → c.trapNo = none → c.impr = [] →
    v.parked = [] → v.mtx.late = [] →
    (∀ h, c.held = some h → h.write = false → h.size = 4 → h.addr = a → h.resp = none → h.done = false → h.fwd = none → h.wake = false →
        ∃ t, exec (.heldAccessResponse k) s = .next t ∧ (coreOf t.vol k).held = none
          ∧ resPort (coreOf t.vol k) 38 = untag k (loadTag pl (sramWord v pl.key)) ∧ (coreOf t.vol k).valid.getLsbD 38 = true
          ∧ (coreOf t.vol k).g = c.g ∧ t.vol.sram = v.sram ∧ t.nv = s.nv)
      ∧ (∀ h, c.held = some h → h.write = true → h.size = 4 → h.addr = a → h.resp = none → h.done = false → h.fwd = none → h.wake = false →
        ∃ t, exec (.heldAccessResponse k) s = .next t ∧ (coreOf t.vol k).held = none
          ∧ (sramWord t.vol pl.key).data = h.data.data ∧ (coreOf t.vol k).g = c.g ∧ t.nv = s.nv
          ∧ ∀ b, b ≠ pl.key → sramWord t.vol b = sramWord v b)
      ∧ (∀ e rest, k.val = 8 → c.sbuf = e :: rest → e.addr = a → e.mask = 0xFFFFFFFF →
        ∃ t, exec .storeBufferDrain s = .next t ∧ (coreOf t.vol 8).sbuf = rest
          ∧ sramWord t.vol pl.key = ⟨e.data, Tag.raw⟩ ∧ (coreOf t.vol 8).g = c.g ∧ t.nv = s.nv
          ∧ ∀ b, b ≠ pl.key → sramWord t.vol b = sramWord v b))

/-- Taking an exception outside a handler: EPC and ECAUSE hold the bundle and the cause record, ESTAT.IES and ESTAT.SPU what
ICTL.IE and MODE.U were, the ports go into the shadow, and the core runs in supervisor mode at EVEC with interrupts off and
ACTIVE set; a due mode change and the halves of a split load are made first. Its general registers, predicates and memory are
untouched. Said of a core with no block operation running, which would process elements up to the entry. A fault in a handler is a
double fault: the core halts, CORE_DFC and CORE_DFPC record it and core event 1 occurs, but for the overrun, which does nothing
there. Rests on R191, R192, R193, R194, R197, R214. -/
def Obligations.ExceptionEntrySavesAndVectors : Prop :=
  ∀ (v : Vol) (k : Nat) (f : CFault) (bun : BitVec 128) (epc : Nat) (le : Bool), k < v.cores.length →
    let v' := enterExc v k f bun epc le
    let c' := coreOf v' k
    (xActive (coreOf v k) = false → ((coreOf v k).long.any fun l => l.kind == 3) = false →
      let c := frozen (coreOf v k)
      sysW c' 0x48 = BitVec.ofNat 32 (epc / 16 * 16) ∧ sysW c' 0x4A = causeWord f
        ∧ bit (sysW c' 0x4B) 7 = bit (sysW c 0x53) 0 ∧ bit (sysW c' 0x4B) 0 = userMode c
        ∧ c'.shadow = c.port ∧ c'.shValid = c.valid ∧ c'.pc = (sysW c 0x51).toNat / 16 * 16
        ∧ userMode c' = false ∧ xActive c' = true ∧ shPriv c' = userMode c ∧ sysW c' 0x53 = 0
        ∧ c'.g = (coreOf v k).g ∧ c'.p = (coreOf v k).p ∧ v'.sram = v.sram
        ∧ ((coreOf v k).fl.any splitLoad = false → (coreOf v k).restart = false → c = modeDue (coreOf v k)))
      ∧ (xActive (coreOf v k) = true → f.code ≠ 0x30 → c'.dfHalt = true ∧ c'.g = (coreOf v k).g ∧ v'.sram = v.sram
        ∧ rg v' (ra (pCore k) 0x058) = BitVec.ofNat 32 (fld (sysW (coreOf v k) 0x4A) 5 0 * 64 + f.code % 64)
        ∧ rg v' (ra (pCore k) 0x05C) = BitVec.ofNat 32 (epc / 16 * 16)
        ∧ (k < 9 → rb v (aEvEn (pCore k)) 1 = true → rb v' (aEvPend (pCore k)) 1 = true))
      ∧ (xActive (coreOf v k) = true → f.code = 0x30 → v' = v)

/-- A trap enters its handler with cause code 2 and its number; the service core's interrupt with code 1 and the number of its
source. Said of cores with no fault recorded, no block operation running and outside a handler. Rests on R107, R191, R192, R300;
log 19, 53. -/
def Obligations.TrapAndInterruptEnter : Prop :=
  ∀ (s : State) (k : Fin 9) (a : TWord),
    (canMove s.vol k = true → xActive (coreOf s.vol k) = false → k.val < s.vol.cores.length →
        ((coreOf s.vol k).long.any fun l => l.kind == 3) = false →
        ∃ t, exec (.trap k a) s = .next t
          ∧ fld (sysW (coreOf t.vol k) 0x4A) 5 0 = 2 ∧ fld (sysW (coreOf t.vol k) 0x4A) 30 22 = a.data.toNat % 256
          ∧ sysW (coreOf t.vol k) 0x48 = BitVec.ofNat 32 ((coreOf s.vol k).pc / 16 * 16)
          ∧ (coreOf t.vol k).pc = (sysW (coreOf s.vol k) 0x51).toNat / 16 * 16 ∧ userMode (coreOf t.vol k) = false
          ∧ (coreOf t.vol k).g = (coreOf s.vol k).g ∧ t.vol.sram = s.vol.sram ∧ t.nv = s.nv)
      ∧ (∀ n, intSource s.vol = some n → intAllowed s.vol = true → (coreOf s.vol 8).busf = none → (coreOf s.vol 8).impr = [] →
        (coreOf s.vol 8).sbf = none → 8 < s.vol.cores.length → ((coreOf s.vol 8).long.any fun l => l.kind == 3) = false →
        ∃ t, exec .interruptEntry s = .next t
          ∧ fld (sysW (coreOf t.vol 8) 0x4A) 5 0 = 1 ∧ fld (sysW (coreOf t.vol 8) 0x4A) 30 22 = n % 512
          ∧ sysW (coreOf t.vol 8) 0x48 = BitVec.ofNat 32 ((coreOf s.vol 8).pc / 16 * 16)
          ∧ (coreOf t.vol 8).pc = (sysW (coreOf s.vol 8) 0x51).toNat / 16 * 16
          ∧ (coreOf t.vol 8).g = (coreOf s.vol 8).g ∧ t.vol.sram = s.vol.sram ∧ t.nv = s.nv)

/-- The transfers name their target and two delay slots: a jump its value, a call also pushes the bundle three further on, a
return pops it, a return from an exception names EPC and the return that follows. A loop opens a level with the next bundle and
its count (65536 for 0); `lp.pop` closes one. Said of cores with no transfer on its way and no check that turns the move away.
Rests on R105, R108, R109, R112, R115, R202; log 19. -/
def Obligations.TransfersAndLoopsAct : Prop :=
  ∀ (s : State) (k : Fin 9) (a : TWord), canMove s.vol k = true →
    let v := s.vol
    let c := moved v k
    let x := untag k a
    let pc := curBundle v k
    let dep := fld (sysW c 0x46) 8 4
    let cnt := x.data.toNat % 65536
    let goes (c : Core) (target : Nat) (rx : Bool) : Core := { c with ds := some (target / 16 * 16, 2), dsAt := v.now, rx := rx }
    (c.ds = none → x.isPoison = false →
        exec (.jump k a) s = .next (withVol s (onMove v k fun c => goes c x.data.toNat false))
          ∧ ((ctlBit v k 0 = false ∨ dep ≠ 16) → exec (.call k a) s = .next (withVol s (onMove v k fun c =>
            goes (rsPush c (pc + 48)) x.data.toNat false)))
          ∧ (loopLevels c ≠ 2 → exec (.lpBegin k a) s = .next (withVol s (onMove v k fun c =>
            { setSys (setSys (setSys c (0x41 + 2 * loopLevels c) (BitVec.ofNat 32 (pc + 16)))
                (0x42 + 2 * loopLevels c) (BitVec.ofNat 32 (if cnt = 0 then 65536 else cnt)))
                0x45 (BitVec.ofNat 32 (loopLevels c + 1)) with
              lpCold := c.lpCold &&& ~~~(BitVec.ofNat 2 (2 ^ loopLevels c)) }))))
      ∧ (c.ds = none → (ctlBit v k 0 = false ∨ dep ≠ 0) →
        exec (.ret k) s = .next (withVol s (onMove v k fun c => goes (rsPop c).1 (rsPop c).2 false)))
      ∧ (c.ds = none → userMode c = false → (∀ h, fheldAt c (xDepth c) = some h → h.done = true) →
        exec (.retx k) s = .next (withVol s (onMove v k fun c => goes c (sysW c 0x48).toNat true)))
      ∧ exec (.lpPop k) s = .next (withVol s (onMove v k fun c => setSys c 0x45 (BitVec.ofNat 32 (loopLevels c - 1))))

/-- A fence waits for long operations and the store buffer, and is nothing without them; `cu.wft` waits for the tick, the
service core's wait for an interrupt once its store buffer is empty; the first commit of a tick makes the core's pending words
committed and notes its cycle. Rests on R44, R62, R111, R148, R210. -/
def Obligations.WaitsAndCommitAct : Prop :=
  ∀ s : State,
    let v := s.vol
    let waits (k : Nat) (w : Wait) : State := withVol s (onMove v k fun c => { c with wait := w })
    (∀ k : Fin 9, canMove v k = true →
        exec (.fence k) s = .next (if (coreOf v k).long.isEmpty && (coreOf v k).sbuf.isEmpty then withVol s (onMove v k fun c => c)
          else waits k .fence))
      ∧ (∀ k : Fin 8, canMove v k = true →
        exec (.wft k) s = .next (waits k .wft)
          ∧ (hasCommitted v k = false →
            ∃ t, exec (.commit k) s = .next t ∧ smapFind t.vol.tick.commits k = some (tickCyc v)
              ∧ (∀ i, i < 256 → commOf t.vol i = if outOwner v i = k.val then pendOf v i else commOf v i)
              ∧ t.vol.sram = v.sram ∧ t.vol.cores = (onMove v k fun c => c).cores ∧ t.vol.regs = v.regs ∧ t.nv = s.nv))
      ∧ (canMove v 8 = true → (coreOf v 8).sbuf = [] → exec .wfi s = .next (waits 8 .wfi))

/-- A second commit of a core in one tick leaves every pending, committed and active output word as it is, sets FAULT.DBLCOMMIT
of the core and raises the double-commit event. Rests on R64. -/
def Obligations.SecondCommitOnlyFaults : Prop :=
  ∀ (s : State) (k : Fin 8), canMove s.vol k = true → hasCommitted s.vol k = true →
    exec (.commit k) s = .next (withVol s (raiseEvent (setFault (onMove s.vol k fun c => c) pTick k) pTick 9))
      ∧ ∀ t, exec (.commit k) s = .next t → t.vol.outs = s.vol.outs ∧ rb t.vol (aFault pTick) k = true
        ∧ (rb s.vol (aEvEn pTick) 9 = true → rb t.vol (aEvPend pTick) 9 = true)
        ∧ t.vol.tick = s.vol.tick ∧ t.vol.sram = s.vol.sram ∧ t.vol.cores = (onMove s.vol k fun c => c).cores ∧ t.nv = s.nv

/-- `sys.w` of a sys register keeps the bits the register has: of ECAUSE and ESTAT a word without reserved codes, of ESCR0 and ESCR1
the tag too, and a loop register marks its loop cold; MODE waits for two bundles and then takes effect. `sys.r` delivers a
register. A write of EVEC waits for its vector lines, and takes effect once both can be executed; else XSTAT.FERR sets. In user
mode `cu.retx`, and `sys.w` and `sys.r` of registers from 0x40 up, take the privilege fault, code 5. Rests on R118, R119, R120,
R121, R181, R191, R192, R196; log 19, 24, 100, 101. -/
def Obligations.SysCommandsAct : Prop :=
  ∀ (s : State) (k : Fin 9) (a : TWord),
    let v := s.vol
    let c := moved v k
    let x := untag k a
    let n := (opnd c 102).data.toNat
    let does (f : Core → Core) : Out := .next (withVol s (onMove v k f))
    (canMove v k = true → (userMode c = false ∨ n < 0x40) →
        (x.isPoison = false → sysOk n true x.data = true →
          (n = 0 ∨ n = 0x46 ∨ n = 0x48 ∨ n = 0x49 ∨ 0x4C ≤ n ∧ n ≤ 0x50 ∨ 0x53 = n ∨ 0x60 ≤ n ∧ n ≤ 0x6F →
              exec (.sysW k a) s = does fun c => setSys c n (x.data &&& sysMask k n))
            ∧ (n = 0x40 → exec (.sysW k a) s = does fun c => { c with modeChg := some (1, bit x.data 0) })
            ∧ (0x41 ≤ n ∧ n ≤ 0x45 → exec (.sysW k a) s = does fun c => { setSys c n (x.data &&& sysMask k n) with
                lpCold := c.lpCold ||| (if n = 0x45 then 3 else if n ≤ 0x42 then 1 else 2) })
            ∧ (n = 0x56 ∨ n = 0x57 → exec (.sysW k a) s = does fun c => setSysT c n x)
            ∧ (n = 0x4A → causeCodeOk (fld x.data 5 0) = true → respCodeOk (fld x.data 21 19) = true →
              exec (.sysW k a) s = does fun c => setSys c n (x.data &&& 0x7FFFFFFF))
            ∧ (n = 0x4B → fld x.data 2 1 ≠ 3 → exec (.sysW k a) s = does fun c => setSys c n (x.data &&& 0xBF)))
        ∧ (sysOk n false 0 = true → exec (.sysR k) s = does fun c => setRes c 47 (sysRead (onMove v k fun c => c) k n)))
      ∧ (∀ u, (coreOf v k).modeChg = some (0, u) →
        exec (.modeChange k) s = .next (withVol s (onCore v k fun c => setUser { c with modeChg := none } u)))
      ∧ ((∀ u, (coreOf v k).modeChg ≠ some (0, u)) → exec (.modeChange k) s = .next s)
      ∧ (canMove v k = true → userMode c = false → x.isPoison = false →
        exec (.evecWrite k a) s = does fun c =>
          { setOpnd c 102 (TWord.ofWord 0x51) with evecNew := some (x.data &&& 0xFFFFFFF0).toNat })
      ∧ (∀ e, (coreOf v k).evecNew = some e →
        let ok := executable s.nv v e = true ∧ lineErr s.nv v.free e < 2 ∧ lineErr s.nv v.free (e + 128) < 2
        exec (.evecLoadDone k) s = .next (withVol s (onCore (nextFree v) k fun c =>
          if ok then { setSys c 0x51 (BitVec.ofNat 32 e) with evecNew := none } else { setXBit c 4 true with evecNew := none })))
      ∧ (canMove v k = true → userMode c = true →
        let takes (f : CFault) : Out := .next (withVol s (takePrecise s.nv v k f))
        (c.ds = none → (∀ h, fheldAt c (xDepth c) = some h → h.done = true) → exec (.retx k) s = takes (cfault 5 0 86 c.pc))
          ∧ (0x40 ≤ n → sysOk n true x.data = true → exec (.sysW k a) s = takes (cfault 5 0 103 c.pc))
          ∧ (0x40 ≤ n → sysOk n false 0 = true → exec (.sysR k) s = takes (cfault 5 0 104 c.pc)))

/-- FSAVE writes the 64 words of the frame image at its 256-byte aligned address in the core's own SRAM, and no other, goes one
level deeper and clears ACTIVE; FRESTORE takes EPC and EADDR from the image, goes one level up and sets ACTIVE; of an address that
may hold no image, or at the wrong depth, XSTAT.FERR sets and no memory changes. Said of words with sound check bits. Rests on
R200, R201. -/
def Obligations.FrameSaveAndRestore : Prop :=
  ∀ (s : State) (k : Fin 9) (a : TWord),
    let v := s.vol
    let c := moved v k
    let b := a.data.toNat
    let refused (i : Instr) (n : Word) : Prop := exec i s
      = .next (withVol s (onMove v k fun c => setXBit (setOpnd c 102 (TWord.ofWord n)) 4 true))
    canMove v k = true → userMode c = false → (untag k a).isPoison = false → k.val < v.cores.length →
    (imageOk k b = true → xDepth c < 4 →
        ∃ t, exec (.fsave k a) s = .next t ∧ (frameImage c).length = 64
          ∧ (∀ i, i < 64 → sramWord t.vol (b + 4 * i) = untag k ((frameImage c).getD i TWord.zero))
          ∧ (∀ x, (x < b ∨ b + 256 ≤ x) → sramWord t.vol x = sramWord v x)
          ∧ xDepth (coreOf t.vol k) = xDepth c + 1 ∧ xActive (coreOf t.vol k) = false
          ∧ (coreOf t.vol k).g = c.g ∧ t.vol.regs = v.regs ∧ t.nv = s.nv)
      ∧ (imageOk k b = false ∨ 4 ≤ xDepth c → refused (.fsave k a) 0x54)
      ∧ (imageOk k b = true → 0 < xDepth c → (∀ i, i < 63 → wrongBits v (b + 4 * i) = 0) →
        ∃ t, exec (.frestore k a) s = .next t
          ∧ sysW (coreOf t.vol k) 0x48 = (sramWord v b).data &&& 0xFFFFFFF0
          ∧ sysW (coreOf t.vol k) 0x4C = (sramWord v (b + 16)).data
          ∧ xDepth (coreOf t.vol k) = xDepth c - 1 ∧ xActive (coreOf t.vol k) = true
          ∧ (coreOf t.vol k).g = c.g ∧ t.vol.sram = v.sram ∧ t.nv = s.nv)
      ∧ (imageOk k b = false ∨ xDepth c = 0 → refused (.frestore k a) 0x55)

/-- A bundle with one ungated move from general register g to general register d, outside loops and delay slots: it issues,
CORE_PC names it, the pc goes on by 16, register d takes g's word, and nothing else of registers, ports and memory changes.
Rests on R79, R83, R86, R93, R97, R211; log 20. -/
def Obligations.RegisterMoveBundleIssues : Prop :=
  ∀ (s : State) (k : Fin 9) (lane d g : Nat),
    let v := s.vol
    let c := coreOf v k
    let bun := fetchedAt s.nv v c.pc
    canMove v k = true → k.val < v.cores.length → c.restart = false → c.fl = [] → c.replay = 0 → c.impr = [] → c.long = [] →
    c.ds = none → c.le = false → c.modeChg = none → executable s.nv v c.pc = true → lineErr s.nv v.free c.pc = 0 →
    bunBadHeader bun = false → bunFmt bun = 0 → bunMoves bun = [⟨lane, d, g⟩] → bunGen bun lane = false → d < 32 → g < 32 →
    ∃ t, exec (.bundleIssue k) s = .next t
      ∧ gReg (coreOf t.vol k) d = untag k (gReg c g) ∧ (∀ n, n ≠ d → gReg (coreOf t.vol k) n = gReg c n)
      ∧ (coreOf t.vol k).pc = c.pc + 16 ∧ rg t.vol (ra (pCore k) 0x044) = BitVec.ofNat 32 c.pc
      ∧ (coreOf t.vol k).port = c.port ∧ (coreOf t.vol k).valid = c.valid ∧ (coreOf t.vol k).p = c.p
      ∧ t.vol.sram = v.sram ∧ t.nv = s.nv

/-- CORE_CTL: RUN 1 starts a core that stands still at CORE_START, RUN 0 stops it; HALTREQ 1 raises core event 6, HALTREQ 0 lets
the core go on, from CORE_START where RUN rose meanwhile; BTBLOAD empties CORE_BTBST and the locked entries and clears only when
its load is done. A BTB load ends with BTBLOAD 0, and every sound entry of its table is locked; said of a table in config flash.
Rests on R177, R178, R182, R211. -/
def Obligations.CoreControlActs : Prop :=
  ∀ (s : State) (m : Fin 16) (k : Fin 9),
    let v := s.vol
    let a := aCtl (pCore k)
    let loading (y : Vol) : Vol := if rb v a 6 then rgOr y a 0x40 else y
    let set (w : Word) : Vol := loading (rgOr v a w)
    let clr (w : Word) : Vol := loading (rgClr v a w)
    let up (w : Word) (v' : Vol) : Out := .next (performed s m (a + 0x400) w v')
    let down (w : Word) (v' : Vol) : Out := .next (performed s m (a + 0x800) w v')
    (pageOpen v m (pCore k) = true →
        (rb v a 4 = false → rb v a 5 = false → exec (.run m k true) s = up 0x10 (startCore (set 0x10) k))
        ∧ (rb v a 4 = false → rb v a 5 = true →
          exec (.run m k true) s = up 0x10 (onCore (set 0x10) k fun c => { c with startPend := true }))
        ∧ (rb v a 4 = true → rb v a 5 = false →
          exec (.run m k false) s = down 0x10 (onCore (clr 0x10) k fun c => { c with run := false, startPend := false }))
        ∧ (rb v a 5 = false → exec (.haltreq m k true) s = up 0x20
            (raiseEvent (onCore (set 0x20) k fun c => { c with last := none }) (pCore k) 6))
        ∧ (rb v a 5 = true → exec (.haltreq m k false) s = down 0x20
            (if (coreOf v k).startPend then startCore (clr 0x20) k else clr 0x20))
        ∧ (rb v a 6 = false → exec (.btbload m k) s = up 0x40
            (onCore (rgSet (rgOr v a 0x40) (ra (pCore k) 0x04C) 0) k fun c => { c with btb := c.btb.filter fun e => !e.2 }))
        ∧ (rb v a 6 = true → exec (.btbload m k) s = up 0x40 (set 0x40)))
      ∧ (let base := (rg v (ra (pCore k) 0x048)).toNat
        let n := (flashWord s.nv base).toNat
        ctlBit v k 6 = true → k.val < v.cores.length → 0x1000000 ≤ base → 1 ≤ n → n ≤ 64 →
        (∀ i, i ≤ n → lineErr s.nv v.free (base + 4 * i) < 2) →
        ∃ t, exec (.btbLoadDone k) s = .next t ∧ ctlBit t.vol k 6 = false ∧ t.vol.sram = v.sram ∧ t.nv = s.nv
          ∧ ∀ i x, i < n → x = (flashWord s.nv (base + 4 * (i + 1))).toNat → x % 128 = 0 → x / 0x800000 = activePlane v →
            executable s.nv v x = true → lineErr s.nv v.free x < 2 → lineErr s.nv v.free (x + 128) < 2 →
            (x, true) ∈ (coreOf t.vol k).btb)

/-! ### Flash and Whetstone -/

/-- A flash command that nothing refuses takes its target and, to program, its line of the buffer; STAT.BUSY is 1, and the plane
that it erases or programs is verified no more. No memory changes before its end. One that is refused sets its FAULT bit and
raises event 1; one given while another runs sets FAULT.BUSY and changes no command. The end of a flash command: the controller is
idle, FLC_TIME shows its microseconds. A program that agrees has put its line into flash with sound check bits; an erase leaves
every word of its span all ones; words outside the span stay. A blank check changes no flash and tells the result. A failed
program sets FAULT.VERIFY and raises event 1; every other end here raises event 0. Rests on R243, R244, R245, R268, R269; log
17, 60. -/
def Obligations.FlashCommandsAct : Prop :=
  (∀ (s : State) (m : Fin 16) (i : Instr) (op : Nat),
    (i, op) ∈ [(Instr.prog m, 1), (Instr.esect m, 2), (Instr.eplane m, 3), (Instr.blank m, 4)] →
    pageOpen s.vol m pFlc = true →
    let a := (rg s.vol (ra pFlc 0x044)).toNat
    (s.vol.flc.op = 0 → flcRefusal s.nv s.vol op a = none →
      ∃ v, exec i s = .next (performed s m (ra pFlc 0x040) (BitVec.ofNat 32 op) v)
        ∧ v.flc.op = op ∧ v.flc.addr = a ∧ rf v (ra pFlc 0x040) 2 0 = op ∧ rb v (aStat pFlc) 29 = true
        ∧ (op = 1 → ∀ j, j < (flcSpan op a).2 / 4 → v.flc.buf.getD j 0 = rg s.vol (ra pFlc (0x100 + 4 * j)))
        ∧ (op ≠ 4 → a < 0x1000000 → rb v (aStat pFlc) (a / 0x800000) = false)
        ∧ v.sram = s.vol.sram ∧ v.cores = s.vol.cores ∧ ∀ p off, p ≠ pFlc → off < 0x400 → rg v (ra p off) = rg s.vol (ra p off))
    ∧ (s.vol.flc.op = 0 → ∀ f, flcRefusal s.nv s.vol op a = some f →
      ∃ v, exec i s = .next (performed s m (ra pFlc 0x040) (BitVec.ofNat 32 op) v) ∧ v.flc = s.vol.flc
        ∧ rb v (aFault pFlc) f = true ∧ rf v (ra pFlc 0x040) 2 0 = 0
        ∧ (rb s.vol (aEvEn pFlc) 1 = true → rb v (aEvPend pFlc) 1 = true) ∧ v.sram = s.vol.sram ∧ v.cores = s.vol.cores)
    ∧ (s.vol.flc.op ≠ 0 →
      ∃ v, exec i s = .next (performed s m (ra pFlc 0x040) (BitVec.ofNat 32 op) v) ∧ v.flc = s.vol.flc
        ∧ rb v (aFault pFlc) 3 = true ∧ v.sram = s.vol.sram ∧ v.cores = s.vol.cores))
    ∧ (∀ (s : State) (us : BitVec 20) (good : Bool),
    let op := s.vol.flc.op
    let x := flcSpan op s.vol.flc.addr
    (op = 0 → exec (.flcOpDone us good) s = .next s) ∧
    (1 ≤ op → op ≤ 4 → s.vol.flc.addr % 4 = 0 →
    ∃ t, exec (.flcOpDone us good) s = .next t ∧ t.vol.flc = Flc.reset ∧ rb t.vol (aStat pFlc) 29 = false
      ∧ rg t.vol (ra pFlc 0x048) = us.setWidth 32 ∧ t.nv.otp = s.nv.otp ∧ t.vol.sram = s.vol.sram ∧ t.vol.cores = s.vol.cores
      ∧ (∀ b, (b < x.1 ∨ x.1 + x.2 ≤ b) → smapGet flashBlank t.nv.flash b = smapGet flashBlank s.nv.flash b)
      ∧ (op = 1 → good = true → ∀ j, j < x.2 / 4 → j < s.vol.flc.buf.length →
          smapGet flashBlank t.nv.flash (x.1 + 4 * j) = s.vol.flc.buf.getD j 0)
      ∧ (op = 1 → good = true → ∀ u, u < x.2 / 16 → smapGet noErr t.nv.unitErr (x.1 + 16 * u) = 0)
      ∧ (op = 1 → good = false → rb t.vol (aFault pFlc) 4 = true
        ∧ (rb s.vol (aEvEn pFlc) 1 = true → rb t.vol (aEvPend pFlc) 1 = true))
      ∧ ((op = 2 ∨ op = 3) → ∀ b, x.1 ≤ b → b < x.1 + x.2 → smapGet flashBlank t.nv.flash b = 0xFFFFFFFF)
      ∧ (op = 4 → t.nv = s.nv ∧ (flashIsBlank s.nv x.1 x.2 = false → rb t.vol (aFault pFlc) 1 = true))
      ∧ ((op = 1 ∧ good = true) ∨ op = 2 ∨ op = 3 ∨ (op = 4 ∧ flashIsBlank s.nv x.1 x.2 = true) →
        rb s.vol (aEvEn pFlc) 0 = true → rb t.vol (aEvPend pFlc) 0 = true)))

/-- Whetstone's walk: with background testing on, the next region of a selected memory comes under test: a word with one wrong bit
is corrected, one with two stays uncorrectable, and no word changes its value. A region that passes is released; a failing one sets
FAULT.MARCH, records the word, bit and element of the first failure and raises event 2; a region that is not restored in time is
tried again four times, then counted as skipped. Said while no word of the region has three wrong bits and no power-down waits.
CTL.FAST starts a fast pass, for which a region under test is restored, and its end clears it, with its length in cycles and event
1; a march failure also sets FAULT.FAST and raises event 2. With the flash signature on, each line of the active plane whose units
are sound enters the CRC-32C, and the last puts it into WHS_FSIG, which is compared with the reference or becomes it. Rests on R260,
R261, R262, R263, R264, R265; log 27, 61. -/
def Obligations.WhetstoneActs : Prop :=
  (∀ s : State, s.vol.sys.downHeld = [] →
    let at' := (rg s.vol (ra pWhs 0x04C)).toNat
    (∀ x, ready s.vol pWhs = true → rb s.vol (aCtl pWhs) 0 = true → s.vol.whs.testing = false → fastBusy s.vol = false →
        whsFrom s.vol at' = some x → (∀ i, i < 64 → wrongBits s.vol (x + 4 * i) ≤ 2) →
        ∃ t, exec .whsRegionStart s = .next t ∧ t.vol.whs.testing = true ∧ rg t.vol (ra pWhs 0x04C) = BitVec.ofNat 32 x
          ∧ t.vol.whs.saved = s.vol.now ∧ t.vol.cores = s.vol.cores ∧ (∀ a, sramWord t.vol a = sramWord s.vol a)
          ∧ (∀ i, i < 64 → wrongBits t.vol (x + 4 * i)
            = if wrongBits s.vol (x + 4 * i) = 2 then 2 else b2n (s.vol.stuck.contains (x + 4 * i)))
          ∧ ∀ a, (∀ i, i < 64 → a ≠ x + 4 * i) → wrongBits t.vol a = wrongBits s.vol a)
      ∧ (s.vol.whs.testing = true →
        (∃ t, exec (.whsRegionDone none) s = .next t ∧ t.vol.whs.testing = false ∧ t.vol.whs.retries = 0
            ∧ (∀ y, whsFrom s.vol (at' + 256) = some y → rg t.vol (ra pWhs 0x04C) = BitVec.ofNat 32 y)
            ∧ t.vol.sram = s.vol.sram ∧ t.vol.cores = s.vol.cores)
          ∧ (∀ f : MarchFail, ∃ t, exec (.whsRegionDone (some f)) s = .next t ∧ t.vol.whs.testing = false
            ∧ rb t.vol (aFault pWhs) 0 = true ∧ (rb s.vol (aEvEn pWhs) 2 = true → rb t.vol (aEvPend pWhs) 2 = true)
            ∧ (rb s.vol (aFault pWhs) 0 = false → rg t.vol (ra pWhs 0x05C) = BitVec.ofNat 32 (at' + 4 * f.word.val)
              ∧ rg t.vol (ra pWhs 0x060) = BitVec.ofNat 32 (f.bit.val * 256 + f.elem.val))
            ∧ t.vol.sram = s.vol.sram ∧ t.vol.cores = s.vol.cores)
          ∧ ∃ t, exec .whsRegionTimeout s = .next t ∧ t.vol.whs.testing = false ∧ t.vol.sram = s.vol.sram
            ∧ t.vol.whs.retries = (if s.vol.whs.retries < 4 then s.vol.whs.retries + 1 else 0)
            ∧ (4 ≤ s.vol.whs.retries → rg t.vol (ra pWhs 0x058) = rg s.vol (ra pWhs 0x058) + 1) ∧ t.vol.cores = s.vol.cores))
    ∧ (∀ (s : State) (m : Fin 16),
    (pageOpen s.vol m pWhs = true → fastBusy s.vol = true ∨ s.vol.whs.testing = false →
        exec (.fast m) s = .next (performed s m (aCtl pWhs + 0x400) 2 (rgOr (rgOr s.vol (aCtl pWhs) 2) (aCtl pWhs) 2)))
      ∧ (pageOpen s.vol m pWhs = true → fastBusy s.vol = false → s.vol.whs.testing = true → s.vol.sys.downHeld = [] →
        ∃ v, exec (.fast m) s = .next (performed s m (aCtl pWhs + 0x400) 2 v) ∧ fastBusy v = true ∧ v.whs.testing = false
          ∧ v.whs.retest = true ∧ v.sram = s.vol.sram ∧ v.cores = s.vol.cores)
      ∧ (∀ (len : BitVec 20) (bad : Bool), fastBusy s.vol = true → s.vol.sramErr = [] → s.vol.stuck = [] →
        ∃ t, exec (.fastPassDone len bad) s = .next t ∧ fastBusy t.vol = false ∧ rg t.vol (ra pWhs 0x068) = len.setWidth 32
          ∧ (rb s.vol (aEvEn pWhs) 1 = true → rb t.vol (aEvPend pWhs) 1 = true)
          ∧ (bad = true → rb t.vol (aFault pWhs) 1 = true ∧ (rb s.vol (aEvEn pWhs) 2 = true → rb t.vol (aEvPend pWhs) 2 = true))
          ∧ (bad = false → rg t.vol (aFault pWhs) = rg s.vol (aFault pWhs))
          ∧ t.vol.sram = s.vol.sram ∧ t.vol.cores = s.vol.cores)
      ∧ (ready s.vol pWhs = true → rb s.vol (aCtl pWhs) 2 = true →
        let base := activePlane s.vol * 0x800000 + 128 * s.vol.whs.fline
        (∀ u, u < 8 → unitErrAt s.nv (base + 16 * u) = 0) →
        let sum := (flashBytes s.nv base 128).foldl (crc32Byte crc32cPoly) (if s.vol.whs.fline = 0 then 0xFFFFFFFF else s.vol.whs.fsum)
        ∃ t, exec .fsigLineRead s = .next t ∧ t.vol.sram = s.vol.sram ∧ t.nv = s.nv
          ∧ (s.vol.whs.fline < 65535 → t.vol.whs.fline = s.vol.whs.fline + 1 ∧ t.vol.whs.fsum = sum ∧ t.vol.regs = s.vol.regs)
          ∧ (s.vol.whs.fline = 65535 → t.vol.whs.fline = 0 ∧ rg t.vol (ra pWhs 0x080) = ~~~sum
            ∧ (rb s.vol (aStat pWhs) 2 = true → rg s.vol (ra pWhs 0x084) ≠ ~~~sum → rb t.vol (aFault pWhs) 2 = true
              ∧ (rb s.vol (aEvEn pWhs) 3 = true → rb t.vol (aEvPend pWhs) 3 = true))
            ∧ (rb s.vol (aStat pWhs) 2 = false → s.vol.whs.bad = false → rg t.vol (ra pWhs 0x084) = ~~~sum
              ∧ rb t.vol (aStat pWhs) 2 = true))))

/-! ### DMA, Tally and the mailboxes -/

/-- GO starts an idle channel and leaves the run of one that is active; ABORT marks an active channel, which the end of the access
stops, and no other. A channel that the engine grants reads a sound descriptor: source, destination and length show in its
registers. A granted burst that is read and written whole moves its bytes on, and the remaining length follows; the last one of a
descriptor that is written back frees the channel for the next descriptor or, at LAST, stops it. A channel that is not granted stays as
it is. Rests on R290, R291, R292, R293; log 59. -/
def Obligations.DmaChannelRuns : Prop :=
  ∀ (s : State) (m : Fin 16) (e : Fin 2) (c : Fin 8),
    let v := s.vol
    let d := dmaOf v e c
    v.parked = [] →
    (pageOpen v m (pDma e) = true →
        ∃ v', exec (.dmaGo m e c) s = .next (performed s m (aDma e c 0x104 + 0x400) 1 v') ∧ dmaActive v' e c = true
          ∧ (dmaActive v e c = false → dmaOf v' e c = dmaIdle ∧ rg v' (aDma e c 0x108) = 0)
          ∧ (dmaActive v e c = true → v'.dma = v.dma) ∧ v'.sram = v.sram ∧ v'.cores = v.cores)
      ∧ (pageOpen v m (pDma e) = true →
        ∃ v', exec (.dmaAbort m e c) s = .next (performed s m (aDma e c 0x104 + 0x400) 4 v') ∧ dmaActive v' e c = dmaActive v e c
          ∧ rb v' (aDma e c 0x104) 2 = dmaActive v e c ∧ v'.dma = v.dma ∧ v'.sram = v.sram ∧ v'.cores = v.cores)
      ∧ (dmaGrant v e ≠ some c.val → exec (.dmaDescriptorRead e c) s = .next s
          ∧ (d.burst = false → exec (.dmaBurst e c) s = .next s))
      ∧ (dmaGrant v e = some c.val → d.live = false →
        ∀ v1 ws, beatsRead s.nv (9 + e) c .word false 8 (rg v (aDma e c 0x100)).toNat (setDma (dmaGranted v e c) e c dmaIdle)
            = (v1, ws, 0, false) → dBad ws = false →
        exec (.dmaDescriptorRead e c) s = .next (withVol s (rgSet (rgSet (rgSet
          (setDma v1 e c { dmaIdle with desc := ws, live := true })
          (aDma e c 0x10C) (ws.getD 0 0)) (aDma e c 0x110) (ws.getD 1 0)) (aDma e c 0x108) (BitVec.ofNat 32 (dLen ws)))))
      ∧ (dmaGrant v e = some c.val → d.live = true →
        let ctl := d.desc.getD 3 0
        let n := sizeBytes (dSize d.desc)
        let count := min (2 ^ fld ctl 7 5) ((dLen d.desc - d.moved) / n)
        let src := (rg v (aDma e c 0x10C)).toNat
        let dst := (rg v (aDma e c 0x110)).toNat
        let d0 : DmaCh := { d with burst := true, left := count, buf := [], rerr := 0, wait := none }
        let moved := d.moved + n * count
        ∀ v1 v2 ws,
          beatsRead s.nv (9 + e) c (dSize d.desc) (bit ctl 1) count src
            (setDma (dmaGranted (if 7 ≤ fld ctl 11 8 then nextFree v else v) e c) e c d0) = (v1, ws, 0, false) →
          beatsWrite s.nv (9 + e) c (dSize d.desc) (bit ctl 2) ws dst v1 = (v2, count, 0, false) →
          let v3 := setDma v2 e c { d0 with left := 0, moved := moved, burst := false }
          let v4 := if bit ctl 1 then v3 else rgSet v3 (aDma e c 0x10C) (BitVec.ofNat 32 (src + n * count))
          let v5 := if bit ctl 2 then v4 else rgSet v4 (aDma e c 0x110) (BitVec.ofNat 32 (dst + n * count))
          let v6 := rgSet v5 (aDma e c 0x108) (BitVec.ofNat 32 (dLen d.desc - moved))
          (moved ≠ dLen d.desc → exec (.dmaBurst e c) s = .next (withVol s v6))
            ∧ (moved = dLen d.desc → ∀ v7, beatsWrite s.nv (9 + e) c .word false
                [BitVec.ofNat 32 (2 ^ 31 + dLen d.desc), v6.tick.number.setWidth 32, 0] ((rg v6 (aDma e c 0x100)).toNat + 20) v6
                = (v7, 3, 0, false) →
              ∃ t, exec (.dmaBurst e c) s = .next t ∧ dmaOf t.vol e c = dmaIdle
                ∧ (bit ctl 15 = true → dmaActive t.vol e c = false)
                ∧ (bit ctl 15 = false → rg t.vol (aDma e c 0x100) = d.desc.getD 4 0)
                ∧ (bit ctl 14 = true → rb t.vol (ra (pDma e) 0x040) c = true)))

/-- A pending source is handed once: to a core it only counts as handed, with an entry of the trace where tracing is on; routed to
SAFE it brings SAFE in, from a mode with outputs, and is recorded as the cause when none is. A source that is not pending or has been
handed does nothing. TAL_SET sets the software latches of enabled sources, TAL_PEND clears both latches, and TAL_EN takes its word
but for the fixed and reserved sources, clearing the latches of those it disables. Rests on R297, R298, R299, R302, R304; log 52. -/
def Obligations.TallyRoutesAndLatches : Prop :=
  ∀ (s : State) (m : Fin 16) (i : Fin 16) (n : Fin 512) (w : Word),
    let v := s.vol
    (srcPending v n = false ∨ v.tally.handed.getLsbD n = true ∨ v.sys.mode = .cold → exec (.tallyLineRise n) s = .next s)
      ∧ (srcPending v n = true → v.tally.handed.getLsbD n = false → v.sys.mode ≠ .cold →
        rb v (ra (pTal + 2) (0x140 + 4 * (n.val / 32))) (n.val % 32) = false →
        (talRoute v n < 9 → rb v (ra (pTal + 3) 0x040) 0 = false →
          exec (.tallyLineRise n) s = .next (withVol s { v with tally := { v.tally with handed := v.tally.handed ||| srcBit n } }))
        ∧ (talRoute v n < 9 → rb v (ra (pTal + 3) 0x040) 0 = true → v.tally.stopped = false →
            v.tally.traceAt ≠ v.now ∨ v.tally.traced < 4 →
          let e := rf v (ra (pTal + 3) 0x044) 4 0
          ∃ t, exec (.tallyLineRise n) s = .next t ∧ t.vol.tally.handed = v.tally.handed ||| srcBit n
            ∧ rg t.vol (ra (pTal + 3) (0x080 + 8 * e)) = BitVec.ofNat 32 (2 ^ 31 + tickCyc v % 2 ^ 19 * 512 + n)
            ∧ rg t.vol (ra (pTal + 3) (0x084 + 8 * e)) = v.tick.number.setWidth 32
            ∧ rf t.vol (ra (pTal + 3) 0x044) 4 0 = (e + 1) % 32 ∧ t.vol.sram = v.sram ∧ t.vol.cores = v.cores)
        ∧ (talRoute v n = 9 → rb v (ra (pTal + 3) 0x040) 0 = false → safeAtOnce v.sys.mode = true →
          ∃ t, exec (.tallyLineRise n) s = .next t ∧ t.vol.sys.mode = .safe ∧ t.vol.sram = v.sram
            ∧ (rb v (ra pTal 0x084) 31 = false → rg t.vol (ra pTal 0x084) = BitVec.ofNat 32 (2 ^ 31 + n.val))
            ∧ ∀ k, k < 8 → k < v.cores.length → (coreOf t.vol k).safeHalt = true))
      ∧ (pageOpen v m (pTal + 2) = true →
        let en := ra (pTal + 2) (0x040 + 4 * i.val)
        let mask : Word := if i.val = 0 then 0xFFFFFFE6 else if i.val = 1 then 0xFFFFFF7F else if i.val = 11 then 0x00FFFFFF
          else if i.val = 12 then 0xFFFFFF00 else 0xFFFFFFFF
        (∃ v', exec (.talSet m i w) s = .next (performed s m (ra (pTal + 2) (0x100 + 4 * i.val)) w v')
            ∧ (∀ b, b < 512 → v'.tally.soft.getLsbD b
                = (v.tally.soft.getLsbD b || (decide (b / 32 = i.val) && bit w (b % 32) && talEn v b)))
            ∧ v'.tally.edge = v.tally.edge ∧ v'.regs = v.regs ∧ v'.sram = v.sram ∧ v'.cores = v.cores)
          ∧ (∃ v', exec (.talPend m i w) s = .next (performed s m (ra (pTal + 2) (0x080 + 4 * i.val)) w v')
            ∧ (∀ b, b < 512 → v'.tally.soft.getLsbD b = (v.tally.soft.getLsbD b && !(decide (b / 32 = i.val) && bit w (b % 32)))
              ∧ v'.tally.edge.getLsbD b = (v.tally.edge.getLsbD b && !(decide (b / 32 = i.val) && bit w (b % 32))))
            ∧ v'.regs = v.regs ∧ v'.sram = v.sram ∧ v'.cores = v.cores)
          ∧ ∃ v', exec (.talEn m i w) s = .next (performed s m en w v')
            ∧ rg v' en = (rg v en &&& ~~~mask) ||| (w &&& mask)
            ∧ (∀ b, b < 512 → b / 32 = i.val → rb v en (b % 32) = true → rb v' en (b % 32) = false →
              v'.tally.soft.getLsbD b = false ∧ v'.tally.edge.getLsbD b = false) ∧ v'.sram = v.sram ∧ v'.cores = v.cores)

/-- A message word waits in a mailbox that holds no message; a post that reaches its receiver sets its doorbell bits, the full flag
and the poster; a ring sets doorbell bits; a receiver whose domain is down waits for nothing, and with WAKE set its domain starts; in
its receiver's reset a post or ring leaves the mailbox empty, aborted; a message word or a post to a full mailbox sets OVERRUN and
changes no message; done empties the mailbox; a doorbell bit written as 1 clears. A post to the twin is queued for the link while
it is up. Rests on R305, R306, R307, R308, R309. -/
def Obligations.MailboxesPassMessages : Prop :=
  ∀ (s : State) (m : Fin 16) (b : Fin 24) (i : Fin 8) (w : Word),
    let v := s.vol
    let r (off : Nat) : Nat := aMbx b.val off
    let d := pageDom (recvPage (mbxRecv v b))
    let quiet (v' : Vol) : Prop := v'.sram = v.sram ∧ v'.cores = v.cores
    let sent (v' : Vol) : Prop :=
      v'.yok.mboxQ.length = v.yok.mboxQ.length + (if mbxCarries v b m then 1 else 0) ∧ (domUp v d = true → v'.sys = v.sys)
        ∧ (domUp v d = false → rb v (r 0x00) 4 = true → d ≠ 0 → d ∈ v'.sys.powering)
    pageOpen v m (pMbx + b.val / 12) = true →
    let lost := domUp v d && v.resetting.contains (recvPage (mbxRecv v b))
    (if mbxFull v b then
        ∃ v', exec (.mbxMsg m b i w) s = .next (performed s m (r (0x20 + 4 * i.val)) w v') ∧ rb v' (r 0x04) 29 = true
          ∧ rg v' (r (0x20 + 4 * i.val)) = rg v (r (0x20 + 4 * i.val)) ∧ quiet v'
      else
        ∃ v', exec (.mbxMsg m b i w) s = .next (performed s m (r (0x20 + 4 * i.val)) w v') ∧ rg v' (r (0x20 + 4 * i.val)) = w
          ∧ quiet v')
      ∧ (if lost then
        ∃ v', exec (.mbxPost m b w) s = .next (performed s m (r 0x08) w v') ∧ rg v' (r 0x10) = 0 ∧ mbxFull v' b = false
          ∧ rb v' (r 0x04) 30 = true ∧ quiet v'
        else if mbxFull v b then
        ∃ v', exec (.mbxPost m b w) s = .next (performed s m (r 0x08) w v') ∧ rb v' (r 0x04) 29 = true
          ∧ rg v' (r 0x10) = rg v (r 0x10) ∧ mbxFull v' b = true ∧ quiet v'
        else
        ∃ v', exec (.mbxPost m b w) s = .next (performed s m (r 0x08) w v') ∧ rg v' (r 0x10) = rg v (r 0x10) ||| w
          ∧ mbxFull v' b = true ∧ rf v' (r 0x04) 3 0 = m.val ∧ quiet v' ∧ sent v')
      ∧ (if lost then
        ∃ v', exec (.mbxRing m b w) s = .next (performed s m (r 0x0C) w v') ∧ rg v' (r 0x10) = 0 ∧ mbxFull v' b = false ∧ quiet v'
        else
        ∃ v', exec (.mbxRing m b w) s = .next (performed s m (r 0x0C) w v')
          ∧ rg v' (r 0x10) = rg v (r 0x10) ||| w ∧ mbxFull v' b = mbxFull v b ∧ quiet v' ∧ sent v')
      ∧ (bit w 0 = true → ∃ v', exec (.mbxDone m b w) s = .next (performed s m (r 0x18) w v') ∧ mbxFull v' b = false ∧ quiet v'
          ∧ v'.sys = v.sys)
      ∧ (bit w 0 = false → exec (.mbxDone m b w) s = .next (performed s m (r 0x18) w v))
      ∧ ∃ v', exec (.mbxDb m b w) s = .next (performed s m (r 0x10) w v') ∧ rg v' (r 0x10) = rg v (r 0x10) &&& ~~~w ∧ quiet v'
          ∧ v'.sys = v.sys

/-! ### Measurement, trips and outputs -/

/-- The end of a window gives every channel of a ready block a result while the tick generator runs: POISON with cause 1 (OFF) for
one that is off or of a block that is disabled, with cause 2 for the partner of an RTD3 channel, with cause 3 while its settings
settle; the burnout voltage is kept for the window; a factory record that fails its check sets FAULT.CAL and raises block event 8, one
that passes sets STAT.CALOK, and the block leaves its reset; an access of MEA_CRVDATA reaches the curve word at IDX and advances IDX
while AINC is 1; a wake conversion in BANKED latches the channels of CHMASK and no other. Where a command's condition does not hold it
changes nothing. Rests on R318, R324, R326, R328, R334, R337, R341, R343; log 14. -/
def Obligations.ConversionsDeliver : Prop :=
  ∀ (s : State) (m : Fin 16) (b : Fin 24) (inp : BlockInput),
    let v := s.vol
    let x := meaOf v b
    let win := if x.cap.isNone then meaOf (meaCapture v b) b else x
    let quiet (t : State) : Prop := t.nv = s.nv ∧ t.vol.sram = v.sram ∧ t.vol.cores = v.cores
    (ready v (pMea b) = true → v.tick.running = true →
        ∃ t res, exec (.meaConversion b inp) s = .next t ∧ (meaOf t.vol b).next = some res ∧ res.length = 8 ∧ quiet t
          ∧ ∀ i, i < 8 →
            let on := bit (capOf win (aChan b i 0x100)) 31 && fld (capOf win (aChan b i 0x100)) 3 0 != 0
            let is (k : Nat) : Prop := (res[i]?).map (fun r => (r.word, r.cause)) = some (TWord.poison, k)
            if rb v (aCtl (pMea b)) 0 = false then is 1
            else if isPartner win b i = true then is 2
            else if on = false then is 1
            else smapGet noErr win.settle i ≠ 0 → is 3)
      ∧ (ready v (pMea b) = false ∨ v.tick.running = false → exec (.meaConversion b inp) s = .next s)
      ∧ (∀ (i : Fin 8) (uv : Nat),
        let cfg := meaSetting v b (aChan b i 0x100)
        if ready v (pMea b) = true ∧ bit cfg 31 = true ∧ fld cfg 3 0 = 2 ∧ rb v (aCtl (pMea b)) 0 = true
            ∧ bit (meaSetting v b (aCtl (pMea b))) 2 = false then
          exec (.burnoutPulse b i uv) s = .next (withVol s (setMea v b { x with burn := smapSet noErr x.burn i uv }))
        else exec (.burnoutPulse b i uv) s = .next s)
      ∧ (noWaits v = true →
        if domUp v (pageDom (pMea b)) = true ∧ v.resetting.contains (pMea b) = true then
          ∃ t, exec (.meaFactoryRead b) s = .next t ∧ t.vol.resetting.contains (pMea b) = false
            ∧ rb t.vol (aStat (pMea b)) 1 = (meaOf t.vol b).calOk
            ∧ ((meaOf t.vol b).calOk = false → rb t.vol (aFault (pMea b)) 4 = true
              ∧ (rb v (aEvEn (pMea b)) 8 = true → rb t.vol (aEvPend (pMea b)) 8 = true)) ∧ quiet t
        else exec (.meaFactoryRead b) s = .next s)
      ∧ (pageOpen v m (pMea b) = true →
        (∀ w, exec (.meaCrvdata m b (some w)) s = .next (performed s m (ra (pMea b) 0x060) w
            (curveAdvance (setMea v b { x with curve := smapSet (fun _ => 0) x.curve (curveIdx v b) w }) b)))
          ∧ exec (.meaCrvdata m b none) s
            = .next (performedRead s m (ra (pMea b) 0x060) (smapGet (fun _ => 0) x.curve (curveIdx v b)) (curveAdvance v b))
          ∧ ∀ y : Vol, curveIdx (curveAdvance y b) b
            = if rb y (ra (pMea b) 0x05C) 31 then (curveIdx y b + 1) % 1024 else curveIdx y b)
      ∧ (if v.sys.mode = .banked ∧ ready v (pMea b) = true ∧ rb v (ra (pMea b) 0x064) 31 = true then
          let mask := rf v (ra (pMea b) 0x064) 23 16
          ∃ t res, exec (.meaWakeConversion b inp) s = .next t
            ∧ (meaOf (meaConvert (meaCapture v b) b mask inp) b).next = some res ∧ (meaOf t.vol b).next = none ∧ quiet t
            ∧ ∀ i, i < 8 → if mask.testBit i
                then (res[i]?).map (fun r => r.word.data) = some (rg t.vol (aChan b i 0x118))
                else rg t.vol (aChan b i 0x118) = rg v (aChan b i 0x118)
        else exec (.meaWakeConversion b inp) s = .next s)

/-- An enabled trip input that enters its trip state (a comparator's source beyond its threshold, an OTEMP level that has passed its
filter) shows in TRP_IN, latches its group, raises the group's event and holds off every output that the group masks; one that leaves
it, a comparator HYST back on the safe side, clears its TRP_IN bit and no latch; between the two a comparator shows what it did.
TRP_CLEAR releases the groups whose inputs have returned and sets CLRREF for the others; TRP_LOCK, unless its one write is used, fixes
the settings. Rests on R11, R24, R344, R345, R347, R350. -/
def Obligations.TripsLatchAndRelease : Prop :=
  ∀ (s : State) (m : Fin 16) (i : Fin 24) (g : Fin 16) (w : Word) (x : Int) (held : Nat),
    let v := s.vol
    let latch (y : Vol) (n : Nat) : Bool := rb y (ra pTrp 0x0A0) n
    let quiet (t : State) : Prop := t.nv = s.nv ∧ t.vol.sram = v.sram ∧ t.vol.cores = v.cores
    let c := tripCfg v i
    (domUp v 25 = true → tripEnabled v i = true → tripGroup v i = g.val → latch v g = false →
        (if i.val < 16 then cmpBeyond c x = true else tripFilter v (i.val - 16) ≤ held ∧ decide (0 < x) = bit c 1) →
        ∃ t, exec (.tripCrossing ⟨i, x, held⟩) s = .next t ∧ latch t.vol g = true ∧ rb t.vol (ra pTrp 0x0A8) i = true
          ∧ rb t.vol (ra pTrp (0x0C0 + 4 * g.val)) 31 = true
          ∧ (rb v (aEvEn pTrp) g = true → rb t.vol (aEvPend pTrp) g = true)
          ∧ (∀ o, o < 120 → (tripMask v g).getLsbD o = true → tripHeld t.vol o = true) ∧ quiet t)
      ∧ (domUp v 25 = true →
        (if i.val < 16 then tapLost v i = false ∧ cmpBack c x = true
          else tripFilter v (i.val - 16) ≤ held ∧ decide (0 < x) ≠ bit c 1) →
        ∃ t, exec (.tripInputReturn ⟨i, x, held⟩) s = .next t ∧ rb t.vol (ra pTrp 0x0A8) i = false
          ∧ (∀ n, n < 16 → latch v n = true → latch t.vol n = true) ∧ quiet t)
      ∧ (domUp v 25 = true →
        (if i.val < 16 then tapLost v i = false ∧ cmpBeyond c x = false ∧ cmpBack c x = false
          else held < tripFilter v (i.val - 16)) →
        ∃ t, exec (.tripInputReturn ⟨i, x, held⟩) s = .next t ∧ rb t.vol (ra pTrp 0x0A8) i = tripState v i ∧ quiet t)
      ∧ (pageOpen v m pTrp = true →
        exec (.trpClear m w) s = .next (performed s m (ra pTrp 0x0A4) w (tripClear v w))
          ∧ (bit w g = true → (∀ n, n < 24 → tripState v n = true → tripGroup v n ≠ g.val) → latch (tripClear v w) g = false)
          ∧ (bit w g = true → (∃ n, n < 24 ∧ tripState v n = true ∧ tripGroup v n = g.val) →
            latch (tripClear v w) g = latch v g ∧ rb (tripClear v w) (aFault pTrp) 0 = true)
          ∧ (bit w g = false → latch (tripClear v w) g = latch v g)
          ∧ ∃ v', exec (.trpLock m w) s = .next (performed s m (ra pTrp 0x0B0) w v')
              ∧ rb v' (ra pTrp 0x0B0) 0 = (if bit (smapGet (fun _ => 0) v.rwoUsed (ra pTrp 0x0B0)) 0 then rb v (ra pTrp 0x0B0) 0
                else bit w 0)
              ∧ v'.sram = v.sram ∧ v'.cores = v.cores)
      ∧ ∀ off via, rb v (ra pTrp 0x0B0) 0 = true → (0x040 ≤ off ∧ off < 0x0A0 ∨ 0x180 ≤ off ∧ off < 0x280) →
        rg (trpWrite v off via w) (ra pTrp off) = rg v (ra pTrp off)

/-- With CTL.TESTEN 1 a write of 1 to a TRP_TEST bit latches its group exactly as an input does, with cause 31 where no cause is
held; with TESTEN 0 it is ignored; EV_FORCE sets only the event bit, latches no group and holds no output. Rests on R349. -/
def Obligations.TripTestLatches : Prop :=
  ∀ (s : State) (m : Fin 16) (g : Fin 16) (w : Word),
    let v := s.vol
    let latch (y : Vol) (n : Nat) : Bool := rb y (ra pTrp 0x0A0) n
    pageOpen v m pTrp = true →
    (rb v (aCtl pTrp) 0 = true →
        exec (.trpTest m (bitWord g)) s = .next (performed s m (ra pTrp 0x0AC) (bitWord g) (tripLatch v g 31))
          ∧ latch (tripLatch v g 31) g = true
          ∧ (latch v g = false → rb v (ra pTrp (0x0C0 + 4 * g.val)) 31 = false →
            rg (tripLatch v g 31) (ra pTrp (0x0C0 + 4 * g.val)) = 0x8000001F)
          ∧ (∀ o, o < 120 → latch v g = false → (tripMask v g).getLsbD o = true → tripHeld (tripLatch v g 31) o = true)
          ∧ ∃ v', exec (.trpTest m w) s = .next (performed s m (ra pTrp 0x0AC) w v')
            ∧ ∀ n, n < 16 → latch v' n = (latch v n || bit w n))
      ∧ (rb v (aCtl pTrp) 0 = false → exec (.trpTest m w) s = .next (performed s m (ra pTrp 0x0AC) w v))
      ∧ ∃ v', exec (.registerWrite m .word (BitVec.ofNat 32 (ra pTrp 0x01C)) (TWord.ofWord w)) s
          = .next (performed s m (ra pTrp 0x01C) w v')
        ∧ (∀ n, n < 16 → latch v' n = latch v n) ∧ v'.outs = v.outs
        ∧ ∀ n, n < 16 → rb v' (aEvPend pTrp) n = (rb v (aEvPend pTrp) n || (bit w n && rb v (aEvEn pTrp) n))

/-- A staging register takes its word with the tag of a control core, RAW of any other master, at its own offset, and data bits
alone through its bit-set alias; only the pending copy changes. A register that spreads over channels gives each its bit. STK_ACC is
clamped to ACCMIN and ACCMAX; a write of STK_EXTBUD is noted for the next boundary. A peak ends in hold after PEAKT µs, a clamp in off after
CLAMPT times 10 µs; at a turning point of a free-running carrier, at its count, the settings in force come into use; a pin's edge moves its live level, counts in the flow counters
that select it and raises the pin events that do, unless the pin itself drives the other level. Rests on R1, R362, R377, R386, R388,
R389, R391, R393, R395. -/
def Obligations.OutputCommandsAct : Prop :=
  ∀ (s : State) (m : Fin 16) (w : Word),
    let v := s.vol
    let quiet (t : State) : Prop := t.nv = s.nv ∧ t.vol.sram = v.sram ∧ t.vol.cores = v.cores
    (∀ (a : Word) (x : TWord) (i : Nat), stageChan a.toNat = some i → pageOpen v m (pageNo a.toNat) = true →
        let tag : Tag := if m.val < 8 then x.tag else Tag.raw
        (stageWide a.toNat = 1 →
          exec (.stagingWrite m a x) s = .next (written s m a.toNat .word x 0 (setPend v i ⟨x.data, tag⟩))
            ∧ exec (.stagingWrite m (a + 0x400) x) s
              = .next (written s m (a.toNat + 0x400) .word x 0 (setPend v i ⟨(pendOf v i).data ||| x.data, (pendOf v i).tag⟩)))
          ∧ (stageWide a.toNat ≠ 1 → ∃ v', exec (.stagingWrite m a x) s = .next (written s m a.toNat .word x 0 v')
            ∧ v' = { v with outs := { v.outs with pend := v'.outs.pend } }
            ∧ ∀ j, pendOf v' j = if i ≤ j ∧ j < i + stageWide a.toNat then ⟨if bit x.data (j - i) then 1 else 0, tag⟩
              else pendOf v j))
      ∧ (pageOpen v m pStk = true → ∀ p : Fin 3,
        exec (.stkExtbud m p w) s = .next (performed s m (ra pStk (0x050 + 4 * p.val)) w
          { regWrite v pStk (0x050 + 4 * p.val) .direct w with outs := { v.outs with extWrote := true } }))
      ∧ (pageOpen v m (pStk + 1) = true → ∀ c : Fin 64,
        exec (.stkAcc m c w) s = .next (performed s m (aAcc c) w
          (rgSet v (aAcc c) (if w.toInt < -0x40000000 then 0xC0000000 else if 0x60000000 < w.toInt then 0x60000000 else w))))
      ∧ (∀ x : Fin 48,
          (if valvePhase v x = 1 then ∃ t, exec (.peakEnd x) s = .next t ∧ valvePhase t.vol x = 2
              ∧ t.vol.now = max v.now (smapGet noErr v.outs.vlvAt x + 400 * ff v (aVlv x 0x100) 31 16)
              ∧ (∀ y, y < 48 → y ≠ x.val → valvePhase t.vol y = valvePhase v y) ∧ quiet t
            else exec (.peakEnd x) s = .next s)
          ∧ (if valvePhase v x = 3 then ∃ t, exec (.clampEnd x) s = .next t ∧ valvePhase t.vol x = 0
              ∧ t.vol.now = max v.now (smapGet noErr v.outs.vlvAt x + 4000 * ff v (aVlv x 0x100) 7 0)
              ∧ (∀ y, y < 48 → y ≠ x.val → valvePhase t.vol y = valvePhase v y) ∧ quiet t
            else exec (.clampEnd x) s = .next s))
      ∧ (∀ (g : Fin 8) (top : Bool),
        if ready v (pMot g) = true ∧ bit (fg v (aMot g 0x040)) 26 = false ∧ (top && motEdge v g) = false then
          ∃ t, exec (.motTurningPoint g top) s = .next t ∧ quiet t ∧ t.vol.regs = v.regs
            ∧ (∀ off, off ∈ [0x040, 0x044, 0x048, 0x04C] → motSetting t.vol g off = fg v (aMot g off))
            ∧ t.vol.now = v.now + ((if top then motPer v g else 0) + motPeriod v g - motPhase v g) % motPeriod v g
            ∧ smapGet noErr t.vol.outs.motBase g = t.vol.now - (if top && !motEdge t.vol g then motPer t.vol g else 0)
            ∧ ∀ u, u < 3 → smapGet noErr t.vol.outs.motCmp (3 * g.val + u)
              = motCompare v g u (motPer t.vol g) (fld (motSetting t.vol g 0x04C) 9 0) (motEdge t.vol g)
        else exec (.motTurningPoint g top) s = .next s)
      ∧ ∀ (n : Fin 64) (level : Bool),
        let hit (e : Bool × Nat × Nat) : Bool := e.1 && e.2.2 == n && edgeMatches e.2.1 level
        (ready v pGio = true → v.outs.live.getLsbD n ≠ level →
            (∀ b, pinPad v n = some b → xor b (rb v (aPin n) 0) = level) →
          ∃ t, exec (.gioInputEdge n level) s = .next t ∧ quiet t
            ∧ (∀ j, j < 64 → t.vol.outs.live.getLsbD j = if j = n.val then level else v.outs.live.getLsbD j)
            ∧ (∀ k, k < 48 → smapGet (fun _ => 0) t.vol.outs.flow k = smapGet (fun _ => 0) v.outs.flow k
              + (if hit (flowSel v k) then 1 else 0))
            ∧ ∀ e, e < 14 → hit (pinEntry (rg v (ra pGio (0x380 + 4 * (e / 3)))) (e % 3)) = true → rb v (aEvEn pGio) e = true →
              rb t.vol (aEvPend pGio) e = true)
        ∧ (∀ b, pinPad v n = some b → xor b (rb v (aPin n) 0) ≠ level → exec (.gioInputEdge n level) s = .next s)

/-- Stoker's decision for a locked phase is made LEAD before the predicted crossing and admits no more than the phase limit and the
budget in force, and no channel that a trip holds; each channel that it grants has its firing planned for the half-cycle. For an
unlocked phase it decides nothing and reports that once. A granted channel fires at its instant; an output ends that is a pulse, a
phase angle or not granted again. STK_HOLDMAX and STK_EXTTMO end the demands and the budget. A crossing of an enabled phase is dated
at the compensated edge; a full cycle gives MNS_PER. A locked phase without a crossing by its deadline is unlocked then, none of its
grants fires, the phase's fault bit sets and event 3 + p occurs. Where a command's condition does not hold it changes nothing. Rests
on R366, R367, R368, R372, R375, R376, R377, R379; log 55, 112. -/
def Obligations.StokerAndMainsAct : Prop :=
  (∀ (s : State) (p : Fin 3) (c : Fin 64),
    let v := s.vol
    let limit := min (ff v (ra pStk (0x040 + 4 * p.val)) 15 0)
      (if v.outs.extSub then rf v (ra pStk (0x060 + 4 * p.val)) 15 0 else ff v (ra pStk (0x050 + 4 * p.val)) 15 0)
    let granted (y : Vol) : Bool := rb y (aStk1 (0x340 + 4 * (c.val / 32))) (c.val % 32)
    (stkRunning v = true → phaseLocked v p = true →
        ∃ t, exec (.stokerDecision p) s = .next t ∧ t.nv = s.nv ∧ t.vol.sram = v.sram ∧ t.vol.cores = v.cores
          ∧ t.vol.now = max v.now (nextCrossing v p - 400 * ff v (ra pStk 0x0B0) 15 0)
          ∧ rf t.vol (ra pStk (0x090 + 4 * p.val)) 15 0 ≤ limit ∧ t.vol.outs.fireOn = v.outs.fireOn
          ∧ (firePhase v c = p.val → tripHeld v c = true → granted t.vol = false ∧ t.vol.outs.armed.getLsbD c = false)
          ∧ (firePhase v c = p.val → granted t.vol = true →
            t.vol.outs.armed.getLsbD c = true ∧ (dueOf t.vol c).getLast? = some (firePlan v c (nextCrossing v p)))
          ∧ (firePhase v c ≠ p.val → rg t.vol (aAcc c) = rg v (aAcc c) ∧ t.vol.outs.armed.getLsbD c = v.outs.armed.getLsbD c))
      ∧ (stkRunning v = true → phaseLocked v p = false → v.outs.missed.getLsbD p = false →
        exec (.stokerDecision p) s = .next (withVol s (raiseEvent
          { v with outs := { v.outs with missed := v.outs.missed ||| BitVec.ofNat 3 (2 ^ p.val) } } pStk (5 + p))))
      ∧ (stkRunning v = true → phaseLocked v p = false → v.outs.missed.getLsbD p = true → exec (.stokerDecision p) s = .next s)
      ∧ (match dueOf v c with
        | d :: rest =>
          stkRunning v = true → phaseLocked v (firePhase v c) = true → tripHeld v c = false →
            ∃ t, exec (.stokerFire c) s = .next t ∧ t.vol.regs = v.regs ∧ t.vol.sram = v.sram ∧ t.vol.cores = v.cores
              ∧ t.vol.now = max v.now d.1 ∧ dueOf t.vol c = rest
              ∧ ∀ j, j < 64 → t.vol.outs.fireOn.getLsbD j = (v.outs.fireOn.getLsbD j || decide (j = c.val))
        | [] => exec (.stokerFire c) s = .next s)
      ∧ (stkRunning v = false ∨ phaseLocked v (firePhase v c) = false ∨ tripHeld v c = true → exec (.stokerFire c) s = .next s)
      ∧ (if firePulse v c = true ∨ fireMode v c = 2 ∨ v.outs.armed.getLsbD c = false then
          ∃ t, exec (.stokerFireEnd c) s = .next t ∧ t.vol.regs = v.regs ∧ t.vol.sram = v.sram ∧ t.vol.cores = v.cores
            ∧ t.vol.now = max v.now ((smapFind v.outs.offAt c).getD 0)
            ∧ ∀ j, j < 64 → t.vol.outs.fireOn.getLsbD j = (v.outs.fireOn.getLsbD j && decide (j ≠ c.val))
        else exec (.stokerFireEnd c) s = .next s)
      ∧ (if stkRunning v = true ∧ v.outs.holdSub = false ∧ ff v (ra pStk 0x0B4) 6 0 ≤ rf v (ra pStk 0x0B8) 6 0 then
          exec .stokerHoldExpiry s
            = .next (withVol s (raiseEvent (setFault { v with outs := { v.outs with holdSub := true } } pStk 2) pStk 4))
        else exec .stokerHoldExpiry s = .next s)
      ∧ (if rf v (ra pStk 0x05C) 15 0 ≠ 0 ∧ rf v (ra pStk 0x05C) 15 0 ≤ v.outs.extCnt ∧ v.outs.extSub = false then
          exec .budgetTimeout s
            = .next (withVol s (raiseEvent (setFault { v with outs := { v.outs with extSub := true } } pStk 1) pStk 3))
        else exec .budgetTimeout s = .next s))
    ∧ (∀ (s : State) (p : Fin 3) (rising : Bool),
    let v := s.vol
    let at' := (v.now - mnsLag v p : Int).toNat
    let quiet (t : State) : Prop := t.nv = s.nv ∧ t.vol.sram = v.sram ∧ t.vol.cores = v.cores
    (ready v pMns = true → rb v (ra pMns 0x040) p = true → p.val < v.outs.phases.length →
        ∃ t, exec (.zeroCrossing p rising) s = .next t ∧ (phaseOf t.vol p).last = some at' ∧ quiet t
          ∧ (rising = true → (phaseOf t.vol p).rise = some at' ∧ ∀ r, (phaseOf v p).rise = some r →
            rg t.vol (mnsReg 0x050 p) = BitVec.ofNat 32 (max 1 (at' - r) % 2 ^ 24))
          ∧ (rising = false → (phaseOf t.vol p).fall = some at' ∧ (phaseOf t.vol p).rise = (phaseOf v p).rise
            ∧ rg t.vol (mnsReg 0x050 p) = rg v (mnsReg 0x050 p))
          ∧ bit (rg t.vol (mnsReg 0x05C p)) 31 = !rising)
      ∧ (ready v pMns = false ∨ rb v (ra pMns 0x040) p = false → exec (.zeroCrossing p rising) s = .next s)
      ∧ (if phaseLocked v p = true then
          ∃ t, exec (.phaseLost p) s = .next t ∧ phaseLocked t.vol p = false ∧ rb t.vol (aFault pMns) p = true ∧ quiet t
            ∧ t.vol.now = max v.now (lossDeadline v p)
            ∧ (rb v (aEvEn pMns) (3 + p) = true → rb t.vol (aEvPend pMns) (3 + p) = true)
            ∧ ∀ c, c < 64 → firePhase v c = p.val → t.vol.outs.armed.getLsbD c = false ∧ dueOf t.vol c = []
        else exec (.phaseLost p) s = .next s))

/-! ### Clocks, resets, power and modes -/

/-- The crystal reports ready once its start-up delay and a window of monitor 0 have passed, a PLL locked; enabling a PLL only stores its settings, disabling one that a tree uses is
refused with STAT.REFUSED, disabling another ends its lock. A monitor window shows its count; one off by more than the tolerance, and
a PLL that coasts, set their fault bit and raise source 0, and for PLL_SYS or its reference the trees run from the RC. CLK_SEL takes
only PLLs that have locked, CLK_DIV only a set that leaves DROP its minimum. A report that does not apply changes nothing. Rests on
R533, R534, R536, R537, R538, R539, R540; log 36. -/
def Obligations.ClocksAct : Prop :=
  ∀ (s : State) (m : Fin 16) (j : Fin 2) (i : Fin 4) (w : Word) (n : BitVec 12),
    let v := s.vol
    let cfg := ra pClk (0x048 + 4 * j.val)
    let st := ra pClk (0x050 + 4 * j.val)
    let quiet (t : State) : Prop := t.nv = s.nv ∧ t.vol.sram = v.sram ∧ t.vol.cores = v.cores
    let off := if n.toNat < monExpect i then monExpect i - n.toNat else n.toNat - monExpect i
    let xt := rb v (aStat pClk) 1
    let runs := domUp v 23 && (i.val == 0 || (xt && (i.val == 3 || rb v (ra pClk (0x044 + 4 * i.val)) 0)))
    let locks := rb v cfg 0 && (domUp v (40 + j) || v.sys.wait == .plls) && xt && !rb v st 1
    (v.sys.xtalOn = true → v.sys.xtalSeen = true → v.sys.wait ≠ .crystal →
        exec .crystalReady s = .next (withVol s (rgOr (wallTo v (v.sys.xtalAt + xtalDelay v)) (aStat pClk) 2)))
      ∧ (v.sys.xtalOn = true → v.sys.xtalSeen = true → v.sys.wait = .crystal →
        ∃ t, exec .crystalReady s = .next t ∧ t.vol.now = (wallTo v (v.sys.xtalAt + xtalDelay v)).now ∧ rb t.vol (aStat pClk) 1 = true ∧ t.vol.sys.wait = .plls
          ∧ rb t.vol (ra pClk 0x048) 0 = true ∧ rb t.vol (ra pClk 0x04C) 0 = true ∧ quiet t)
      ∧ (v.sys.xtalOn = false ∨ v.sys.xtalSeen = false → exec .crystalReady s = .next s)
      ∧ (locks = true → v.sys.wait ≠ .plls ∨ rb v (ra pClk (0x054 - 4 * j.val)) 0 = false →
        exec (.pllLock j) s = .next (withVol s (rgOr v st 1)))
      ∧ (locks = true → v.sys.wait = .plls → rb v (ra pClk (0x054 - 4 * j.val)) 0 = true →
        ∃ t, exec (.pllLock j) s = .next t ∧ rg t.vol (ra pClk 0x040) = 3 ∧ rb t.vol (aStat pClk) 4 = false
          ∧ t.vol.sys.wait = .boot ∧ t.nv = s.nv)
      ∧ (locks = false → exec (.pllLock j) s = .next s)
      ∧ (pageOpen v m pClk = true →
        (rb v cfg 0 = false ∨ bit w 0 = true →
            exec (.pllCfg m j w) s = .next (performed s m cfg w (regWrite v pClk (0x048 + 4 * j.val) .direct w)))
          ∧ (rb v cfg 0 = true → bit w 0 = false → rb v (ra pClk 0x040) j = true →
            exec (.pllCfg m j w) s = .next (performed s m cfg w (rgOr v (aStat pClk) 32)))
          ∧ (rb v cfg 0 = true → bit w 0 = false → rb v (ra pClk 0x040) j = false →
            exec (.pllCfg m j w) s = .next (performed s m cfg w (rgClr (regWrite v pClk (0x048 + 4 * j.val) .direct w) st 3)))
          ∧ ((bit w 0 = true → rb v (ra pClk 0x050) 0 = true) → (bit w 1 = true → rb v (ra pClk 0x054) 0 = true) →
            ∃ v', exec (.clkSel m w) s = .next (performed s m (ra pClk 0x040) w v') ∧ rf v' (ra pClk 0x040) 1 0 = fld w 1 0
              ∧ (rb v (ra pClk 0x040) 0 = false → bit w 0 = true → rb v' (aStat pClk) 4 = false)
              ∧ v'.sram = v.sram ∧ v'.cores = v.cores)
          ∧ (bit w 0 = true ∧ rb v (ra pClk 0x050) 0 = false ∨ bit w 1 = true ∧ rb v (ra pClk 0x054) 0 = false →
            exec (.clkSel m w) s = .next (performed s m (ra pClk 0x040) w (raiseEvent (rgOr v (aStat pClk) 32) pClk 2)))
          ∧ (let v1 := regWrite v pClk 0x044 .direct w
            (dropMinOf v (ta v) (rg v1 (ra pClk 0x044)) ≤ taf v 0x048 13 0 →
                exec (.clkDiv m w) s = .next (performed s m (ra pClk 0x044) w v1))
              ∧ (taf v 0x048 13 0 < dropMinOf v (ta v) (rg v1 (ra pClk 0x044)) →
                ∃ v', exec (.clkDiv m w) s = .next (performed s m (ra pClk 0x044) w v')
                  ∧ rg v' (ra pClk 0x044) = rg v (ra pClk 0x044) ∧ rb v' (aStat pClk) 5 = true
                  ∧ (rb v (aEvEn pClk) 2 = true → rb v' (aEvPend pClk) 2 = true) ∧ v'.sram = v.sram ∧ v'.cores = v.cores)))
      ∧ (runs = true → off ≤ rf v (ra pClk 0x058) 7 0 ∨ i.val = 0 ∧ xt = false →
        exec (.monitorWindow i n) s = .next (withVol s (rgSet
          (if i.val = 0 ∧ off ≤ rf v (ra pClk 0x058) 7 0 ∧ v.sys.xtalOn = true then setSysP v fun x => { x with xtalSeen := true } else v)
          (ra pClk (0x060 + 4 * i.val)) (n.setWidth 32))))
      ∧ (runs = true → rf v (ra pClk 0x058) 7 0 < off → xt = true →
        ∃ t, exec (.monitorWindow i n) s = .next t ∧ rg t.vol (ra pClk (0x060 + 4 * i.val)) = n.setWidth 32
          ∧ rb t.vol (aFault pClk) i = true ∧ (i.val < 2 → rb t.vol (aStat pClk) 4 = true)
          ∧ (rb v (aEvEn pClk) 0 = true → rb t.vol (aEvPend pClk) 0 = true) ∧ quiet t)
      ∧ (runs = false → exec (.monitorWindow i n) s = .next s)
      ∧ (if rb v st 0 = true ∧ rb v st 1 = false then
          ∃ t, exec (.pllCoast j) s = .next t ∧ rb t.vol st 1 = true ∧ rb t.vol (aFault pClk) (1 + j) = true
            ∧ (j = 0 → rb t.vol (aStat pClk) 4 = true) ∧ (rb v (aEvEn pClk) 1 = true → rb t.vol (aEvPend pClk) 1 = true)
            ∧ (rb v (aEvEn pClk) 0 = true → rb t.vol (aEvPend pClk) 0 = true) ∧ quiet t
        else exec (.pllCoast j) s = .next s)

/-- A whole-part reset wipes SRAM, resets every core and the tick, leaves the part in its reset sequence and names its cause
alone in RST_CAUSE; what outlasts power stays. In COLD only a power-on reset is one; a watchdog that has not expired and another word
in RST_SOFT reset nothing. Rests on R19, R543, R544, R547, R553. -/
def Obligations.WholeResetsAct : Prop :=
  ∀ (s : State) (m : Fin 16) (strap : BitVec 2) (vbatLost prime : Bool) (w : Word),
    let v := s.vol
    let done (v' : Vol) (cause : Nat) : Prop := rg v' (ra pRst 0x040) = bitWord cause ∧ v'.sys.mode = .reset ∧ v'.sram = []
      ∧ v'.cores = List.replicate 9 Core.reset ∧ v'.tick = Tick.reset ∧ v'.parked = [] ∧ v'.sys.wdRunning = false
    (∃ t, exec (.powerOnReset strap vbatLost prime) s = .next t ∧ done t.vol 0 ∧ t.nv = s.nv ∧ t.vol.yok.prime = prime
        ∧ rg t.vol (ra pClk 0x088) = strap.setWidth 32 ∧ rb t.vol (aStat pClk) 1 = false
        ∧ t.vol.sys.rtcSec = (if vbatLost then 0 else v.sys.rtcSec))
      ∧ (v.sys.mode ≠ .cold → ∃ t, exec (.brownOut strap) s = .next t ∧ done t.vol 1 ∧ t.nv = s.nv
        ∧ rg t.vol (ra pClk 0x088) = strap.setWidth 32 ∧ t.vol.sys.rtcSec = v.sys.rtcSec)
      ∧ (v.sys.mode ≠ .cold → ∃ t, exec .pinReset s = .next t ∧ done t.vol 2 ∧ t.nv = s.nv ∧ t.vol.sys.rtcSec = v.sys.rtcSec)
      ∧ (v.sys.mode = .cold → exec (.brownOut strap) s = .next s ∧ exec .pinReset s = .next s)
      ∧ (v.sys.wdExpired = true → ∃ t, exec .watchdogReset s = .next t ∧ done t.vol 3 ∧ t.nv = s.nv
        ∧ t.vol.now = (wallTo v (wall v + 40000)).now)
      ∧ (v.sys.wdExpired = false → exec .watchdogReset s = .next s)
      ∧ (pageOpen v m pRst = true →
        (∃ v', exec (.rstSoft m 0xA5C3) s = .next (performed s m (ra pRst 0x044) 0xA5C3 v') ∧ done v' 4)
          ∧ (w ≠ 0xA5C3 → exec (.rstSoft m w) s = .next (performed s m (ra pRst 0x044) w v)))
      ∧ ∃ t, exec .coreSupplyLoss s = .next t ∧ t.vol.sys.mode = .cold ∧ t.vol.sram = [] ∧ t.vol.sys.rtcSec = v.sys.rtcSec
        ∧ rg t.vol (ra pRst 0x040) = 0 ∧ t.nv = s.nv

/-- RST_DOM resets the domains that are up with their blocks, but for Locksmith's and the trip matrix's, which it refuses; the end of
the reset is recorded and raises event 2. The watchdog starts with a period, once; a kick restarts it, a wrong word sets
FAULT.BADKICK; it warns when a quarter is left and expires at the end, and its time stands in BANKED. A command whose condition does
not hold changes nothing. Rests on R350, R545, R547; log 80. -/
def Obligations.DomainResetAndWatchdog : Prop :=
  ∀ (s : State) (m : Fin 16) (i : Fin 3) (b : Fin 32) (d : Fin 97) (w : Word),
    let v := s.vol
    let dom := 32 * i.val + b.val + 1
    let rs := ra pRst (0x048 + 4 * i.val)
    (pageOpen v m pRst = true →
        (∃ v', exec (.rstDom m i w) s = .next (performed s m rs w v')
            ∧ (bit w b = true → dom ≠ 22 → dom ≠ 25 → domUp v dom = true →
              v'.sys.domReset.contains dom = true ∧ ∀ p, p ∈ domBlocks dom → v'.resetting.contains p = true))
          ∧ (dom = 22 ∨ dom = 25 → exec (.rstDom m i (bitWord b)) s = .next (performed s m rs (bitWord b) (setFault v pRst 1)))
          ∧ (bit w 31 = true → fld w 15 0 ≠ 0 → smapGet (fun _ => 0) v.rwoUsed (ra pRst 0x054) = 0 → rb v (ra pRst 0x054) 31 = false →
            v.sys.wdRunning = false →
            ∃ v', exec (.rstWdcfg m w) s = .next (performed s m (ra pRst 0x054) w v') ∧ v'.sys.wdRunning = true
              ∧ v'.sys.wdAt = wdNow v ∧ v'.sys.wdExpired = false ∧ wdPeriod v' = fld w 15 0 ∧ v'.sram = v.sram ∧ v'.cores = v.cores)
          ∧ (v.sys.wdRunning = true → v.sys.wdExpired = false →
            exec (.rstWdkick m 0xC35A) s = .next (performed s m (ra pRst 0x058) 0xC35A (setSysP v fun x => { x with wdAt := wdNow v })))
          ∧ (v.sys.wdRunning = false ∨ v.sys.wdExpired = true →
            exec (.rstWdkick m 0xC35A) s = .next (performed s m (ra pRst 0x058) 0xC35A v))
          ∧ (w ≠ 0xC35A → exec (.rstWdkick m w) s = .next (performed s m (ra pRst 0x058) w (setFault v pRst 0))))
      ∧ (if v.sys.domReset.contains d.val = true ∧ ∀ p, p ∈ domBlocks d → v.resetting.contains p = false then
          ∃ t, exec (.domainResetDone d) s = .next t ∧ t.vol.sys.domReset.contains d.val = false ∧ t.nv = s.nv
            ∧ (rb v (ra pRst 0x060) 31 = false → rg t.vol (ra pRst 0x060) = BitVec.ofNat 32 (2 ^ 31 + d.val))
            ∧ (rb v (aEvEn pRst) 2 = true → rb t.vol (aEvPend pRst) 2 = true) ∧ t.vol.sram = v.sram ∧ t.vol.cores = v.cores
        else exec (.domainResetDone d) s = .next s)
      ∧ (if v.sys.wdRunning = true ∧ v.sys.wdExpired = false ∧ v.sys.mode ≠ .banked then
          exec .watchdogWarning s
              = .next (withVol s (raiseEvent (wallTo v (v.sys.wdAt + wdPeriod v * 300000)) pRst 0))
            ∧ ∃ t, exec .watchdogExpiry s = .next t ∧ t.vol.sys.wdExpired = true
              ∧ t.vol.now = (wallTo v (v.sys.wdAt + wdPeriod v * 400000)).now ∧ t.vol.sram = v.sram ∧ t.vol.cores = v.cores
              ∧ (rb v (aEvEn pRst) 1 = true → rb t.vol (aEvPend pRst) 1 = true)
        else exec .watchdogWarning s = .next s ∧ exec .watchdogExpiry s = .next s)

/-- Setting a PWR_ON bit starts the domain's power-up, power-good brings the domain up, its absence sets PWR_FAIL and raises
event 1; clearing the bit takes an idle domain down, waits for the transaction of a busy one and withdraws a power-up, and a refused
power-down changes no domain and sets FAULT.DOWNREF. The supply, VBAT and die temperature measurements show in their registers and
report what crosses its limit. A second passes on the RTC. Rests on R550, R551, R560, R561, R564, R565; log 58. -/
def Obligations.PowerDomainsAct : Prop :=
  ∀ (s : State) (m : Fin 16) (d : Fin 97) (low : BitVec 3) (mv : BitVec 12) (temp : Word),
    let v := s.vol
    let on (y : Vol) : Bool := pwrBit y 0x040 d
    let a := ra pPwr (0x040 + 4 * ((d.val - 1) / 32))
    let x := bitWord ((d.val - 1) % 32)
    let quiet (t : State) : Prop := t.nv = s.nv ∧ t.vol.sram = v.sram ∧ t.vol.cores = v.cores
    (d ≠ 0 → pageOpen v m pPwr = true →
        (on v = false → domOn v d = false → v.sys.powering.contains d.val = false →
            ∃ v', exec (.domainPowerUp m d) s = .next (performed s m (a + 0x400) x v') ∧ on v' = true
              ∧ v'.sys.powering.contains d.val = true ∧ domUp v' d = false ∧ v'.sram = v.sram ∧ v'.cores = v.cores)
          ∧ (on v = true → ∃ v', exec (.domainPowerUp m d) s = .next (performed s m (a + 0x400) x v') ∧ v'.sys = v.sys
              ∧ on v' = true ∧ v'.sram = v.sram ∧ v'.cores = v.cores)
          ∧ (on v = true → downRefusal v d = 0 → domOn v d = true → v.sys.powering.contains d.val = false →
            ∃ v', exec (.domainPowerDown m d) s = .next (performed s m (a + 0x800) x v') ∧ on v' = false
              ∧ (domBusy v d = false → domUp v' d = false)
              ∧ (domBusy v d = true → domUp v' d = domUp v d ∧ v'.sys.downHeld.contains d.val = true ∧ v'.cores = v.cores))
          ∧ (on v = true → downRefusal v d = 0 → v.sys.powering.contains d.val = true →
            ∃ v', exec (.domainPowerDown m d) s = .next (performed s m (a + 0x800) x v') ∧ on v' = false
              ∧ v'.sys.powering.contains d.val = false ∧ v'.sram = v.sram ∧ v'.cores = v.cores)
          ∧ (on v = true → downRefusal v d ≠ 0 →
            ∃ v', exec (.domainPowerDown m d) s = .next (performed s m (a + 0x800) x v') ∧ on v' = true
              ∧ (∀ e, domUp v' e = domUp v e) ∧ rb v' (aFault pPwr) 1 = true ∧ v'.sram = v.sram ∧ v'.cores = v.cores))
      ∧ (d = 0 → exec (.domainPowerUp m d) s = .next s ∧ exec (.domainPowerDown m d) s = .next s)
      ∧ (d ≠ 0 → v.sys.powering.contains d.val = true → noWaits v = true →
        ∃ t, exec (.powerGood d) s = .next t ∧ domOn t.vol d = true ∧ t.vol.sys.powering.contains d.val = false ∧ t.nv = s.nv
          ∧ t.vol.now = v.now + 64 ∧ domUp t.vol d = !hasSram d
          ∧ (hasSram d = true → smapGet (fun _ => 0) t.vol.sys.wipes d = t.vol.now + wipeCycles d))
      ∧ (d ≠ 0 → v.sys.powering.contains d.val = true → noWaits v = true → (∀ c, c < 16 → (dmaOf v (c / 8) (c % 8)).wait = none) →
        ∃ t, exec (.powerGoodTimeout d) s = .next t ∧ on t.vol = false ∧ t.vol.sys.powering.contains d.val = false
          ∧ pwrBit t.vol 0x064 d = true ∧ rb t.vol (aFault pPwr) 0 = true
          ∧ (rb v (aEvEn pPwr) 1 = true → rb t.vol (aEvPend pPwr) 1 = true) ∧ t.nv = s.nv ∧ t.vol.sram = v.sram)
      ∧ (v.sys.powering.contains d.val = false → exec (.powerGoodTimeout d) s = .next s)
      ∧ (∃ t, exec (.supplyWarning low) s = .next t ∧ rf t.vol (ra pPwr 0x080) 2 0 = low.toNat ∧ quiet t
        ∧ (∀ k, k < 3 → low.getLsbD k = true → rb v (ra pPwr 0x080) k = false → rb v (aEvEn pPwr) 0 = true →
          rb t.vol (aEvPend pPwr) 0 = true))
      ∧ (∃ t, exec (.vbatMeasure mv) s = .next t ∧ rg t.vol (ra pPwr 0x084) = mv.setWidth 32 ∧ quiet t
        ∧ rb t.vol (ra pPwr 0x080) 3 = decide (mv.toNat < 2200)
        ∧ (mv.toNat < 2200 → rb v (ra pPwr 0x080) 3 = false → rb v (aEvEn pPwr) 2 = true → rb t.vol (aEvPend pPwr) 2 = true))
      ∧ (ready v pSys = true → ∃ t, exec (.sysTempUpdate temp) s = .next t ∧ rg t.vol (ra pSys 0x054) = temp ∧ quiet t
        ∧ (temp.toInt ≤ (rg v (ra pSys 0x058)).toInt - 5000 → t.vol.sys.tempArmed = true)
        ∧ ((rg v (ra pSys 0x058)).toInt < temp.toInt → v.sys.tempArmed = true →
          t.vol.sys.tempArmed = false ∧ (rb v (aEvEn pSys) 2 = true → rb t.vol (aEvPend pSys) 2 = true)))
      ∧ (ready v pSys = false → exec (.sysTempUpdate temp) s = .next s)
      ∧ exec .rtcSecond s = .next (withVol s (setSysP v fun y => { y with rtcSec := v.sys.rtcSec + 1, rtcAt := wall v }))

/-- A mode request that nothing refuses waits for the next boundary, or takes effect at once while no boundary comes; a refused
one changes no mode, puts its reason into SYS_MODEREF and raises event 1. SAFE is entered at once: the control cores halt and
every firing output is off; in BANKED it follows the exit. The end of Locksmith's boot leaves the part in SERVICE or SAFE; with an
unprogrammed part the service core runs; a torn fuse burn resets the part again. Rests on R211, R486, R490, R493, R544, R553, R554,
R555; log 43, 45, 46, 48. -/
def Obligations.ModeRequestsAct : Prop :=
  ∀ (s : State) (m : Fin 16) (c : Instr) (code : Nat) (to' : Mode),
    let v := s.vol
    let a := ra pSys 0x044
    let w : Word := BitVec.ofNat 32 code
    ((c, code, to') ∈ [(Instr.modeReqRun m, 4, Mode.run), (.modeReqWarm m, 3, .warm), (.modeReqService m, 6, .service),
        (.modeReqBanked m, 2, .banked)] → pageOpen v m pSys = true →
        (modeRefusal v code = 0 → v.sys.mode ≠ to' → v.tick.running = true →
            ∃ v', exec c s = .next (performed s m a w v') ∧ v'.sys.target = some to' ∧ v'.sys.mode = v.sys.mode
              ∧ v'.sram = v.sram ∧ v'.cores = v.cores)
          ∧ (modeRefusal v code = 0 → (v.sys.mode = to' ∨ v.tick.running = false) →
            ∃ v', exec c s = .next (performed s m a w v') ∧ v'.sys.target = none ∧ v'.sys.mode = to')
          ∧ (modeRefusal v code ≠ 0 →
            ∃ v', exec c s = .next (performed s m a w v') ∧ v'.sys = v.sys ∧ rg v' (ra pSys 0x048) = BitVec.ofNat 32 (modeRefusal v code)
              ∧ (rb v (aEvEn pSys) 1 = true → rb v' (aEvPend pSys) 1 = true) ∧ v'.sram = v.sram ∧ v'.cores = v.cores))
      ∧ (pageOpen v m pSys = true → safeAtOnce v.sys.mode = true →
        ∃ v', exec (.modeReqSafe m) s = .next (performed s m a 7 v') ∧ v'.sys.mode = .safe ∧ v'.sys.target = none
          ∧ (∀ k, k < 8 → k < v.cores.length → (coreOf v' k).safeHalt = true) ∧ v'.outs.fireOn = 0 ∧ v'.sram = v.sram)
      ∧ (pageOpen v m pSys = true → v.sys.mode = .safe →
        ∃ v', exec (.modeReqSafe m) s = .next (performed s m a 7 v') ∧ v'.sys.mode = .safe ∧ v'.sys.target = none
          ∧ v'.sram = v.sram ∧ v'.cores = v.cores)
      ∧ (pageOpen v m pSys = true → v.sys.mode = .banked →
        ∃ v', exec (.modeReqSafe m) s = .next (performed s m a 7 v') ∧ v'.sys.mode = .banked ∧ v'.sys.bankExit = true
          ∧ v'.sys.safeAfter = true ∧ v'.sram = v.sram ∧ v'.cores = v.cores)
      ∧ (v.sys.wait = .boot → (∀ f, f < 4 → fuseOnes s.nv f = 0 ∨ 192 ≤ fuseOnes s.nv f) →
        ∃ t, exec .locksmithBootComplete s = .next t ∧ t.vol.sys.wait = .idle ∧ t.vol.sys.target = none
          ∧ (t.vol.sys.mode = .service ∨ t.vol.sys.mode = .safe)
          ∧ (lifeCycle s.nv = 0 → v.cores.length = 9 → t.nv = s.nv ∧ (coreOf t.vol 8).run = true
            ∧ t.vol.sys.mode = if v.sys.safeAfter then .safe else .service))
      ∧ (v.sys.wait = .boot → (∃ f, f < 4 ∧ fuseOnes s.nv f ≠ 0 ∧ fuseOnes s.nv f < 192) →
        ∃ t, exec .locksmithBootComplete s = .next t ∧ t.vol.sys.mode = .reset ∧ rg t.vol (ra pRst 0x040) = bitWord 6)

/-! ### Twin operation -/

/-- What a frame of the twin does while the link runs: a sound MARK dates the tick and places a boundary that the link gives, between
TICK_MINLEN and TICK_MAXLEN but on a joining part; a SNAP segment is held for DROP; a RPLY shows the twin's digest, and at a part
alone its relays are lost; a NAK has a frame sent again behind the one in transmission, at most twice in a tick, or its words marked again; an MBOX operation is performed by master 14; the words of a STATE frame
land in tagged SRAM that is up. A frame that fails its check is discarded and counted. A frame that the part does not take changes
nothing. Rests on R51, R409, R410, R411, R412, R413, R414, R416, R417, R419, R436, R440; log 62. -/
def Obligations.YokeDataFramesAct : Prop :=
  ∀ (s : State) (f : List Byte),
    let v := s.vol
    let p := payloadOf f
    let counted (t : State) : Prop := rg t.vol (aYok 0x06C) = rg v (aYok 0x06C) + 1 ∧ rb t.vol (aFault pYok) 0 = true ∧ t.nv = s.nv
      ∧ t.vol.sram = v.sram ∧ t.vol.cores = v.cores
    let all : List Instr := [.mark f, .snap f, .rply f, .nak f, .mbox f, .state f]
    (takesFrames v = false → ∀ i, i ∈ all → exec i s = .next s)
      ∧ (takesFrames v = true → v.yok.token = true → (frameIs f 1 none = true → exec (.mark f) s = .next s)
        ∧ (frameIs f 2 none = true → exec (.snap f) s = .next s))
      ∧ (takesFrames v = true → v.yok.token = false → frameIs f 4 none = true → exec (.nak f) s = .next s)
      ∧ (takesFrames v = true → v.yok.role ≠ 3 → frameIs f 6 none = true → exec (.state f) s = .next s)
      ∧ (takesFrames v = true → v.yok.role ≠ 1 ∨ v.yok.twin = false → frameIs f 3 none = true →
        (byteAt p 19 < 128 → byteAt p 21 < 128 → exec (.rply f) s = .next s)
          ∧ (v.yok.twin = false → 128 ≤ byteAt p 19 ∨ 128 ≤ byteAt p 21 →
            exec (.rply f) s = .next (withVol s (setFault v pYok 5))))
      ∧ (takesFrames v = true →
        (v.yok.token = false → frameIs f 1 none = true →
          ∃ t, exec (.mark f) s = .next t ∧ t.vol.yok.mark = p ∧ t.vol.yok.sof = true ∧ t.vol.yok.noMark = 0
            ∧ (v.yok.sof = false → v.tick.running = true → tickSource v = 2 →
              let at' := v.now + 1196 - rf v (aYok 0x044) 9 0
              t.vol.tick.next = if v.tick.first then v.tick.next else if v.yok.role = 3 then at'
                else limitNat (v.tick.boundary + taf v 0x054 18 0) (v.tick.boundary + taf v 0x058 18 0) at')
            ∧ (v.yok.sof = true → t.vol.tick = v.tick)
            ∧ (v.yok.role = 2 → (byteAt p 20).testBit 0 = true ∨ (byteAt p 20).testBit 1 = true ∨ (byteAt p 20).testBit 2 = true →
              t.vol.yok.takeDue = true)
            ∧ t.nv = s.nv ∧ t.vol.sram = v.sram ∧ t.vol.cores = v.cores)
        ∧ (frameIs f 1 none = false → ∃ t, exec (.mark f) s = .next t ∧ counted t)
        ∧ (v.yok.token = false → frameIs f 2 none = true →
          (∃ t, exec (.snap f) s = .next t ∧ t.vol.yok.snaps = smapPut v.yok.snaps (byteAt f 1) p ∧ t.nv = s.nv)
            ∧ (v.yok.snapOpen = false →
              exec (.snap f) s = .next (withVol s (setYok v fun y => { y with snaps := smapPut y.snaps (byteAt f 1) p }))))
        ∧ (frameIs f 2 none = false → ∃ t, exec (.snap f) s = .next t ∧ counted t)
        ∧ (v.yok.role = 1 → v.yok.twin = true → frameIs f 3 none = true → v.whs.testing = false →
          ∃ t, exec (.rply f) s = .next t ∧ t.vol.yok.rply = p ∧ rg t.vol (aYok 0x058) = leWord p 8
            ∧ rg t.vol (aYok 0x05C) = leWord p 12 ∧ t.nv = s.nv ∧ t.vol.sram = v.sram)
        ∧ (frameIs f 3 none = false →
          exec (.rply f) s = .next (withVol s (setFault (rgInc v (aYok 0x06C)) pYok 0)))
        ∧ (v.yok.token = true → frameIs f 4 none = true →
          let n := byteAt f 1
          let named (g : List Byte) : Bool := if n = 7 then byteAt g 0 == 1 else byteAt g 0 == 2 && byteAt g 1 == n
          (∀ g, n < 128 → v.yok.out.find? named = some g →
              if v.yok.out.countP (fun x => decide (byteAt x 0 ≤ 2)) < 8 then
                exec (.nak f) s = .next (withVol s (rgInc (yokAhead v g) (aYok 0x068)))
                  ∧ ∃ n, (yokAhead v g).yok.out = v.yok.out.take n ++ [g] ++ v.yok.out.drop n
              else exec (.nak f) s = .next s)
            ∧ (n < 128 → v.yok.out.find? named = none → exec (.nak f) s = .next s)
            ∧ (∀ e, 128 ≤ n → v.yok.flight.find? (fun e => e.1 == n - 128) = some e →
              ∃ t, exec (.nak f) s = .next t ∧ (∀ a, a ∈ e.2.1 → smapGet noErr t.vol.yok.dirty a = 1)
                ∧ (∀ a, a ∉ e.2.1 → smapGet noErr t.vol.yok.dirty a = smapGet noErr v.yok.dirty a)
                ∧ t.vol.regs = v.regs ∧ t.vol.sram = v.sram ∧ t.vol.cores = v.cores)
            ∧ (128 ≤ n → v.yok.flight.find? (fun e => e.1 == n - 128) = none → exec (.nak f) s = .next s))
        ∧ (frameIs f 4 none = false → exec (.nak f) s = .next (withVol s (frameDiscard v none)))
        ∧ (frameIs f 5 none = true → 24 ≤ byteAt p 0 → exec (.mbox f) s = .next s)
        ∧ (frameIs f 5 none = true → byteAt p 0 < 24 →
          let b := byteAt p 0
          (byteAt p 1 = 2 → exec (.mbox f) s = .next (withVol s (mbxRing v b 14 (leWord p 4))))
            ∧ (byteAt p 1 = 3 → exec (.mbox f) s = .next (withVol s (mbxDone v b 14)))
            ∧ (byteAt p 1 = 4 → exec (.mbox f) s = .next (withVol s (rbSet (rbSet v (aMbx b 0x04) 31 false) (aMbx b 0x04) 29 true)))
            ∧ (byteAt p 1 = 1 → mbxFull v b = false →
              ∃ v1, exec (.mbox f) s = .next (withVol s (mbxPost v1 b 14 (leWord p 4)))
                ∧ (∀ i, i < 8 → rg v1 (aMbx b (0x20 + 4 * i)) = leWord p (8 + 4 * i)) ∧ v1.sram = v.sram ∧ v1.yok = v.yok)
            ∧ (byteAt p 1 = 1 → mbxFull v b = true →
              let v1 := mbxPost v b 14 (leWord p 4)
              exec (.mbox f) s = .next (withVol s { v1 with yok := { v1.yok with
                mboxQ := v1.yok.mboxQ ++ [[BitVec.ofNat 8 b, 4] ++ List.replicate 38 0] } })))
        ∧ (frameIs f 5 none = false → exec (.mbox f) s = .next (withVol s (frameDiscard v none)))
        ∧ (v.yok.role = 3 → frameIs f 6 none = true →
          ∃ t, exec (.state f) s = .next t ∧ t.vol.yok.got = v.yok.got + byteAt p 4 ∧ t.vol.cores = v.cores ∧ t.vol.regs = v.regs
            ∧ ∀ i q, i < byteAt p 4 → place ((leWord p 0).toNat + 4 * i) = some q → q.win = .direct → q.tagged = true →
              domUp v q.dom = true → sramWord t.vol q.key
                = ⟨leWord p (8 + 4 * i), BitVec.ofNat 4 (byteAt p (8 + 4 * byteAt p 4 + i / 2) / 16 ^ (i % 2))⟩)
        ∧ (frameIs f 6 none = false →
          exec (.state f) s = .next (withVol s (frameDiscard v (some (128 + byteAt f 1 % 128))))))

/-- What a CTRL frame of the twin does: over aligned lanes an ECHO is answered, and its answer measures the link and brings it up; DOWN makes a shadow take over at its next
boundary and ends the attach of a joining part; an attach is accepted, refused, counted and ended; DETACH ends the pair. A frame that
fails its check is discarded; one that does not apply changes nothing. Rests on R406, R407, R409, R426, R427, R429, R430, R432, R433; log 62,
63. -/
def Obligations.YokeControlFramesAct : Prop :=
  ∀ (s : State) (f : List Byte),
    let v := s.vol
    let p := payloadOf f
    let is (sub : Nat) : Prop := frameIs f 7 (some sub) = true
    let quiet (t : State) : Prop := t.nv = s.nv ∧ t.vol.sram = v.sram ∧ t.vol.cores = v.cores
    let failed (t : State) : Prop := t.vol.yok.role = 0 ∧ t.vol.yok.attPh = 0 ∧ rb t.vol (aFault pYok) 6 = true
      ∧ (rb v (aEvEn pYok) 7 = true → rb t.vol (aEvPend pYok) 7 = true) ∧ quiet t
    let all : List (Instr × Nat) := [(.echo f, 1), (.echoa f, 2), (.down f, 3), (.attreq f, 4), (.attacc f, 5), (.attref f, 6),
      (.cutack f, 7), (.ctrlDetach f, 8), (.cutend f, 9)]
    let hears (sub : Nat) : Bool := if sub ≤ 2 then linkAligned v && rb v (aCtl pYok) 0 else takesFrames v
    (∀ c, c ∈ all → hears c.2 = false → exec c.1 s = .next s)
      ∧ (∀ c, c ∈ all → hears c.2 = true → frameIs f 7 (some c.2) = false →
        exec c.1 s = .next (withVol s (frameDiscard v none)))
      ∧ (hears 1 = true → is 1 →
        exec (.echo f) s = .next (withVol s (yokQueue v (tickWord v) 7 2 (p.take 4 ++ List.replicate 12 0))))
      ∧ (hears 2 = true → is 2 → match v.yok.echoAt with
        | some t0 => ∃ t, exec (.echoa f) s = .next t ∧ t.vol.yok.echoAt = none ∧ rb t.vol (aYok 0x044) 31 = true
            ∧ rf t.vol (aYok 0x044) 9 0 = (v.now - t0 - 64) / 2 % 1024 ∧ quiet t
        | none => exec (.echoa f) s = .next s)
      ∧ (takesFrames v = true →
        (is 3 → v.yok.role ≠ 3 → exec (.down f) s
          = .next (withVol s (setYok (tokenLevel v false) fun y => { y with takeDue := y.takeDue || y.role == 2 })))
        ∧ (is 3 → v.yok.role = 3 → ∃ t, exec (.down f) s = .next t ∧ failed t)
        ∧ (is 4 → v.yok.token = false ∨ v.yok.attPh ≠ 0 → exec (.attreq f) s = .next s)
        ∧ (is 4 → v.yok.token = true → v.yok.attPh = 0 →
          let same := leWord p 0 = yokImg v 0 ∧ leWord p 4 = yokImg v 1
          let refused (why : Byte) : Prop := exec (.attreq f) s = .next (withVol s (yokCtrl (takeTimg v p) 6 [why]))
          (byteAt p 8 ≠ 1 → same → attWords v ≤ 65536 → v.yok.st = 0 →
              ∃ t, exec (.attreq f) s = .next t ∧ t.vol.yok.attPh = 2 ∧ t.vol.yok.role = 1 ∧ t.vol.yok.bulk = attRegions v
                ∧ rg t.vol (aYok 0x07C) = leWord p 0 ∧ t.vol.yok.out = (yokCtrl v 5 (wordBytes (yokImg v 0) ++ wordBytes (yokImg v 1)
                  ++ leBytes 4 (attWords v))).yok.out ∧ quiet t)
            ∧ (byteAt p 8 ≠ 1 → ¬ same → refused 1) ∧ (byteAt p 8 ≠ 1 → same → 65536 < attWords v → refused 2)
            ∧ (byteAt p 8 = 1 ∨ same ∧ attWords v ≤ 65536 → v.yok.st ≠ 0 → refused 3)
            ∧ (byteAt p 8 = 1 → v.yok.st = 0 →
              ∃ t, exec (.attreq f) s = .next t ∧ t.vol.yok.twin = true ∧ t.vol.yok.role = 1 ∧ t.vol.yok.attPh = 0
                ∧ t.vol.yok.attCold = true ∧ (rb v (aEvEn pYok) 5 = true → rb t.vol (aEvPend pYok) 5 = true) ∧ quiet t))
        ∧ (is 5 → v.yok.role ≠ 3 ∨ v.yok.attPh ≠ 1 → exec (.attacc f) s = .next s)
        ∧ (is 5 → v.yok.role = 3 → v.yok.attPh = 1 →
          ∃ t, exec (.attacc f) s = .next t ∧ rg t.vol (aYok 0x07C) = leWord p 0 ∧ rg t.vol (aYok 0x080) = leWord p 4 ∧ quiet t
            ∧ (v.yok.attCold = true → t.vol.yok.joinDue = true ∧ t.vol.yok.attPh = 1)
            ∧ (v.yok.attCold = false → t.vol.yok.attPh = (if leWord p 8 = 0 then 3 else 2) ∧ t.vol.yok.need = (leWord p 8).toNat
              ∧ t.vol.yok.got = 0))
        ∧ (is 6 → v.yok.role = 3 → ∃ t, exec (.attref f) s = .next t ∧ failed t
          ∧ (byteAt p 0 = 1 → rb t.vol (aFault pYok) 7 = true))
        ∧ (is 6 → v.yok.role ≠ 3 → exec (.attref f) s = .next s)
        ∧ (is 7 → if v.yok.attPh = 4 ∧ (frameTick f + 2 ^ 32 - v.yok.cutAt) % 2 ^ 32 < 2 ^ 31 then
            exec (.cutack f) s
              = .next (withVol s (setYok v fun y => { y with cutAcks := smapPut y.cutAcks (frameTick f) (leWord p 0).toNat }))
          else exec (.cutack f) s = .next s)
        ∧ (is 8 → v.yok.attPh = 0 → v.yok.role ≠ 3 →
          if v.yok.twin = true then
            ∃ t, exec (.ctrlDetach f) s = .next t ∧ t.vol.yok.twin = false ∧ t.vol.yok.detachDue = true
              ∧ (rb v (aEvEn pYok) 1 = true → rb t.vol (aEvPend pYok) 1 = true) ∧ quiet t
          else exec (.ctrlDetach f) s = .next (withVol s (rgClr v (aCtl pYok) 8)))
        ∧ (is 9 → v.yok.role ≠ 3 → exec (.cutend f) s = .next s)
        ∧ (let n := (leWord p 0).toNat + (leWord p 4).toNat * 2 ^ 32
          is 9 → v.yok.role = 3 →
          (v.tick.number.toNat < n → exec (.cutend f) s = .next (withVol s (setYok v fun y => { y with joinAt := some n })))
            ∧ (n ≤ v.tick.number.toNat → v.sys.mode = .run →
              ∃ t, exec (.cutend f) s = .next t ∧ t.vol.yok.role = 2 ∧ t.vol.yok.twin = true ∧ t.vol.sys.mode = .shadow
                ∧ (rb v (aEvEn pYok) 5 = true → rb t.vol (aEvPend pYok) 5 = true) ∧ quiet t)
            ∧ (n ≤ v.tick.number.toNat → v.sys.mode ≠ .run → ∃ t, exec (.cutend f) s = .next t ∧ failed t)))

/-- Attach, detach, handover and takeover: CTL.ATTACH makes a part alone a joining part and is refused to another, CTL.DETACH and a
lost link or twin end the pair at the next boundary, CTL.HANDOVER waits for it; a part that has waited takes the token once
YTOKI has been low for 80 c (TOKEN_CLAIM), a shadow takes over with it; aligned lanes begin the ECHO exchange; both nets high set
FAULT.TOKCONF; a limit reached ends an attach; a lead that a handover or a verdict makes leave releases the token and enters SAFE at c1120. A
read of YOK_RELAY takes the oldest relayed source. A command that does not apply changes no more than what YTOKI tells. Rests on R404, R405,
R406, R424, R428, R429, R430, R432, R433, R435, R440; log 62, 63, 64. -/
def Obligations.YokeRolesChange : Prop :=
  ∀ (s : State) (m : Fin 16) (mode : BitVec 2),
    let v := s.vol
    let y := v.yok
    let quiet (t : State) : Prop := t.nv = s.nv ∧ t.vol.sram = v.sram ∧ t.vol.cores = v.cores
    let parts (v' : Vol) : Prop := v'.yok.twin = false ∧ v'.yok.detachDue = true ∧ v'.yok.token = y.token ∧ v'.sram = v.sram
      ∧ v'.cores = v.cores ∧ (rb v (aEvEn pYok) 1 = true → rb v' (aEvPend pYok) 1 = true)
    let paired := y.twin = true ∧ y.attPh = 0 ∧ y.role ≠ 3
    (if ready v pYok = true ∧ y.role = 2 ∧ y.takeDue = true ∧ v.sys.mode = .shadow then
        (∃ t, exec (.takeover true) s = .next t ∧ t.vol.yok.token = true ∧ t.vol.yok.role = 1 ∧ t.vol.sys.mode = .run
            ∧ t.vol.yok.takeDue = false ∧ (rb v (aEvEn pYok) 0 = true → rb t.vol (aEvPend pYok) 0 = true) ∧ quiet t)
          ∧ ∃ t, exec (.takeover false) s = .next t ∧ t.vol.yok.token = false ∧ t.vol.sys.mode = .safe
            ∧ rb t.vol (aFault pYok) 4 = true ∧ t.vol.sram = v.sram
      else exec (.takeover true) s = .next s ∧ exec (.takeover false) s = .next s)
      ∧ (if ready v pYok = true ∧ y.token = false ∧ v.sys.mode = .run ∧ rb v (aCtl pYok) 2 = false
            ∧ (if y.prime then 2 else 8) ≤ y.noMark then
          (y.twin = false → exec .tokenClaim s = .next (withVol s (setYok (tokenLevel v false) fun y =>
              { y with token := true, role := 1, takeDue := false, detachDue := false })))
            ∧ (paired → ∃ t, exec .tokenClaim s = .next t ∧ t.vol.yok.token = true ∧ t.vol.yok.role = 1 ∧ t.vol.yok.twin = false
              ∧ (rb v (aEvEn pYok) 1 = true → rb t.vol (aEvPend pYok) 1 = true) ∧ quiet t)
        else exec .tokenClaim s = .next (withVol s (tokenLevel v false)))
      ∧ (if ready v pYok = true ∧ y.token = true then
          ∃ t, exec .tokenConflict s = .next t ∧ t.vol.yok.tokI = true ∧ t.vol.yok.token = y.prime ∧ rb t.vol (aFault pYok) 4 = true
            ∧ (rb v (aEvEn pYok) 7 = true → rb t.vol (aEvPend pYok) 7 = true) ∧ quiet t
        else exec .tokenConflict s = .next s)
      ∧ (if ready v pYok = true ∧ rb v (aCtl pYok) 0 = true ∧ rb v (aStat pYok) 0 = false then
          ∃ t, exec .linkUp s = .next t ∧ rb t.vol (aYok 0x044) 31 = rb v (aYok 0x044) 31 ∧ rb t.vol (aStat pYok) 0 = true
            ∧ t.vol.yok.echoAt = some v.now ∧ t.vol.yok.out.length = y.out.length + 1 ∧ quiet t
        else exec .linkUp s = .next s)
      ∧ (linkAligned v = false → exec .linkDown s = .next s)
      ∧ (paired → linkAligned v = true → linkUp v = true →
        ∃ t, exec .linkDown s = .next t ∧ rb t.vol (aYok 0x044) 31 = false ∧ rb t.vol (aStat pYok) 0 = false ∧ parts t.vol
          ∧ t.nv = s.nv)
      ∧ (linkAligned v = true → linkUp v = false ∨ y.twin = false ∧ y.attPh = 0 ∧ y.role ≠ 3 →
        ∃ t, exec .linkDown s = .next t ∧ rb t.vol (aYok 0x044) 31 = false ∧ rb t.vol (aStat pYok) 0 = false ∧ t.vol.yok = y
          ∧ quiet t)
      ∧ (paired → y.role = 1 → 2 ≤ y.noRply →
        ∃ t, exec .rplyMiss s = .next t ∧ rb t.vol (aFault pYok) 3 = true ∧ parts t.vol ∧ t.nv = s.nv)
      ∧ (y.role ≠ 1 ∨ y.twin = false ∨ y.noRply < 2 → exec .rplyMiss s = .next s)
      ∧ (∀ t0 hand, y.relAt = some (t0, hand) → (v.now < t0 → yokReleases v = v)
        ∧ (t0 ≤ v.now → y.token = true → safeAtOnce v.sys.mode = true →
          (yokReleases v).yok.token = false ∧ (yokReleases v).yok.role ≠ 1 ∧ (yokReleases v).sys.mode = .safe
            ∧ (yokReleases v).sram = v.sram))
      ∧ (if y.attPh ≠ 0 ∧ rf v (aYok 0x088) 19 0 ≤ y.attTicks ∨ y.attPh = 4 ∧ 15 ≤ y.cutTicks then
          ∃ t, exec .attachTimeout s = .next t ∧ t.vol.yok.attPh = 0 ∧ rb t.vol (aFault pYok) 6 = true
            ∧ t.vol.yok.role = (if y.role = 3 then 0 else y.role)
            ∧ (rb v (aEvEn pYok) 7 = true → rb t.vol (aEvPend pYok) 7 = true) ∧ quiet t
        else exec .attachTimeout s = .next s)
      ∧ (pageOpen v m pYok = true →
        let written := putFld (rg v (aCtl pYok) ||| 4) 6 5 mode.toNat
        (mode.toNat ≤ 1 → y.role = 0 → y.token = false → rb v (aCtl pYok) 2 = false → rb v (aCtl pYok) 31 = false →
            ∃ v', exec (.attach m mode) s = .next (performed s m (aCtl pYok) written v')
              ∧ v'.yok.role = 3 ∧ v'.yok.attPh = 1 ∧ v'.yok.attCold = decide (mode = 1) ∧ v'.sram = v.sram ∧ v'.cores = v.cores)
          ∧ (y.role = 1 ∨ y.role = 2 ∨ y.role = 0 ∧ y.token = true → rb v (aCtl pYok) 2 = false → rb v (aCtl pYok) 31 = false →
            ∃ v', exec (.attach m mode) s = .next (performed s m (aCtl pYok) written v') ∧ rb v' (aFault pYok) 6 = true
              ∧ rb v' (aCtl pYok) 2 = false ∧ v'.yok = y ∧ v'.sram = v.sram ∧ v'.cores = v.cores)
          ∧ (paired → rb v (aCtl pYok) 3 = false →
            ∃ v', exec (.detach m) s = .next (performed s m (aCtl pYok + 0x400) 8 v') ∧ parts v')
          ∧ (rb v (aCtl pYok) 4 = false →
            ∃ v', exec (.handover m) s = .next (performed s m (aCtl pYok + 0x400) 16 v')
              ∧ rb v' (aCtl pYok) 4 = (y.role == 1 && y.twin && y.st == 0) ∧ v'.yok = y ∧ v'.sram = v.sram ∧ v'.cores = v.cores)
          ∧ (∀ n rest, y.relayRx = n :: rest →
            exec (.yokRelay m) s = .next (performedRead s m (aYok 0x070) (BitVec.ofNat 32 (2 ^ 31 + n))
              (setYok v fun y => { y with relayRx := rest })))
          ∧ (y.relayRx = [] → exec (.yokRelay m) s = .next (performedRead s m (aYok 0x070) 0 v)))

/-! ### Ledger and Locksmith -/

/-- Every Ledger command that finds Ledger idle starts: LDG_CMD shows it, BUSY is 1, and what FORMAT and MOUNT find goes with
it; FLUSH of a mounted stream closes its open leaf, SEAL puts its seal up for signing. The end of a command clears BUSY with its
status and raises event 6: a volume formatted, mounted under its identifier or unmounted, a FLUSH or SEAL whose pages are programmed,
a leaf or seal read from NAND, corrected and delivered, a staging area erased, written or read. A command finds no accepted target, a volume
mounted or unmounted, an offline target or an uncorrectable page, or cannot be signed, and says so in its status; one that needs the
NAND waits while its clock is off or its LUN has other work, one while CTL.EN is 0 until it is set, FORMAT while another signature comes first. Starts are said while no DMA channel is being aborted.
Rests on R441, R447, R448, R452, R453, R466, R467, R472, R473, R474, R475, R476; log 65, 66, 67. -/
def Obligations.LedgerCommandsRun : Prop :=
  ∀ (s : State) (m : Fin 16) (scan : NandScan) (i : Instr) (op : Nat),
    let v := s.vol
    let a0 := (rg v (aLdg 0x084)).toNat
    let found := v.ldg.scan.getD emptyScan
    let ended (t : State) (status : Nat) : Prop := t.vol.ldg.op = 0 ∧ rg t.vol (aLdg 0x094) = BitVec.ofNat 32 status ∧ t.nv = s.nv
      ∧ (rb v (aEvEn pLdg) 6 = true → rb t.vol (aEvPend pLdg) 6 = true)
    ((i, op) ∈ [(Instr.format m scan, 1), (.mount m scan, 2), (.flush m, 3), (.seal m, 4), (.prove m, 5), (.read m, 6), (.unmount m, 7),
        (.stgwr m, 8), (.stgrd m, 9), (.stgerase m, 10)] →
        pageOpen v m pLdg = true → noAbort v = true → rb v (aLdg 0x094) 31 = false → v.ldg.op = 0 →
        ∃ v', exec i s = .next (performed s m (aLdg 0x080) (BitVec.ofNat 32 op) v') ∧ v'.ldg.op = op
          ∧ v'.ldg.scan = (if op ≤ 2 then some scan else none) ∧ rb v' (aLdg 0x094) 31 = true ∧ rf v' (aLdg 0x080) 3 0 = op
          ∧ v'.sram = v.sram ∧ v'.cores = v.cores
          ∧ (op = 3 → ldgMounted v = true → ldgRuns v = true → a0 < 64 → (lst v' a0).recs = [])
          ∧ (op = 4 → ldgMounted v = true → ldgRuns v = true → a0 < 64 → (lst v a0).segTicks.isSome = true →
            (lst v a0).signing = none → canSign v = true → (lst v a0).segHash.length < 256 → (lst v' a0).signing.isSome = true ∧ (lst v' a0).segTicks = none))
      ∧ (ldgRuns v = true → ∀ worst : Option (Fin 73),
        (v.ldg.waiting = true ∨ cmdWaits v = true → exec (.ldgCommandDone worst) s = .next s) ∧
        (v.ldg.waiting = false → cmdWaits v = false →
        (nandClocked v = false → v.ldg.op ∈ [1, 2, 5, 6, 8, 9, 10] → exec (.ldgCommandDone worst) s = .next s)
          ∧ (v.ldg.op ∈ [3, 4, 7] ∨ v.ldg.op ∈ [5, 6, 8, 9, 10] ∧ nandClocked v = true → ldgMounted v = false →
            exec (.ldgCommandDone worst) s = .next (withVol s (ldgEnds v 1)))
          ∧ (v.ldg.op = 2 → nandClocked v = true →
            (ldgMounted v = true → exec (.ldgCommandDone worst) s = .next (withVol s (ldgEnds v 0)))
              ∧ (ldgMounted v = false →
                (accepted v found = [] → ∃ t, exec (.ldgCommandDone worst) s = .next t ∧ ended t 7 ∧ ldgMounted t.vol = false)
                  ∧ (accepted v found ≠ [] → ∃ t, exec (.ldgCommandDone worst) s = .next t ∧ ended t 0 ∧ ldgMounted t.vol = true
                    ∧ rg t.vol (aLdg 0x04C)
                      = mountVol v ((nandPages v found).filter fun p => (allNandBlocks v found).contains p.block))))
          ∧ (v.ldg.op = 1 → nandClocked v = true →
            (canSign v = true → (idNext v).isSome = true → exec (.ldgCommandDone worst) s = .next s)
              ∧ (canSign v = false ∨ idNext v = none →
                (ldgMounted v = true → exec (.ldgCommandDone worst) s = .next (withVol s (ldgEnds v 1)))
                  ∧ (ldgMounted v = false → canSign v = false →
                    exec (.ldgCommandDone worst) s = .next (withVol s (ldgEnds (setFault v pLdg 6) 9)))
                  ∧ (ldgMounted v = false → canSign v = true →
                    (accepted v found = [] → ∃ t, exec (.ldgCommandDone worst) s = .next t ∧ ended t 7)
                      ∧ (accepted v found ≠ [] → ∃ t, exec (.ldgCommandDone worst) s = .next t ∧ ended t 0 ∧ ldgMounted t.vol = false
                        ∧ rg t.vol (aLdg 0x04C) = Config.trng v.free
                        ∧ ((lst t.vol 0).seals ≠ 0 → rb v (aEvEn pLdg) 2 = true → rb t.vol (aEvPend pLdg) 2 = true)))))
          ∧ (v.ldg.op = 3 → ldgMounted v = true → a0 < 64 →
            exec (.ldgCommandDone worst) s = .next (if (lst v a0).progs = [] then withVol s (ldgEnds v 0) else s))
          ∧ (v.ldg.op = 4 → ldgMounted v = true → a0 < 64 →
            (canSign v = false → exec (.ldgCommandDone worst) s = .next (withVol s (ldgEnds (setFault v pLdg 6) 9)))
              ∧ (canSign v = true → exec (.ldgCommandDone worst) s
                = .next (if (lst v a0).progs = [] ∧ (lst v a0).signing = none ∧ (lst v a0).due = 0 then withVol s (ldgEnds v 0) else s)))
          ∧ (v.ldg.op = 6 → ldgMounted v = true → nandClocked v = true → a0 < 64 → ∀ idx leaf,
            readSlot v (lst v a0) = some (idx, leaf) →
            ∀ v1 e, readEcc s.nv v (slotBlock (lst v a0) idx) worst = (v1, e) →
            (e ≠ 0 → exec (.ldgCommandDone worst) s = .next (withVol s (ldgEnds v1 e)))
              ∧ (e = 0 → ∀ v2 k code, beatsWrite s.nv 12 0 .word false (wordsOf (padTo 4096 leaf)) (ldgArg v1 3) v1 = (v2, k, code, false) →
                exec (.ldgCommandDone worst) s = .next (withVol s (ldgEnds v2 (if code = 0 then 0 else 6))))
              ∧ e = if tgtOffline v (blkTarget v (slotBlock (lst v a0) idx)) = true then 7 else if worst = none then 5 else 0)
          ∧ (v.ldg.op = 10 → ldgMounted v = true → nandClocked v = true →
            exec (.ldgCommandDone worst) s = .next (withVol s (ldgEnds (stagingErase v) 0)))
          ∧ (v.ldg.op = 8 → ldgMounted v = true → nandClocked v = true → ldgArg v 1 < stagingUnits v →
            tgtOffline v (blkTarget v (stagingBlock v (ldgArg v 1))) = false → ∀ v1 ws,
            beatsRead s.nv 12 0 .word false 1024 (ldgArg v 3) v = (v1, ws, 0, false) →
            let r := stagingWrite s.nv v1 (ldgArg v 1) (bytesOf ws) worst.isSome
            exec (.ldgCommandDone worst) s = .next (withVol s (ldgEnds r.1 (if r.2 then 0 else 7))))
          ∧ (v.ldg.op = 9 → ldgMounted v = true → nandClocked v = true → ldgArg v 1 < stagingUnits v →
            tgtOffline v (blkTarget v (stagingBlock v (ldgArg v 1))) = false → ∀ v1 e,
            readEcc s.nv v (stagingBlock v (ldgArg v 1)) worst = (v1, e) →
            (e ≠ 0 → exec (.ldgCommandDone worst) s = .next (withVol s (ldgEnds v1 e)))
              ∧ (e = 0 → ∀ v2 k code, beatsWrite s.nv 12 0 .word false (wordsOf (padTo 4096 (stagingUnit v1 (ldgArg v1 1))))
                  (ldgArg v1 3) v1 = (v2, k, code, false) →
                exec (.ldgCommandDone worst) s = .next (withVol s (ldgEnds v2 (if code = 0 then 0 else 6)))))
          ∧ (v.ldg.op = 7 → ldgMounted v = true →
            (v.ldg.ending = false → exec (.ldgCommandDone worst) s = .next s)
              ∧ (v.ldg.ending = true → canSign v = true →
                (∀ j, j < 64 → (lst v j).progs = [] ∧ (lst v j).signing = none ∧ (lst v j).due = 0 ∧ (lst v j).segTicks = none) →
                ∃ t, exec (.ldgCommandDone worst) s = .next t ∧ ended t 0 ∧ ldgMounted t.vol = false ∧ t.vol.ldg.pool = []
                  ∧ t.vol.ldg.streams = []))))
      ∧ ∀ (w : Word), pageOpen v m pLdg = true →
        exec (.ldgSqtail m w) s = .next (performed s m (aLdg 0x078) w (regWrite v pLdg 0x078 .direct w))
          ∧ (32 ≤ fmtIdx v → exec (.ldgFmtdata m (some w)) s = .next (performed s m (aLdg 0x06C) w
              (fmtAdvance (setLdg v fun l => { l with fmt := smapSet (fun _ => 0) l.fmt (fmtIdx v) w, fmtNew := true }))))
          ∧ (fmtIdx v < 32 → exec (.ldgFmtdata m (some w)) s = .next (performed s m (aLdg 0x06C) w (fmtAdvance v)))
          ∧ exec (.ldgFmtdata m none) s
            = .next (performedRead s m (aLdg 0x06C) (smapGet (fun _ => 0) v.ldg.fmt (fmtIdx v)) (fmtAdvance v))
          ∧ exec (.ldgSnextloRead m) s = .next (performedRead s m (aLdg 0x0A4) (BitVec.ofNat 32 (lst v (rf v (aLdg 0x0A0) 5 0)).next)
            (rgSet v (aLdg 0x0A8) (BitVec.ofNat 32 ((lst v (rf v (aLdg 0x0A0) 5 0)).next / 2 ^ 32))))
          ∧ ((lst v (rf v (aLdg 0x0A0) 5 0)).durable = none → exec (.ldgSdurloRead m) s
              = .next (performedRead s m (aLdg 0x0AC) 0xFFFFFFFF (rgSet v (aLdg 0x0B0) 0xFFFFFFFF)))
          ∧ ∀ d, (lst v (rf v (aLdg 0x0A0) 5 0)).durable = some d →
            exec (.ldgSdurloRead m) s = .next (performedRead s m (aLdg 0x0AC) (BitVec.ofNat 32 d)
              (rgSet v (aLdg 0x0B0) (BitVec.ofNat 32 (d / 2 ^ 32))))

/-- A ring entry that passes its checks becomes the stream's next record, one that fails an early check is answered with its status,
and an empty or held ring gives none. A seal falls due when its period ends and takes the next slot once it is signed, in the order in
which signatures were asked for. A page that programs well makes its leaves and seals durable; a failed program or erase retires the
block and raises event 4, and no page is lost; a LUN that stays busy takes its target offline. Nothing on the NAND ends while its
interface has no clock. Rests on R444, R447, R456, R457, R458, R459, R462, R465, R466, R468, R469, R483; log 65, 66, 67. -/
def Obligations.LedgerStreamsAdvance : Prop :=
  ∀ (s : State) (t : Fin 64) (b : Nat) (l : LunId),
    let v := s.vol
    let st := lst v t
    let head := rf v (aLdg 0x07C) 9 0
    let tail := if v.ldg.op = 7 then v.ldg.tail else rf v (aLdg 0x078) 9 0
    let n := 2 ^ rf v (aLdg 0x074) 3 0
    let at' := (rg v (aLdg 0x070)).toNat + 32 * (head % n)
    let quiet (u : State) : Prop := u.nv = s.nv ∧ u.vol.sram = v.sram ∧ u.vol.cores = v.cores
    let retires (u : State) (x : Nat) : Prop := quiet u ∧ u.vol.ldg.retired.contains x = true ∧ rb u.vol (aFault pLdg) 3 = true
      ∧ (rb v (aEvEn pLdg) 4 = true → rb u.vol (aEvPend pLdg) 4 = true)
    ldgRuns v = true →
    (v.ldg.held = true ∨ v.ldg.ending = true ∨ head % n = tail % n → exec .ldgSubmission s = .next s)
      ∧ (∀ v1 ws, v.ldg.held = false → v.ldg.ending = false → head % n ≠ tail % n →
        beatsRead s.nv 12 0 .word false 8 at' v = (v1, ws, 0, false) →
        let w0 := ws.getD 0 0
        (entryStatus v1 w0 ≠ 0 → exec .ldgSubmission s = .next (withVol s (unmountBegins s.nv
            (entryDone s.nv v1 at' (entryStatus v1 w0) (bit w0 13) 0 0))))
          ∧ ∀ v2 bs v3,
            let sn := fld w0 29 24
            let fm := fld w0 21 16
            entryStatus v1 w0 = 0 → segmentFull v1 sn = false →
            gatherAll s.nv (ws.getD 1 0).toNat (fmtFields v1 fm) v1 = (v2, bs, 0, false) → streamHasBlock v2 sn = (v3, true) →
            v3.ldg.fmtNew = false → segmentFull (fitRecord s.nv v3 sn (32 + bs.length)) sn = false →
            let v4 := setLdg (fitRecord s.nv v3 sn (32 + bs.length)) fun g => { g with fmtNew := false, fmtUsed := g.fmt }
            let v5 := appendRecord s.nv v4 sn fm
              (if bit w0 15 then v4.tick.number.toNat else (ws.getD 2 0).toNat + (ws.getD 3 0).toNat * 2 ^ 32) bs
            exec .ldgSubmission s = .next (withVol s (unmountBegins s.nv
                (entryDone s.nv (if bit w0 14 then flushStream s.nv v5 sn else v5) at' 0 (bit w0 13) (lst v3 sn).next (lst v5 sn).leaf)))
              ∧ (lst v5 sn).next = (lst v3 sn).next + 1)
      ∧ (ldgMounted v = true → st.segTicks.isSome = true → st.due &&& 2 = 0 →
        exec (.sealTimer t) s = .next (withVol s (sealStart s.nv
          (wallTo v (st.segAt + (if t.val = 0 then 60 else rf v (aLdg (0x100 + 4 * t.val)) 11 0) * 400000000)) t 2)))
      ∧ (ldgMounted v = false ∨ st.segTicks = none ∨ st.due &&& 2 ≠ 0 → exec (.sealTimer t) s = .next s)
      ∧ (∀ body, st.signing = some body → v.lks.switchHold = none → v.lks.quoteQ = none →
        (canSign v = false → exec (.sealSigned t) s = .next (withVol s (setFault v pLdg 6)))
          ∧ (canSign v = true → idNext v ≠ some t.val → exec (.sealSigned t) s = .next s)
          ∧ (canSign v = true → idNext v = some t.val →
            let sealed := programAll (putSlot (setLst (nextFree v) t fun st => { st with signing := none, sealing := none }) t
              (padTo 4096 (body ++ Config.ecdsaSign (smapGet (fun _ => []) v.lks.slots 0) (Config.sha384 body) v.free))) t
            exec (.sealSigned t) s = .next (withVol s (if st.due = 0 then sealed else sealStart s.nv sealed t 0))))
      ∧ (nandClocked v = false → ∀ pass, exec (.pageProgramDone t pass) s = .next s ∧ exec (.blockEraseDone b pass) s = .next s)
      ∧ (nandClocked v = true → ∀ p rest, st.progs = p :: rest →
        (lunTurn v (some t.val) p.blk = false → ∀ pass, exec (.pageProgramDone t pass) s = .next s)
          ∧ (lunTurn v (some t.val) p.blk = true →
            let kept := p.slots.filter fun x => isLeaf x || isSeal x
            (∃ u, exec (.pageProgramDone t true) s = .next u ∧ (lst u.vol t).progs = rest ∧ quiet u
                ∧ (lst u.vol t).store = st.store ++ (kept.map fun x => (p.idx, x)).filter (fun e => decide (st.baseIdx ≤ e.1))
                ∧ (lst u.vol t).seals = st.seals + kept.countP isSeal
                ∧ (smapFind u.vol.nand.pages (nandKey p.blk p.page)).map (·.1) = some p.slots
                ∧ (∀ r, ((p.slots.filter isLeaf).getLast?.bind fun x => (recordsOf x).getLast?) = some r →
                  (lst u.vol t).durable = some r.1))
              ∧ ∃ u, exec (.pageProgramDone t false) s = .next u ∧ retires u p.blk
                ∧ (t.val ≠ 0 → (∀ q, q ∈ st.progs → p.idx ≤ q.idx) →
                  (lst u.vol t).progs.flatMap (·.slots) ++ (lst u.vol t).page = st.progs.flatMap (·.slots) ++ st.page)))
      ∧ (nandClocked v = true → v.ldg.op ≠ 1 → v.ldg.op ≠ 10 →
        (v.ldg.erasing.contains b = true → lunTurn v none b = true →
          (∃ u, exec (.blockEraseDone b true) s = .next u ∧ u.vol.ldg.erasing = v.ldg.erasing.erase b ∧ quiet u
              ∧ u.vol.nand.pages = v.nand.pages.filter fun e => e.1 / 65536 != b)
            ∧ ∃ u, exec (.blockEraseDone b false) s = .next u ∧ retires u b)
          ∧ (v.ldg.erasing.contains b = false ∨ lunTurn v none b = false → ∀ pass, exec (.blockEraseDone b pass) s = .next s))
      ∧ (let a := ra (pNand l.chan.val) (0x044 + 4 * l.ce.val)
        let busy := lunBusy v (8 * l.chan.val + l.ce.val) l.lun.val
        let taken := rb v a 30 || scanBusy v (8 * l.chan.val + l.ce.val) l.lun.val
        (busy = true → taken = true → rb v a 28 = false →
          ∃ u, exec (.lunTimeout l) s = .next u ∧ rb u.vol a 28 = true ∧ rb u.vol (aFault pLdg) 5 = true ∧ quiet u
            ∧ (rb v (aEvEn pLdg) 7 = true → rb u.vol (aEvPend pLdg) 7 = true))
          ∧ (busy = false ∨ taken = false ∨ rb v a 28 = true → exec (.lunTimeout l) s = .next s))

/-- Every code written to LKS_CMD while Locksmith is idle starts its command: BUSY is 1, and the command keeps the challenge that
stands; while BUSY a write only sets FAULT.BUSYCMD. DBG_AUTH starts DBGAUTH on DBG_TOKBUF; while Locksmith works it answers BUSY,
and without its bit it does nothing. A RESUME written in a pause after the switch counts at once. Rests on R509, R513, R526, R590. -/
def Obligations.LocksmithCommandsStart : Prop :=
  ∀ (s : State) (m : Fin 16) (i : Instr) (op : Nat) (w : Word),
    let v := s.vol
    let cmd := aLks 0 0x040
    let busy (y : Vol) : Bool := rb y (aLks 0 0x054) 31
    let auth (v' : Vol) : Out := .next (performed s m (ra pDbg 0x040) w v')
    ((i, op) ∈ [(Instr.verify m, 1), (.activate m, 2), (.resume m, 3), (.confirm m, 4), (.reject m, 5), (.quote m, 6), (.hash m, 7),
        (.random m, 8), (.aead m, 9), (.ecdh m, 10), (.sign m, 11), (.ukgen m, 12), (.ukload m, 13), (.incr m, 14), (.dbgauth m, 15),
        (.rootset m, 16), (.idgen m, 17), (.provdata m, 18), (.lcstep m, 19), (.revoke m, 20)] → pageOpen v m pLks = true →
        (busy v = false → ∃ v', exec i s = .next (performed s m cmd (BitVec.ofNat 32 op) v') ∧ busy v' = true ∧ v'.lks.op = op
            ∧ v'.lks.cmdChal = v.lks.chal ∧ v'.lks.tokBuf = false ∧ v'.lks.glitched = false ∧ v'.lks.slots = v.lks.slots
            ∧ v'.sram = v.sram ∧ v'.cores = v.cores
            ∧ v'.lks.resumeDue = (v.lks.resumeDue || (op == 3 && v.lks.pauseAt.isSome && v.lks.switchTo.isNone)))
          ∧ (busy v = true → exec i s = .next (performed s m cmd (BitVec.ofNat 32 op) (setFault v pLks 6))))
      ∧ (pageOpen v m pDbg = true →
        (bit w 0 = true → rb v (ra pDbg 0x044) 31 = false → v.lks.op = 0 → busy v = false →
            ∃ v', exec (.dbgAuth m w) s = auth v' ∧ v'.lks.op = 15 ∧ v'.lks.tokBuf = true ∧ v'.lks.cmdChal = v.lks.chal
              ∧ rg v' (ra pDbg 0x044) = 0x80000000 ∧ busy v' = true ∧ v'.sram = v.sram ∧ v'.cores = v.cores)
          ∧ (bit w 0 = true → rb v (ra pDbg 0x044) 31 = false → v.lks.op ≠ 0 ∨ busy v = true →
            exec (.dbgAuth m w) s = auth (rgSet v (ra pDbg 0x044) 14))
          ∧ (bit w 0 = false ∨ rb v (ra pDbg 0x044) 31 = true → exec (.dbgAuth m w) s = auth v))

/-- The end of a Locksmith command puts its status into LKS_CMDST and raises event 0, or 1 for a refusal; that of a token from
DBG_TOKBUF goes to DBG_AUTHST, and a DBGAUTH or LCSTEP renews the challenge. A command that a glitch struck is aborted, one without
a meaning or outside its life-cycle states refused, and a QUOTE waits for the seals asked for before it. HASH and RANDOM deliver
their bytes; INCR raises one counter by one and no other; CONFIRM raises counter 0 to the image's version and ends probation; ROOTSET
burns its slot; LCSTEP burns its fuse field and resets the part; a burn or record that fails its read-back answers FLASH. Operations of the
identity key that waited go on behind the end. Rests on R483, R486, R489, R512, R515, R518, R519, R520, R524, R526,
R590; log 16, 69. -/
def Obligations.LocksmithCommandsEnd : Prop :=
  ∀ s : State,
    let v := s.vol
    let nv := s.nv
    let op := v.lks.op
    let a (i : Nat) : Nat := lksArg v i
    let status (t : State) : Word := rg t.vol (aLks 0 0x054)
    let ends (nv' : Nv) (v' : Vol) : Out := .next { s with nv := (idGoes nv' v').1, vol := (idGoes nv' v').2 }
    let free := v.lks.switchHold = none ∧ v.lks.quoteQ = none
    (∀ nv' v', v'.lks.switchHold = none → v'.lks.quoteQ = none → idGoes nv' v' = (nv', v'))
      ∧ (ready v pLks = false ∨ rb v (aLks 0 0x054) 31 = false → exec .lksCommandDone s = ends nv v)
      ∧ (ready v pLks = true → rb v (aLks 0 0x054) 31 = true → v.lks.glitched = true →
        exec .lksCommandDone s = ends nv (lksAnswer v 15))
      ∧ (ready v pLks = true → rb v (aLks 0 0x054) 31 = true → v.lks.glitched = false →
        (op = 0 ∨ 20 < op → exec .lksCommandDone s = ends nv (lksAnswer v 18))
          ∧ (1 ≤ op → op ≤ 20 → lksAllowed nv v op = false → op ≠ 6 ∨ canSign v = false →
            exec .lksCommandDone s = ends nv (lksAnswer v 13))
          ∧ (op = 6 → canSign v = true → idNext v ≠ some 64 → exec .lksCommandDone s = ends nv v)
          ∧ (op = 6 → lksAllowed nv v 6 = true → canSign v = false → exec .lksCommandDone s = ends nv (lksAnswer v 3))
          ∧ (op = 6 → lksAllowed nv v 6 = true → canSign v = true → idNext v = some 64 → ∀ v1 nonce v2,
            (∀ k, lksGet nv v (a 0) 32 k = k v1 nonce) →
            (∀ k, lksPut nv (nextFree v1) (a 3) (quoteBytes nv v1 nonce) k = k v2) →
            exec .lksCommandDone s = ends nv (lksAnswer (devLook nv v2 3) 0))
          ∧ (op = 7 → a 1 ≤ 2 ^ 20 → ∀ v1 bs v2, (∀ k, lksGet nv v (a 0) (a 1) k = k v1 bs) →
            (∀ k, lksPut nv v1 (a 3) (padTo 48 (Config.sha384 bs)) k = k v2) →
            exec .lksCommandDone s = ends nv (lksAnswer v2 0))
          ∧ (op = 8 → 1 ≤ a 1 → a 1 ≤ 4096 → ∀ v2, (∀ k, lksPut nv (randomBytes v (a 1)).1 (a 3) (randomBytes v (a 1)).2 k = k v2) →
            exec .lksCommandDone s = ends nv (lksAnswer v2 0))
          ∧ (op = 14 → lksAllowed nv v 14 = true → 4 ≤ a 0 → a 0 ≤ 7 → counterOf nv (a 0) < 1024 → free →
            ∃ t, exec .lksCommandDone s = .next t ∧ (∀ j, j < 8 → j ≠ a 0 → counterOf t.nv j = counterOf nv j)
              ∧ t.nv.flash = nv.flash ∧ t.vol.sram = v.sram ∧ t.vol.cores = v.cores
              ∧ if Config.burnFails v.free then rb t.vol (aFault pLks) 0 = true ∧ (v.lks.tokBuf = false → status t = 11)
                else counterOf t.nv (a 0) = counterOf nv (a 0) + 1 ∧ (v.lks.tokBuf = false → status t = 0)
                  ∧ (v.lks.tokBuf = false → rb v (aEvEn pLks) 0 = true → rb t.vol (aEvPend pLks) 0 = true))
          ∧ (op = 14 → lksAllowed nv v 14 = true → 4 ≤ a 0 → a 0 ≤ 7 → 1024 ≤ counterOf nv (a 0) →
            exec .lksCommandDone s = ends nv (lksAnswer v 16))
          ∧ (op = 4 → probOpen v = true →
            let r := confirmImage nv v
            exec .lksCommandDone s = ends r.1 (lksAnswer r.2.1 r.2.2)
              ∧ r.2.1.sram = v.sram ∧ r.2.1.cores = v.cores ∧ (r.2.2 = 0 ∨ r.2.2 = 11 ∧ probRuns r.2.1 = true)
              ∧ (r.2.2 = 0 → probRuns r.2.1 = false
                ∧ (planeSv nv (activePlane v) ≤ 1024 → counterOf r.1 0 = max (counterOf nv 0) (planeSv nv (activePlane v)))
                ∧ (rb v (aEvEn pLks) 4 = true → rb r.2.1 (aEvPend pLks) 4 = true)))
          ∧ (op = 16 → lcCode nv = 1 → a 0 ≤ 2 → rootFilled nv (a 0) = false → ∀ v1 h, (∀ k, lksGet nv v (a 1) 48 k = k v1 h) →
            let r := burnWords nv v1 (0x300 + 48 * a 0) (wordsOf h)
            exec .lksCommandDone s = ends r.1 (lksAnswer r.2.1 (wroteStatus r.2.2))
              ∧ (r.2.2 = true → r.1 = otpBurnAll nv (0x300 + 48 * a 0) (wordsOf h))
              ∧ (r.2.2 = false → rb r.2.1 (aFault pLks) 0 = true))
          ∧ (op = 19 → lcCode nv = 2 → a 0 = 3 →
            ∃ t, exec .lksCommandDone s = .next t ∧ t.nv = (burnField nv v 1).1 ∧ rg t.vol (ra pRst 0x040) = 32
              ∧ ((burnField nv v 1).2.2 = true → t.nv = fuseField nv 1) ∧ t.vol.sys.mode = .reset ∧ t.vol.sram = []))
      ∧ ∀ (y : Vol) (n : Nat), n < 32 →
        (lksAnswer y n).lks.op = 0
          ∧ (lksAnswer y n).lks.chal = (if y.lks.op = 15 ∨ y.lks.op = 19 then y.free else y.lks.chal)
          ∧ (y.lks.tokBuf = false → rg (lksAnswer y n) (aLks 0 0x054) = BitVec.ofNat 32 n
            ∧ (rb y (aEvEn pLks) (if n = 0 then 0 else 1) = true → rb (lksAnswer y n) (aEvPend pLks) (if n = 0 then 0 else 1) = true))
          ∧ (y.lks.tokBuf = true → rg (lksAnswer y n) (ra pDbg 0x044) = BitVec.ofNat 32 n
            ∧ rb (lksAnswer y n) (aLks 0 0x054) 31 = false)

/-- The messages of the update endpoint while the port is up; every one restarts the 60 s of the session. A malformed message is
answered 1, any message of a BLANK part 13, and neither changes anything else. HELLO opens a session, BEGIN takes an
update, MANIFEST and BLOCK store its pieces, a BLOCK only where its tag and its hash match and the plane is neither locked nor
programmed there, INSTALL copies it, and a program or erase that fails answers FLASH; VERIFY checks the plane, ACTIVATE names the switch, STATUS and QUOTE answer, a QUOTE after the
signatures requested before it, ABORT ends the session; what comes out of order is answered so. Rests on R244, R483, R487, R499, R500, R501, R502, R503, R504, R505, R511; log 16, 70, 71. -/
def Obligations.UpdateMessagesAct : Prop :=
  ∀ (s : State) (msg : List Byte),
    let v := setLks s.vol fun l => { l with msgAt := wall s.vol }
    let nv := s.nv
    let pay := msg.drop 16
    let l := v.lks
    let p := 1 - activePlane v
    let then' (nv' : Nv) (v' : Vol) : Out := .next { s with nv := nv', vol := v' }
    let tells (st : Nat) : Out := then' nv (svcAnswer v msg st [])
    let all : List (Instr × Nat) := [(.hello msg, 1), (.begin msg, 2), (.manifest msg, 3), (.block msg, 4), (.install msg, 5),
      (.servicePortVerify msg, 6), (.servicePortActivate msg, 7), (.status msg, 8), (.abort msg, 9), (.servicePortQuote msg, 10)]
    (svcUp s.vol = false → ∀ i op, (i, op) ∈ all → exec i s = .next s)
      ∧ (svcUp s.vol = true → ready v pLks = true → lcCode nv ≠ 5 → ∀ i op, (i, op) ∈ all →
        (messageOk magicUpdate msg = false ∨ byteAt msg 4 ≠ op → exec i s = tells 1)
          ∧ (messageOk magicUpdate msg = true → byteAt msg 4 = op → lcCode nv = 1 → exec i s = tells 13))
      ∧ (svcUp s.vol = true → ready v pLks = true → 2 ≤ lcCode nv → lcCode nv ≤ 4 → messageOk magicUpdate msg = true →
      (byteAt msg 4 = 1 → exec (.hello msg) s
        = then' nv (svcAnswer (setLks (sessionEnds v) fun l => { l with session := true, phase := 1 }) msg 0 (helloBytes nv v)))
      ∧ (byteAt msg 4 = 2 → pay.length = 4 →
        let staged := decide (byteAt pay 0 % 2 = 1)
        exec (.begin msg) s
          = if l.phase ≠ 1 then tells 2
            else if staged = false ∧ probRuns v = true then tells 10
            else if staged = true ∧ ldgMounted v = false then tells 12
            else then' nv (svcAnswer (setLks v fun l => { l with phase := 2, staged := staged, man := [], stored := [] }) msg 0 []))
      ∧ (let data := pay.drop 4
        let off := (leWord pay 0).toNat
        let man := l.man.take off ++ data ++ l.man.drop (off + data.length)
        let v' := setLks v fun l => { l with man := man }
        byteAt msg 4 = 3 → l.phase = 2 → 1 ≤ data.length → data.length ≤ 4096 → off ≤ l.man.length →
        (man.length < 32 ∨ 1 ≤ manN man ∧ manN man ≤ 2016 ∧ man.length < 608 + 48 * manN man →
            exec (.manifest msg) s = then' nv (svcAnswer v' msg 0 []))
          ∧ (1 ≤ manN man → manN man ≤ 2016 → man.length = 608 + 48 * manN man →
            (manArrived nv v' ≠ 0 →
              exec (.manifest msg) s = then' nv (svcAnswer (setLks v' fun l => { l with man := [] }) msg (manArrived nv v') []))
              ∧ (manArrived nv v' = 0 → l.staged = true →
                exec (.manifest msg) s = then' nv (svcAnswer (setLks v' fun l => { l with phase := 3, stored := [] }) msg 0 []))
              ∧ (manArrived nv v' = 0 → l.staged = false →
                let r := planeStart nv v' p
                exec (.manifest msg) s = then' r.1 (if r.2.2 then svcAnswer (setLks r.2.1 fun l => { l with phase := 3, stored := [] }) msg 0 []
                    else svcAnswer (setLks r.2.1 fun l => { l with man := [] }) msg 11 [])
                  ∧ (r.2.2 = true → r.1 = unitsWrite (flashErase nv (p * 0x800000) 0x800000) (manifestAt p) man)
                  ∧ planeVerified r.2.1 p = false)))
      ∧ (let b := (leWord pay 0).toNat
        let ct := (pay.drop 4).take 4096
        let tag := (pay.drop 4104).take 16
        let at' := p * 0x800000 + 4096 * b
        let opened := (manKey v l.man).bind fun k =>
          Config.gcmOpen k ((l.man.drop 16).take 8 ++ beBytes 4 b) ((l.man.drop 8).take 24) ct tag
        let kept (v : Vol) : Vol := setLks v fun l => { l with stored := l.stored ++ [b] }
        (byteAt msg 4 = 4 → l.phase = 3 → pay.length = 4120 → b < manN l.man →
          exec (.block msg) s
            = if leWord pay 4100 ≠ crc32c (ct ++ tag) ∨ opened.isNone then tells 8
              else if Config.sha384 ct ≠ (l.man.drop (512 + 48 * b)).take 48 then tells 9
              else if l.stored.contains b then tells 0
              else if l.staged then
                (let r := stagingWrite nv (nextFree v) b ct (!Config.flashFails v.free)
                 if ldgMounted v then then' nv (if r.2 then svcAnswer (kept r.1) msg 0 [] else svcAnswer r.1 msg 11 []) else tells 12)
              else if v.flc.op ≠ 0 then tells 14
              else then' (planeProgram nv v at' ct).1 (svcAnswer (if (planeProgram nv v at' ct).2.2 = 0
                then kept (planeProgram nv v at' ct).2.1 else (planeProgram nv v at' ct).2.1) msg (planeProgram nv v at' ct).2.2 []))
          ∧ (probRuns v = true → (planeProgram nv v at' ct).1 = nv ∧ (planeProgram nv v at' ct).2.2 = 10)
          ∧ (probRuns v = false → flashIsBlank nv at' ct.length = false →
            (planeProgram nv v at' ct).1 = nv ∧ (planeProgram nv v at' ct).2.2 = 11)
          ∧ (probRuns v = false → flashIsBlank nv at' ct.length = true →
            let r := unitsTry nv (planeUnverify v (at' / 0x800000)) at' ct
            planeProgram nv v at' ct = (r.1, r.2.1, wroteStatus r.2.2)
              ∧ (Config.flashFails v.free = false → r.2.2 = true ∧ r.1 = unitsWrite nv at' ct)
              ∧ (Config.flashFails v.free = true → r.2.2 = false ∧ rb r.2.1 (aFault pFlc) 4 = true)))
      ∧ (byteAt msg 4 = 5 → probRuns v = false → l.phase = 3 → l.staged = true → manN l.man ≤ l.stored.length → ldgMounted v = true →
        v.flc.op = 0 →
        ∃ nv' v' st, exec (.install msg) s = then' nv' (svcAnswer (if st = 0 then setLks v' fun l => { l with phase := 4 } else v') msg st [])
          ∧ (nv', v', st) = (List.range (manN l.man)).foldl (fun r b => if r.2.2 ≠ 0 then r else
              planeProgram r.1 r.2.1 (p * 0x800000 + 4096 * b) (stagingUnit v b)) ((planeStart nv v p).1, (planeStart nv v p).2.1,
                wroteStatus (planeStart nv v p).2.2)
          ∧ nv'.otp = nv.otp ∧ planeVerified v' p = false ∧ v'.sram = v.sram ∧ v'.cores = v.cores)
      ∧ (byteAt msg 4 = 6 → probRuns v = true → exec (.servicePortVerify msg) s = tells 10)
      ∧ (byteAt msg 4 = 6 → probRuns v = false →
        l.phase = 4 ∨ l.phase = 3 ∧ l.staged = false ∧ manN l.man ≤ l.stored.length →
        let st := if v.flc.op ≠ 0 ∧ v.flc.op ≠ 4 ∧ v.flc.addr / 0x800000 = p then 17 else planeStatus nv v p
        (st ≠ 0 → exec (.servicePortVerify msg) s = tells st)
          ∧ (st = 0 → exec (.servicePortVerify msg) s
              = then' nv (svcAnswer (setLks (planeMark nv v p) fun l => { l with phase := 5 }) msg 0 []))
          ∧ planeVerified (planeMark nv v p) p = true)
      ∧ (byteAt msg 4 = 7 → pay.length = 8 →
        let tick := (leWord pay 0).toNat + (leWord pay 4).toNat * 2 ^ 32
        (l.phase ≠ 5 → exec (.servicePortActivate msg) s = tells 2)
          ∧ (l.phase = 5 → activateStatus nv v ≠ 0 → exec (.servicePortActivate msg) s = tells (activateStatus nv v))
          ∧ (l.phase = 5 → activateStatus nv v = 0 → l.recovery = true → exec (.servicePortActivate msg) s
            = then' (writeImageState nv p 1 (activePlane v)) (wholeReset (svcAnswer v msg 0 []) 6 none))
          ∧ (l.phase = 5 → activateStatus nv v = 0 → l.recovery = false →
            ∃ t, exec (.servicePortActivate msg) s = .next t
              ∧ switchWaits t.vol = true ∧ t.vol.lks.fallback = false ∧ t.vol.ldg.held = true ∧ t.nv.otp = nv.otp ∧ t.vol.sram = v.sram
              ∧ (l.quoteQ = none → (∀ j, j < 64 → (lst v j).segTicks = none ∧ (lst v j).signing = none) →
                t.vol.lks.switchTo = some (p, tick) ∧ t.vol.lks.resp = response magicUpdate msg 0 0 [])))
      ∧ (byteAt msg 4 = 8 → exec (.status msg) s = then' nv (svcAnswer v msg 0 ([BitVec.ofNat 8 (svcPhase v), 0, 0, 0]
        ++ leBytes 4 l.stored.length ++ leBytes 4 (if probRuns v then secsTo v l.probEnd else 0))))
      ∧ (byteAt msg 4 = 9 → exec (.abort msg) s = then' nv (svcAnswer (sessionEnds v) msg 0 []))
      ∧ (byteAt msg 4 = 10 → pay.length = 32 →
        (canSign v = false → exec (.servicePortQuote msg) s = tells 3)
          ∧ (canSign v = true → l.idq = [] → l.quoteQ = none → l.switchHold = none →
            exec (.servicePortQuote msg) s = then' nv (svcAnswer (nextFree (devLook nv v 3)) msg 0 (quoteBytes nv v pay)))
          ∧ (∀ n, canSign v = true → idNext v = some n → n < 65 → l.switchHold = none →
            exec (.servicePortQuote msg) s = then' nv (setLks v fun l => { l with quoteQ := some msg, idq := l.idq ++ [65] }))))

/-- The events of Locksmith. The switch makes the plane active, clears every branch buffer and starts the service core at its entry;
a pause that lasts too long brings SAFE in; probation warns, and when it expires the part falls back to the other plane, whose record
follows the procedure. Two steps of the mesh at which TMESHI differs are a tamper. A tamper or a
glitch clears every key but the image keys, ends signing and raises its event; a glitch also aborts the command that runs. A session
and debug access end when their time does. An event without its cause changes nothing. Rests on R500, R507, R510, R511, R512, R513,
R519, R523, R524, R525; log 49, 70, 116. -/
def Obligations.LocksmithEventsAct : Prop :=
  ∀ s : State,
    let v := s.vol
    let l := v.lks
    let quiet (t : State) : Prop := t.nv = s.nv ∧ t.vol.sram = v.sram ∧ t.vol.cores = v.cores
    let cleared (t : State) : Prop := t.vol.lks.noSign = true ∧ (∀ k, slotOf t.vol k = if k = 1 ∨ k = 2 then slotOf v k else [])
      ∧ t.vol.sram = v.sram ∧ t.vol.cores = v.cores ∧ t.nv.otp = s.nv.otp ∧ (l.switchHold = none → t.nv = s.nv)
    (∀ p tick, l.atS = true → l.switchTo = some (p, tick) → p ≤ 1 → (coreOf v 8).sbuf = [] → v.cores.length = 9 →
        ∃ t, exec .activationSwitch s = .next t ∧ t.vol.lks.switchTo = none ∧ t.vol.lks.atS = false ∧ activePlane t.vol = p ∧ (coreOf t.vol 8).run = true
          ∧ (∀ k, k < 9 → (coreOf t.vol k).btb = [] ∧ sysW (coreOf t.vol k) 0x51 = BitVec.ofNat 32 (planeEntry s.nv p / 16 * 16))
          ∧ rg t.vol (ra (pCore 8) 0x040) = BitVec.ofNat 32 (planeEntry s.nv p) ∧ t.nv = s.nv ∧ t.vol.sram = v.sram)
      ∧ (l.atS = false ∨ l.switchTo = none → exec .activationSwitch s = .next s)
      ∧ (∀ at', l.pauseAt = some at' → l.resumeDue = false → at' + 600000 ≤ v.tick.boundary → safeAtOnce v.sys.mode = true →
        ∃ t, exec .pauseTimeout s = .next t ∧ t.vol.sys.mode = .safe ∧ t.vol.lks.pauseAt = none ∧ t.nv = s.nv ∧ t.vol.sram = v.sram)
      ∧ (∀ at', l.pauseAt = some at' → l.resumeDue = true ∨ v.tick.boundary < at' + 600000 → exec .pauseTimeout s = .next s)
      ∧ (l.pauseAt = none → exec .pauseTimeout s = .next s)
      ∧ (exec .probationWarning s
        = .next (if probOpen v then withVol s (raiseEvent (wallTo v (l.probEnd - 24000000000)) pLks 3) else s))
      ∧ (probOpen v = true → l.op ≠ 4 → switchWaits v = false →
        ∃ t, exec .probationExpiry s = .next t ∧ probRuns t.vol = true ∧ switchWaits t.vol = true ∧ t.vol.lks.fallback = true
          ∧ t.vol.now = (wallTo v l.probEnd).now ∧ t.nv.otp = s.nv.otp ∧ t.vol.sram = v.sram ∧ t.vol.cores = v.cores
          ∧ (l.quoteQ = none → (∀ j, j < 64 → (lst v j).segTicks = none ∧ (lst v j).signing = none) →
            t.vol.lks.switchTo = some (1 - activePlane v, 0)))
      ∧ (probOpen v = true → l.op ≠ 4 → switchWaits v = true →
        exec .probationExpiry s = .next (withVol s (wallTo v l.probEnd)))
      ∧ (probOpen v = false ∨ l.op = 4 → exec .probationExpiry s = .next s)
      ∧ (l.fellDue = true →
        (fellBack s.nv v).1 = writeImageState s.nv (activePlane v) 0 (activePlane v) ∧ probRuns (fellBack s.nv v).2 = false
          ∧ rb (fellBack s.nv v).2 (aLks 0 0x05C) 5 = true
          ∧ (rb v (aEvEn pLks) 5 = true → rb (fellBack s.nv v).2 (aEvPend pLks) 5 = true))
      ∧ (ready v pLks = true → rf v (aLks 0 0x094) 1 0 ≠ 0 →
        ∃ t, exec .tamper s = .next t ∧ cleared t ∧ rb t.vol (aFault pLks) 3 = true ∧ t.vol.lks.tampered = true
          ∧ t.vol.lks.session = false ∧ (rb v (aEvEn pLks) 8 = true → rb t.vol (aEvPend pLks) 8 = true))
      ∧ (ready v pLks = false ∨ rf v (aLks 0 0x094) 1 0 = 0 → exec .tamper s = .next s)
      ∧ (v.sys.mode ≠ .cold →
        ∃ t, exec .glitch s = .next t ∧ cleared t ∧ rb t.vol (aFault pLks) 4 = true ∧ t.vol.lks.glitched = rb v (aLks 0 0x054) 31
          ∧ t.vol.lks.resumeDue = (l.resumeDue && !(rb v (aLks 0 0x054) 31 && l.op == 3 && l.ownResume))
          ∧ rg t.vol (aLks 0 0x098) = rg v (aLks 0 0x098) + 1 ∧ (rb v (aEvEn pLks) 9 = true → rb t.vol (aEvPend pLks) 9 = true))
      ∧ (v.sys.mode = .cold → exec .glitch s = .next s)
      ∧ (∀ mismatch, exec (.coldTamperCheck mismatch) s
        = .next (if v.sys.mode == .cold && v.sys.mesh2 then
            let w := wallTo v (l.meshAt + 400000000)
            withVol s (setSysP (setLks w fun l => { l with meshAt := wall w }) fun y => { y with coldTamp := y.coldTamp || mismatch })
          else s))
      ∧ (exec .sessionTimeout s = .next (if l.session then withVol s (setLks (wallTo v (l.msgAt + 24000000000)) fun l =>
        { l with session := false, phase := 0, staged := false, man := [], stored := [] }) else s))
      ∧ (rg v (aLks 2 0x054) ≠ 0 →
        ∃ t, exec .debugAccessExpiry s = .next t ∧ rg t.vol (aLks 2 0x054) = 0 ∧ t.vol.now = (wallTo v l.dbgDone).now ∧ quiet t)
      ∧ (rg v (aLks 2 0x054) = 0 → exec .debugAccessExpiry s = .next s)

/-! ### Host interfaces -/

/-- A sound Ethernet frame that the filter admits joins the receive buffer while it fits and is dropped whole and counted
otherwise, a PTP event message timestamped either way; a PAUSE frame holds the transmitter; a bad check sequence sets FAULT.RXCRC.
ETH_RXDATA takes the head frame word by word; ETH_TXDATA makes a frame of ETH_TXLEN bytes ready, padded to 60, and does nothing before
a valid length; a frame sent leaves with event 1. ETH_TSQ[3] removes the head entry. MDIO is BUSY until its operation ends. Nothing is
received, sent or ended without the I/O clock. Rests on R568, R569, R570, R571, R591, R596, R597; log 31, 32, 114, 115. -/
def Obligations.EthernetAct : Prop :=
  ∀ (s : State) (m : Fin 16) (f : List Byte) (w : Word) (data : BitVec 16),
    let v := s.vol
    let e := v.eth
    let quiet (t : State) : Prop := t.nv = s.nv ∧ t.vol.sram = v.sram ∧ t.vol.cores = v.cores
    let takes := ready v pEth && ioClocked v && rb v (aCtl pEth) 1 && decide (60 ≤ f.length) && decide (f.length ≤ 1518)
    let pause := f.take 6 = [0x01, 0x80, 0xC2, 0x00, 0x00, 0x01] ∧ be16 f 12 = 0x8808 ∧ be16 f 14 = 1
    let v1 := match ptpHeaderAt f with
      | some i => ethStamp v false f i (-(rf v (ra pEth 0x064) 15 0 : Int))
      | none => v
    (takes = false → ∀ good, exec (.ethFrameReceived f good) s = .next s)
      ∧ (takes = true → exec (.ethFrameReceived f false) s = .next (withVol s (setFault v pEth 0)))
      ∧ (takes = true → pause → exec (.ethFrameReceived f true) s = .next (if rb v (ra pEth 0x048) 1 then withVol s { v with
          eth := { e with hold := v.now + be16 f 16 * (if rb v (ra pEth 0x048) 0 then 2048 else 20480) } } else s))
      ∧ (takes = true → ¬pause → ethAdmits v f = false → exec (.ethFrameReceived f true) s = .next s)
      ∧ (takes = true → ¬pause → ethAdmits v f = true → (e.rx.map frameWords).sum + frameWords f ≤ 2048 →
        exec (.ethFrameReceived f true) s = .next (withVol s (raiseEvent { v1 with
          eth := { v1.eth with rx := e.rx ++ [f], rxTs := e.rxTs ++ [(ptpHeaderAt f).isSome] } } pEth 0)))
      ∧ (takes = true → ¬pause → ethAdmits v f = true → 2048 < (e.rx.map frameWords).sum + frameWords f →
        exec (.ethFrameReceived f true) s = .next (withVol s (raiseEvent (rgInc v1 (ra pEth 0x07C)) pEth 3)))
      ∧ (pageOpen v m pEth = true →
        (∀ g rest, e.rx = g :: rest → exec (.ethRxdata m) s
            = .next (performedRead s m (ra pEth 0x058) (leWord g (4 * e.rxPos)) { v with
                eth := if frameWords g ≤ e.rxPos + 1 then { e with rx := rest, rxTs := e.rxTs.tail, rxPos := 0 }
                  else { e with rxPos := e.rxPos + 1 } }))
          ∧ (e.rx = [] → exec (.ethRxdata m) s = .next (performedRead s m (ra pEth 0x058) 0 v))
          ∧ exec (.ethTxlen m w) s
            = .next (performed s m (ra pEth 0x05C) w { regWrite v pEth 0x05C .direct w with eth := { e with tx := [] } })
          ∧ (let len := rf v (ra pEth 0x05C) 10 0
            let buf := e.tx ++ wordBytes w
            exec (.ethTxdata m w) s = .next (performed s m (ra pEth 0x060) w { v with
              eth := if len < 14 then e
                else if len ≤ buf.length
                then { e with tx := [], txQ := e.txQ ++ [buf.take len ++ List.replicate (60 - (buf.take len).length) 0] }
                else { e with tx := buf } }))
          ∧ exec (.ethTsq3Read m) s
            = .next (performedRead s m (ra pEth 0x074) (ethTsq v 3) { v with eth := { e with tsq := e.tsq.tail } })
          ∧ (e.mdio = true → exec (.ethMdio m w) s = .next (performed s m (ra pEth 0x078) w v))
          ∧ (e.mdio = false → ∃ v', exec (.ethMdio m w) s = .next (performed s m (ra pEth 0x078) w v') ∧ v'.eth.mdio = true
            ∧ rb v' (ra pEth 0x078) 31 = true ∧ v'.sram = v.sram ∧ v'.cores = v.cores))
      ∧ (∀ g rest, ready v pEth = true → ioClocked v = true → rb v (aCtl pEth) 0 = true → e.txQ = g :: rest →
        ∃ t, exec .ethFrameSent s = .next t ∧ t.vol.eth.txQ = rest ∧ t.vol.eth.sent = g ∧ t.vol.now = max v.now e.hold ∧ quiet t
          ∧ (ptpHeaderAt g = none → t.vol.eth.tsq = e.tsq)
          ∧ (∀ i, ptpHeaderAt g = some i → e.tsq.length < 16 → t.vol.eth.tsq.length = e.tsq.length + 1)
          ∧ (∀ i, ptpHeaderAt g = some i → 16 ≤ e.tsq.length → t.vol.eth.tsq = e.tsq ∧ rb t.vol (aFault pEth) 1 = true)
          ∧ (rb v (aEvEn pEth) 1 = true → rb t.vol (aEvPend pEth) 1 = true))
      ∧ (ready v pEth = false ∨ ioClocked v = false ∨ rb v (aCtl pEth) 0 = false ∨ e.txQ = [] → exec .ethFrameSent s = .next s)
      ∧ (e.mdio = true → ioClocked v = true →
        ∃ t, exec (.mdioDone data) s = .next t ∧ t.vol.eth.mdio = false ∧ rb t.vol (ra pEth 0x078) 31 = false ∧ quiet t
          ∧ (rb v (ra pEth 0x078) 26 = true → rf t.vol (ra pEth 0x078) 15 0 = data.toNat)
          ∧ (rb v (aEvEn pEth) 4 = true → rb t.vol (aEvPend pEth) 4 = true))
      ∧ (e.mdio = false ∨ ioClocked v = false → exec (.mdioDone data) s = .next s)

/-- CTL.SET and CTL.STEP set and shift PTP time; a write of PTP_RATE changes the rate without a jump; CTL.SYNC sets SYNCED, and
SYNCED falls with it or when PTP_HOLD runs out, with event 0, and a tick whose source is PTP then loses it. A read of PTP_NS latches
the seconds; a whole second starts the pulse; a rising edge on PTP_CAP latches the time. Rests on R52, R572, R573, R574, R592;
log 30, 116. -/
def Obligations.PtpClockActs : Prop :=
  ∀ (s : State) (m : Fin 16) (w : Word),
    let v := s.vol
    let n := ptpNow v
    let hold := rf v (ra pPtp 0x060) 15 0
    let quiet (v' : Vol) : Prop := v'.sram = v.sram ∧ v'.cores = v.cores
    (pageOpen v m pPtp = true → rb v (aCtl pPtp) 1 = false → rb v (aCtl pPtp) 2 = false →
        (∃ v', exec (.set m) s = .next (performed s m (aCtl pPtp + 0x400) 2 v') ∧ rb v' (aCtl pPtp) 1 = false ∧ quiet v'
            ∧ v'.ptp = { v.ptp with
                sec := (rg v (ra pPtp 0x054)).toNat + rf v (ra pPtp 0x058) 15 0 * 4294967296
                ns := rf v (ra pPtp 0x050) 29 0, frac := 0, since := v.now })
          ∧ (∃ v', exec (.step m) s = .next (performed s m (aCtl pPtp + 0x400) 4 v') ∧ rb v' (aCtl pPtp) 2 = false ∧ quiet v'
            ∧ v'.ptp.since = v.now
            ∧ (v'.ptp.sec, v'.ptp.ns, v'.ptp.frac)
              = ptpNorm (ptpTotal (ptpRebase v).ptp + (rg v (ra pPtp 0x05C)).toInt * 4294967296))
          ∧ (∃ v', exec (.sync m true) s = .next (performed s m (aCtl pPtp + 0x400) 8 v') ∧ rb v' (aStat pPtp) 0 = true ∧ quiet v')
          ∧ (rb v (aCtl pPtp) 3 = false → ∃ v', exec (.sync m false) s = .next (performed s m (aCtl pPtp + 0x800) 8 v')
            ∧ rb v' (aStat pPtp) 0 = rb v (aStat pPtp) 0 ∧ quiet v')
          ∧ (rb v (aCtl pPtp) 3 = true → ∃ v', exec (.sync m false) s = .next (performed s m (aCtl pPtp + 0x800) 8 v')
            ∧ rb v' (aStat pPtp) 0 = false ∧ quiet v'
            ∧ (rb v (aStat pPtp) 0 = true → rb v (aEvEn pPtp) 0 = true → rb v' (aEvPend pPtp) 0 = true)
            ∧ (rb v (aStat pPtp) 0 = true → v.tick.running = true → tickSource v = 1 → rb v' (aFault pTick) 16 = true)))
      ∧ (pageOpen v m pPtp = true →
        let r := regWrite { ptpRebase v with ptp := { (ptpRebase v).ptp with rateAt := v.now } } pPtp 0x04C .direct w
        exec (.ptpRate m w) s = .next (performed s m (ra pPtp 0x04C) w r)
          ∧ ptpNow r = n
          ∧ exec (.ptpNsRead m) s = .next (performedRead s m (ra pPtp 0x040) (BitVec.ofNat 32 n.2.1)
            (rgSet (rgSet v (ra pPtp 0x044) (BitVec.ofNat 32 (n.1 % 2 ^ 32))) (ra pPtp 0x048) (BitVec.ofNat 32 (n.1 / 2 ^ 32)))))
      ∧ (hold ≠ 0 → rb v (aStat pPtp) 0 = true →
        let u := raiseEvent (rgClr { v with now := max v.now (v.ptp.rateAt + hold * 400000) } (aStat pPtp) 1) pPtp 0
        exec .ptpHoldExpiry s = .next (withVol s (if v.tick.running && tickSource v == 1 then sourceLoss u else u)))
      ∧ (hold = 0 ∨ rb v (aStat pPtp) 0 = false → exec .ptpHoldExpiry s = .next s)
      ∧ exec .pps s = .next (if ready v pPtp && rb v (aCtl pPtp) 0 then withVol s (raiseEvent { v with
          now := v.now + ptpToSecond v
          ptp := { v.ptp with ppsEnd := v.now + ptpToSecond v + rf v (ra pPtp 0x064) 15 0 * 400 } } pPtp 1) else s)
      ∧ (ready v pPtp = false → exec .ptpCap s = .next s)
      ∧ (ready v pPtp = true → ∃ t, exec .ptpCap s = .next t ∧ rg t.vol (ra pPtp 0x068) = BitVec.ofNat 32 n.2.1
          ∧ rg t.vol (ra pPtp 0x06C) = BitVec.ofNat 32 (n.1 % 2 ^ 32) ∧ rg t.vol (ra pPtp 0x070) = BitVec.ofNat 32 (n.1 / 2 ^ 32)
          ∧ (rb v (aEvEn pPtp) 2 = true → rb t.vol (aEvPend pPtp) 2 = true) ∧ t.nv = s.nv ∧ quiet t.vol)

/-- A CAN frame that passes a filter enters the receive FIFO as a record of 20 words, which CAN_RXDATA takes one by one, or is lost
with RXOVF when the FIFO is full; the 20th word written to CAN_TXDATA puts a record into a free buffer, or loses it; the frame of
lowest identifier is sent first, and in loopback received. Bus-off sets its state, its fault and events 2 and 3; a rejoin clears it.
A controller that is off the bus does none of this. Rests on R576, R577, R593, R596; log 33, 34. -/
def Obligations.CanControllersAct : Prop :=
  ∀ (s : State) (m : Fin 16) (e : Fin 2) (f : CanFrame) (w : Word),
    let v := s.vol
    let c := canOf v e
    let err := ra (pCan e) 0x04C
    let quiet (t : State) : Prop := t.nv = s.nv ∧ t.vol.sram = v.sram ∧ t.vol.cores = v.cores
    let hears := canOnBus v e && !(f.fdf && f.rtr) && !rb v (aCtl (pCan e)) 2
    let rejoins := ready v (pCan e) && rb v (aCtl (pCan e)) 0 && !rb v (aStat pClk) 4 && rb v (aCtl (pCan e)) 3 && rf v err 25 24 == 2
    v.can.length = 2 →
    (hears = false → exec (.canFrameReceived e f) s = .next s)
      ∧ (hears = true → canMatch v e f = none → exec (.canFrameReceived e f) s = .next (withVol s (canErrDown v e 15 8)))
      ∧ (∀ i, hears = true → canMatch v e f = some i →
        (c.rx.length < 32 → ∃ t, exec (.canFrameReceived e f) s = .next t ∧ quiet t
            ∧ canOf t.vol e = { c with rx := c.rx ++ [canRecord f i v.tick.number.toNat (tickCyc v)] }
            ∧ (rb v (aEvEn (pCan e)) 0 = true → rb t.vol (aEvPend (pCan e)) 0 = true))
          ∧ (32 ≤ c.rx.length → ∃ t, exec (.canFrameReceived e f) s = .next t ∧ quiet t ∧ canOf t.vol e = c
            ∧ rb t.vol (aFault (pCan e)) 0 = true ∧ (rb v (aEvEn (pCan e)) 4 = true → rb t.vol (aEvPend (pCan e)) 4 = true)))
      ∧ (pageOpen v m (pCan e) = true →
        (∀ r rest, c.rx = r :: rest → exec (.canRxdata m e) s = .next (performedRead s m (ra (pCan e) 0x050) (r.getD c.rxPos 0)
            (canPut v e (if 20 ≤ c.rxPos + 1 then { c with rx := rest, rxPos := 0 } else { c with rxPos := c.rxPos + 1 }))))
          ∧ (c.rx = [] → exec (.canRxdata m e) s = .next (performedRead s m (ra (pCan e) 0x050) 0 v))
          ∧ (c.txPart.length < 19 → exec (.canTxdata m e w) s
            = .next (performed s m (ra (pCan e) 0x054) w (canPut v e { c with txPart := c.txPart ++ [w] })))
          ∧ (19 ≤ c.txPart.length → canFreeBuf c = none → exec (.canTxdata m e w) s
            = .next (performed s m (ra (pCan e) 0x054) w (canPut v e { c with txPart := [] })))
          ∧ ∀ i, 19 ≤ c.txPart.length → canFreeBuf c = some i → exec (.canTxdata m e w) s
            = .next (performed s m (ra (pCan e) 0x054) w (canPut v e { c with txPart := [], tx := smapPut c.tx i (c.txPart ++ [w]) })))
      ∧ (∀ i r, canOnBus v e = true → rb v (aCtl (pCan e)) 1 = false → canNext c.tx = some (i, r) →
        let sent := raiseEvent (canErrDown (canPut v e { c with tx := smapErase c.tx i }) e 7 0) (pCan e) 1
        exec (.canFrameSent e) s = .next (withVol s (if rb v (aCtl (pCan e)) 2 then canAccept sent e (canFrameOf r) else sent))
          ∧ canOf sent e = { c with tx := smapErase c.tx i }
          ∧ (∀ x, x ∈ c.tx → fld (r.getD 0 0) 28 0 ≤ fld (x.2.getD 0 0) 28 0)
          ∧ (rb v (aEvEn (pCan e)) 1 = true → rb sent (aEvPend (pCan e)) 1 = true))
      ∧ (canOnBus v e = false ∨ rb v (aCtl (pCan e)) 1 = true ∨ c.tx = [] → exec (.canFrameSent e) s = .next s)
      ∧ (canOnBus v e = true →
        ∃ t, exec (.busOff e) s = .next t ∧ rf t.vol err 25 24 = 2 ∧ rb t.vol (aFault (pCan e)) 1 = true ∧ quiet t
          ∧ ∀ i, (i = 2 ∨ i = 3) → rb v (aEvEn (pCan e)) i = true → rb t.vol (aEvPend (pCan e)) i = true)
      ∧ (canOnBus v e = false → exec (.busOff e) s = .next s)
      ∧ exec (.busOffRecovery e) s = .next (if rejoins then withVol s (raiseEvent (rgSet v err 0) (pCan e) 2) else s)

/-- Host SPI performs its words on the bus as they arrive and shifts out each answer after its marker, most significant byte
first, its wait or its error; a refused access raises event 0, a write also FAULT.REFUSED; another command sets FAULT.BADCMD; a
transaction cut inside a word sets FAULT.SHORT; without its domain it shifts out ones. The service port attaches while SVC_VBUS is
up, its CTL.EN is 1 and the part is not SCRAPPED; a reset, an address and a configuration bring it up with event 0; it suspends and
resumes; the loss of SVC_VBUS detaches it with event 2. Without the I/O clock the USB bus does nothing. Rests on R578, R579, R580,
R582, R595, R596, R597; log 72, 73. -/
def Obligations.HostPortsAct : Prop :=
  (∀ (s : State) (a w : Word) (ws : List Word) (n : Nat) (cmd : Byte),
    let v := s.vol
    let waits (y : Vol) : Bool := y.parked.any fun q => q.master == 15 && q.id == 1
    let rq (write : Bool) (x : Nat) (d : Word) : Req := ⟨15, 1, write, .word, x, ⟨d, Tag.raw⟩⟩
    let shows (y : Vol) (out : List Byte) : Out := .next (withVol s (setHsp y (if ready y pHsp then 2 else 0) out))
    let next := (a.toNat + 4) % 2 ^ 32
    (ready v pHsp = false →
        exec (.hspWrite a ws) s = .next (withVol s (setHsp v 0 (List.replicate (4 * ws.length) 0xFF)))
          ∧ exec (.hspRead a n) s = .next (withVol s (setHsp v 0 ([0xFF] ++ List.replicate (5 * n) 0xFF)))
          ∧ exec .hspStatus s = .next (withVol s (setHsp v 0 [0xFF])) ∧ exec (.hspBadCommand cmd) s = .next s)
      ∧ (ready v pHsp = true →
      (exec (.hspWrite a ws) s = .next (withVol s
          (let x := hspPut s.nv ws a.toNat (hspBegin v 1)
           setHsp x (if ready x pHsp then 1 else 0) (List.replicate (4 * ws.length) 0))))
        ∧ (a.toNat % 4 = 0 → rb v (aCtl pHsp) 0 = true → rb v (aCtl pHsp) 1 = true →
          hspPut s.nv [w] a.toNat (hspBegin v 1) = busAccess s.nv (hspBegin v 1) (rq true a.toNat w))
        ∧ (a.toNat % 4 ≠ 0 ∨ rb v (aCtl pHsp) 0 = false ∨ rb v (aCtl pHsp) 1 = false →
          hspPut s.nv [w] a.toNat (hspBegin v 1) = raiseEvent (setFault (hspBegin v 1) pHsp 0) pHsp 0)
        ∧ (a.toNat % 4 ≠ 0 ∨ rb v (aCtl pHsp) 0 = false →
          exec (.hspRead a n) s = .next (withVol s (setHsp (raiseEvent (hspBegin v 2) pHsp 0) 2 [0xFF, 0xE8])))
        ∧ (a.toNat % 4 = 0 → rb v (aCtl pHsp) 0 = true →
          let x := busAccess s.nv (hspBegin v 2) (rq false a.toNat 0)
          let y := busAccess s.nv x (rq false next 0)
          (waits x = true → ∃ t, exec (.hspRead a n) s = .next t ∧ t.vol.hsp.out = [0xFF, 0xFF] ∧ t.vol.hsp.left = some (n, a.toNat))
            ∧ (waits x = false → 0 < n → x.ans.code ≠ 0 → exec (.hspRead a n) s = shows x [0xFF, BitVec.ofNat 8 (0xE0 + x.ans.code)])
            ∧ (waits x = false → x.ans.code = 0 → ready x pHsp = true → rb x (aCtl pHsp) 0 = true → waits y = false →
              exec (.hspRead a 1) s = shows y ([0xFF, 0xA5] ++ (wordBytes x.ans.data.data).reverse)))
        ∧ (let busy := v.parked.any fun q => q.master == 15 && q.id == 1 && q.write
          exec .hspStatus s = .next (withVol s (setHsp (hspBegin v 3) 3
            [BitVec.ofNat 8 (b2n busy * 128 + rf v (ra pHsp 0x040) 2 0 * 16)])))
        ∧ (cmd ≠ 0x02 → cmd ≠ 0x0B → cmd ≠ 0x05 →
          exec (.hspBadCommand cmd) s = .next (withVol s (setFault (hspBegin v 3) pHsp 2))))
      ∧ (let ended := { v with hsp := { v.hsp with kind := 0, left := none } }
        let short := ready v pHsp && (v.hsp.kind == 1 || v.hsp.kind == 2) && n % 32 != 0
        exec (.hspCsRise n) s = .next (withVol s (if short then raiseEvent (setFault ended pHsp 1) pHsp 0 else ended))))
    ∧ (∀ (s : State) (x : Fin 128) (c : Byte),
    let v := s.vol
    let quiet (t : State) : Prop := t.nv = s.nv ∧ t.vol.sram = v.sram ∧ t.vol.cores = v.cores
    let request (l : List Byte) : Out := exec (.usbStandardRequest l) s
    (ready v pSvc = true → rb v (aCtl pSvc) 0 = true → lifeCycle s.nv ≠ 4 → svcState v = 0 →
        ∃ t, exec .vbusConnect s = .next t ∧ svcState t.vol = 1 ∧ t.vol.svc.vbus = true ∧ quiet t)
      ∧ (ready v pSvc = false ∨ rb v (aCtl pSvc) 0 = false ∨ lifeCycle s.nv = 4 → svcState v = 0 →
        exec .vbusConnect s = .next (withVol s { v with svc := { v.svc with vbus := true } }))
      ∧ (svcState v ≠ 0 → ∃ t, exec .vbusLoss s = .next t ∧ svcState t.vol = 0 ∧ t.vol.svc.vbus = false ∧ quiet t
        ∧ (rb v (aEvEn pSvc) 2 = true → rb t.vol (aEvPend pSvc) 2 = true))
      ∧ (svcState v = 0 → exec .vbusLoss s = .next (withVol s { v with svc := { v.svc with vbus := false } }))
      ∧ (ready v pSvc = false ∨ ioClocked v = false →
        exec .usbBusReset s = .next s ∧ exec .usbSuspend s = .next s ∧ exec .usbResume s = .next s ∧ ∀ l, request l = .next s)
      ∧ (ready v pSvc = true → ioClocked v = true →
        (svcState v ≠ 0 → ∃ t, exec .usbBusReset s = .next t ∧ svcState t.vol = 2 ∧ rf t.vol (ra pSvc 0x040) 14 8 = 0
            ∧ t.vol.svc.config = 0 ∧ quiet t)
          ∧ (svcState v ≠ 0 → svcState v ≠ 5 → ∃ t, exec .usbSuspend s = .next t ∧ svcState t.vol = 5 ∧ t.vol.svc.prev = svcState v
            ∧ quiet t ∧ (rb v (aEvEn pSvc) 1 = true → rb t.vol (aEvPend pSvc) 1 = true))
          ∧ (svcState v = 5 → v.svc.prev < 8 → ∃ t, exec .usbResume s = .next t ∧ svcState t.vol = v.svc.prev ∧ quiet t)
          ∧ (svcState v = 0 → exec .usbBusReset s = .next s ∧ exec .usbSuspend s = .next s)
          ∧ (svcState v ≠ 5 → exec .usbResume s = .next s)
          ∧ (svcState v = 2 ∨ svcState v = 3 → ∃ t, request [0, 5, BitVec.ofNat 8 x.val, 0, 0, 0, 0, 0] = .next t ∧ quiet t
            ∧ svcState t.vol = (if x.val = 0 then 2 else 3) ∧ rf t.vol (ra pSvc 0x040) 14 8 = x.val)
          ∧ (svcState v = 3 ∨ svcState v = 4 →
            (∃ t, request [0, 9, c, 0, 0, 0, 0, 0] = .next t ∧ svcState t.vol = (if c = 0 then 3 else 4) ∧ t.vol.svc.config = c.toNat
                ∧ quiet t ∧ (c ≠ 0 → rb v (aEvEn pSvc) 0 = true → rb t.vol (aEvPend pSvc) 0 = true))
              ∧ request [0x80, 8, 0, 0, 0, 0, 1, 0] = .next (withVol s { v with
                svc := { v.svc with ctl := [BitVec.ofNat 8 v.svc.config] } }))))

/-- EXTEST, CLAMP and HIGHZ drive or float the pads while RST_N is low; with RST_N high they act as BYPASS and DBG FAULT.SCANREF
sets. A well-formed diagnostic message of the configured port is answered: INFO with the life cycle, the mode and the reset
cause, READ and WRITE after their words have moved on the bus, shown for one word, with the response of the bus where it is not OKAY,
and no answer yet while the word waits; a FIELD part refuses WRITE, and a malformed message is answered 1. IDCODE and Test-Logic-Reset
select the identification, SAMPLE/PRELOAD loads the boundary cells or captures them, 0 in the output cells of an input-only ball and the level and the
enable of a pad that State tells, and a debug request goes onto the bus where the life cycle
and the permissions allow it. Rests on R583, R586, R587, R588, R589; log 74, 75. -/
def Obligations.ScanAndDebugAct : Prop :=
  (∀ s : State,
    let v := s.vol
    let sel (ir : Nat) (drive float : Bool) : Vol :=
      { v with jtag := { v.jtag with ir := ir, drive := drive, float := float, dr := 0 } }
    (exec (.extest true) s = .next (withVol s (sel 0 true false)) ∧ exec (.clamp true) s = .next (withVol s (sel 4 true false))
        ∧ exec (.highz true) s = .next (withVol s (sel 5 false true)) ∧ exec .bypass s = .next (withVol s (sel 31 false false)))
      ∧ ∀ i, i ∈ [Instr.extest false, .clamp false, .highz false] →
        exec i s = .next (withVol s (if ready v pDbg then raiseEvent (setFault (sel 31 false false) pDbg 0) pDbg 1
          else sel 31 false false)))
    ∧ (∀ (s : State) (msg : List Byte) (cells : List Bool) (x : BitVec 72),
    let v := s.vol
    let nv := s.nv
    let pay := msg.drop 16
    let good (op : Nat) : Prop := messageOk magicDiag msg = true ∧ byteAt msg 4 = op
    let sel (ir : Nat) (drive float : Bool) (dr : Word) : Vol :=
      { v with jtag := { v.jtag with ir := ir, drive := drive, float := float, dr := dr } }
    let all : List (Instr × Nat) := [(.info msg, 1), (.diagRead msg, 2), (.diagWrite msg, 3)]
    let moved (i : Instr) (write : Bool) (w : Word) : Prop :=
      ∀ v1 waits, busOne nv v ⟨15, 2, write, .word, (leWord pay 0).toNat, ⟨w, Tag.raw⟩⟩ = (v1, waits) →
        exec i s = .next (withVol s (if waits then { v1 with svc := { v1.svc with diag := msg, got := [] } }
          else if v1.ans.code ≠ 0 then diagAnswer v1 msg 17 v1.ans.code []
          else diagAnswer (dmaSettle nv v1) msg 0 0 (if write then [] else wordBytes v1.ans.data.data)))
    (svcUp v = false ∨ lcCode nv = 5 ∨ v.svc.diag ≠ [] → ∀ i op, (i, op) ∈ all → exec i s = .next s)
      ∧ (svcUp v = true → lcCode nv ≠ 5 → v.svc.diag = [] →
        (∀ i op, (i, op) ∈ all → ¬good op → exec i s = .next (withVol s (diagAnswer v msg 1 0 [])))
          ∧ (good 1 → pay = [] → exec (.info msg) s = .next (withVol s (diagAnswer v msg 0 0 (leBytes 4 (lcCode nv)
            ++ wordBytes (sysPageView v 0x040 (rg v (ra pSys 0x040))) ++ wordBytes (rg v (ra pRst 0x040))))))
          ∧ (good 2 → pay.length = 8 → (leWord pay 4).toNat = 4 → moved (.diagRead msg) false 0)
          ∧ (good 2 → pay.length = 8 → (leWord pay 4).toNat % 4 ≠ 0 ∨ (leWord pay 4).toNat < 4 ∨ 4096 < (leWord pay 4).toNat →
            exec (.diagRead msg) s = .next (withVol s (diagAnswer v msg 18 0 [])))
          ∧ (good 3 → lcCode nv ≠ 3 → pay.length = 8 → moved (.diagWrite msg) true (leWord pay 4))
          ∧ (good 3 → lcCode nv = 3 → exec (.diagWrite msg) s = .next (withVol s (diagAnswer v msg 13 0 []))))
      ∧ exec .idcode s = .next (withVol s (sel 1 false false 0x19640E77))
      ∧ exec .testLogicReset s = .next (withVol s (sel 1 false false 0x19640E77))
      ∧ (∀ load, ∃ t, exec (.samplePreload load cells) s = .next t ∧ t.vol.jtag.ir = 2 ∧ t.vol.jtag.drive = false ∧ t.vol.regs = v.regs
        ∧ t.vol.jtag.cells.length = 1236 ∧ ∀ i, i < 1236 →
          (load = true ∨ i % 3 = 0 → t.vol.jtag.cells.getD i false = cells.getD i false)
            ∧ (load = false → i % 3 ≠ 0 → inputBall (i / 3) = true → t.vol.jtag.cells.getD i false = false)
            ∧ (load = false → inputBall (i / 3) = false →
              (i % 3 = 1 → ∀ b, ownPad v (i / 3) = some (some b) → t.vol.jtag.cells.getD i false = b)
                ∧ (i % 3 = 2 → ∀ p, ownPad v (i / 3) = some p → t.vol.jtag.cells.getD i false = p.isSome)))
      ∧ (let a := (x.extractLsb' 39 32).toNat
        let held (y : BitVec 72) : Vol := { v with jtag := { v.jtag with ir := 8, drive := false, float := false, dr := 0, dbgacc := y } }
        (dbgAllows nv v a = true → exec (.dbgacc x) s
            = .next (withVol s (busAccess nv (held (x &&& ~~~0x7F)) ⟨15, 0, x.getLsbD 71, .word, a, ⟨x.extractLsb' 7 32, Tag.raw⟩⟩)))
          ∧ (dbgAllows nv v a = false → exec (.dbgacc x) s = .next (withVol s (held ((x &&& ~~~0x7F) ||| 8))))))
end

