-- ==== Sys2Proof/Laws/Map.lean ====
section
/-! SUPPORT. The laws of sparse memories: what a read gives after a write, and that every operation keeps the canonical
form. The read laws hold of every list, canonical or not. -/

namespace Sys2Proof.Machine

variable {α : Type}

theorem smapFind_erase (m : SMap α) (a b : Nat) :
    smapFind (smapErase m a) b = if b = a then none else smapFind m b := by
  induction m with
  | nil => simp [smapErase, smapFind]
  | cons e rest ih =>
    obtain ⟨k, v⟩ := e
    unfold smapErase
    by_cases ha : a = k
    · subst ha; rw [if_pos rfl, ih]; by_cases hb : b = a <;> simp [smapFind, hb]
    · rw [if_neg ha]; by_cases hb : b = k
      · subst hb; simp [smapFind, Ne.symm ha]
      · simp [smapFind, hb, ih]

theorem smapFind_put (m : SMap α) (a : Nat) (x : α) (b : Nat) :
    smapFind (smapPut m a x) b = if b = a then some x else smapFind m b := by
  induction m with
  | nil => simp [smapPut, smapFind]
  | cons e rest ih =>
    obtain ⟨k, v⟩ := e
    unfold smapPut
    split
    · by_cases hb : b = a
      · simp [smapFind, hb]
      · subst k; simp [smapFind, hb, smapFind_erase]
    · split
      · by_cases hb : b = a <;> simp [smapFind, hb, smapFind_erase]
      · by_cases hk : b = k
        · subst k; simp [smapFind]; intro h; simp_all
        · simp [smapFind, hk, ih]

/-- A read after a write. -/
theorem smapGet_set [DecidableEq α] (d : Nat → α) (m : SMap α) (a : Nat) (x : α) (b : Nat) :
    smapGet d (smapSet d m a x) b = if b = a then x else smapGet d m b := by
  unfold smapSet
  by_cases hx : x = d a
  · rw [if_pos hx]; simp only [smapGet, smapFind_erase]; by_cases hb : b = a <;> simp [hb, hx]
  · rw [if_neg hx]; simp only [smapGet, smapFind_put]; by_cases hb : b = a <;> simp [hb]

@[simp] theorem smapGet_set_same [DecidableEq α] (d : Nat → α) (m : SMap α) (a : Nat) (x : α) :
    smapGet d (smapSet d m a x) a = x := by simp [smapGet_set]

theorem smapGet_set_ne [DecidableEq α] (d : Nat → α) (m : SMap α) (a : Nat) (x : α) {b : Nat} (h : b ≠ a) :
    smapGet d (smapSet d m a x) b = smapGet d m b := by simp [smapGet_set, h]

theorem smapFind_keep (keep : Nat → Bool) (m : SMap α) (a : Nat) :
    smapFind (smapKeep keep m) a = if keep a then smapFind m a else none := by
  induction m with
  | nil => simp [smapKeep, smapFind]
  | cons e rest ih =>
    obtain ⟨k, v⟩ := e
    by_cases hk : keep k <;> by_cases ha : a = k <;> simp_all [smapKeep, smapFind]

/-- A read after other keys were dropped. -/
theorem smapGet_keep (d : Nat → α) (keep : Nat → Bool) (m : SMap α) (a : Nat) :
    smapGet d (smapKeep keep m) a = if keep a then smapGet d m a else d a := by
  simp only [smapGet, smapFind_keep]; by_cases hk : keep a <;> simp [hk]

/-! ### The canonical form -/

theorem smapWfFrom_mono [DecidableEq α] (d : Nat → α) (m : SMap α) {lo lo' : Nat} (h : lo' ≤ lo)
    (hm : smapWfFrom d lo m = true) : smapWfFrom d lo' m = true := by
  cases m with
  | nil => rfl
  | cons e rest => simp only [smapWfFrom, Bool.and_eq_true, decide_eq_true_eq] at *; exact ⟨⟨by omega, hm.1.2⟩, hm.2⟩

theorem smapErase_of_lt [DecidableEq α] (d : Nat → α) (m : SMap α) {lo a : Nat} (h : a < lo)
    (hm : smapWfFrom d lo m = true) : smapErase m a = m := by
  induction m generalizing lo with
  | nil => rfl
  | cons e rest ih =>
    simp only [smapWfFrom, Bool.and_eq_true, decide_eq_true_eq] at hm
    simp only [smapErase, if_neg (by omega : ¬ a = e.1)]
    rw [ih (lo := e.1 + 1) (by omega) hm.2]

theorem smapErase_wfFrom [DecidableEq α] (d : Nat → α) (m : SMap α) (lo a : Nat)
    (hm : smapWfFrom d lo m = true) : smapWfFrom d lo (smapErase m a) = true := by
  induction m generalizing lo with
  | nil => rfl
  | cons e rest ih =>
    simp only [smapWfFrom, Bool.and_eq_true, decide_eq_true_eq] at hm
    unfold smapErase
    split
    · exact ih lo (smapWfFrom_mono d rest (by omega) hm.2)
    · simp only [smapWfFrom, Bool.and_eq_true, decide_eq_true_eq]; exact ⟨hm.1, ih _ hm.2⟩

theorem smapPut_wfFrom [DecidableEq α] (d : Nat → α) (m : SMap α) (lo a : Nat) (x : α) (hx : x ≠ d a) (ha : lo ≤ a)
    (hm : smapWfFrom d lo m = true) : smapWfFrom d lo (smapPut m a x) = true := by
  induction m generalizing lo with
  | nil => simp [smapPut, smapWfFrom, hx, ha]
  | cons e rest ih =>
    simp only [smapWfFrom, Bool.and_eq_true, decide_eq_true_eq] at hm
    unfold smapPut
    split
    · rename_i h
      rw [smapErase_of_lt d rest (lo := e.1 + 1) (by omega) hm.2]
      simp only [smapWfFrom, Bool.and_eq_true, decide_eq_true_eq]
      exact ⟨⟨ha, hx⟩, h ▸ hm.2⟩
    · split
      · rw [smapErase_of_lt d rest (lo := e.1 + 1) (by omega) hm.2]
        simp only [smapWfFrom, Bool.and_eq_true, decide_eq_true_eq]
        exact ⟨⟨ha, hx⟩, ⟨by omega, hm.1.2⟩, hm.2⟩
      · simp only [smapWfFrom, Bool.and_eq_true, decide_eq_true_eq]
        exact ⟨hm.1, ih _ (by omega) hm.2⟩

/-- A write keeps the canonical form. -/
theorem smapSet_wf [DecidableEq α] (d : Nat → α) (m : SMap α) (a : Nat) (x : α) (hm : smapWf d m = true) :
    smapWf d (smapSet d m a x) = true := by
  unfold smapSet
  split
  · exact smapErase_wfFrom d m 0 a hm
  · exact smapPut_wfFrom d m 0 a x ‹_› (Nat.zero_le _) hm

theorem smapKeep_wfFrom [DecidableEq α] (d : Nat → α) (keep : Nat → Bool) (m : SMap α) (lo : Nat)
    (hm : smapWfFrom d lo m = true) : smapWfFrom d lo (smapKeep keep m) = true := by
  induction m generalizing lo with
  | nil => rfl
  | cons e rest ih =>
    simp only [smapWfFrom, Bool.and_eq_true, decide_eq_true_eq] at hm
    unfold smapKeep
    split
    · simp only [smapWfFrom, Bool.and_eq_true, decide_eq_true_eq]; exact ⟨hm.1, ih _ hm.2⟩
    · exact ih lo (smapWfFrom_mono d rest (by omega) hm.2)

/-- Dropping keys keeps the canonical form. -/
theorem smapKeep_wf [DecidableEq α] (d : Nat → α) (keep : Nat → Bool) (m : SMap α) (hm : smapWf d m = true) :
    smapWf d (smapKeep keep m) = true := smapKeep_wfFrom d keep m 0 hm

/-- A fold of writes keeps the canonical form. -/
theorem foldl_wf [DecidableEq α] {β : Type} (d : Nat → α) (f : SMap α → β → SMap α)
    (hf : ∀ m b, smapWf d m = true → smapWf d (f m b) = true) (l : List β) (m : SMap α) (hm : smapWf d m = true) :
    smapWf d (l.foldl f m) = true := by
  induction l generalizing m with
  | nil => exact hm
  | cons b l ih => exact ih (f m b) (hf m b hm)

end Sys2Proof.Machine
end

