-- ==== Sys2Proof/Laws/State.lean ====
section
/-! SUPPORT. What each named update of the state leaves: one lemma per update and field, true by rfl. -/

namespace Sys2Proof.Machine

/-! ### rgSet -/
@[simp] theorem rgSet_now (v : Vol) (a : Nat) (w : Word) : (rgSet v a w).now = v.now := rfl
@[simp] theorem rgSet_free (v : Vol) (a : Nat) (w : Word) : (rgSet v a w).free = v.free := rfl
@[simp] theorem rgSet_rwoUsed (v : Vol) (a : Nat) (w : Word) : (rgSet v a w).rwoUsed = v.rwoUsed := rfl
@[simp] theorem rgSet_resetting (v : Vol) (a : Nat) (w : Word) : (rgSet v a w).resetting = v.resetting := rfl
@[simp] theorem rgSet_ans (v : Vol) (a : Nat) (w : Word) : (rgSet v a w).ans = v.ans := rfl
@[simp] theorem rgSet_sram (v : Vol) (a : Nat) (w : Word) : (rgSet v a w).sram = v.sram := rfl
@[simp] theorem rgSet_sramErr (v : Vol) (a : Nat) (w : Word) : (rgSet v a w).sramErr = v.sramErr := rfl
@[simp] theorem rgSet_parked (v : Vol) (a : Nat) (w : Word) : (rgSet v a w).parked = v.parked := rfl
@[simp] theorem rgSet_stuck (v : Vol) (a : Nat) (w : Word) : (rgSet v a w).stuck = v.stuck := rfl
@[simp] theorem rgSet_mtx (v : Vol) (a : Nat) (w : Word) : (rgSet v a w).mtx = v.mtx := rfl
@[simp] theorem rgSet_tick (v : Vol) (a : Nat) (w : Word) : (rgSet v a w).tick = v.tick := rfl
@[simp] theorem rgSet_tally (v : Vol) (a : Nat) (w : Word) : (rgSet v a w).tally = v.tally := rfl
@[simp] theorem rgSet_outs (v : Vol) (a : Nat) (w : Word) : (rgSet v a w).outs = v.outs := rfl
@[simp] theorem rgSet_mea (v : Vol) (a : Nat) (w : Word) : (rgSet v a w).mea = v.mea := rfl
@[simp] theorem rgSet_sys (v : Vol) (a : Nat) (w : Word) : (rgSet v a w).sys = v.sys := rfl
@[simp] theorem rgSet_dma (v : Vol) (a : Nat) (w : Word) : (rgSet v a w).dma = v.dma := rfl
@[simp] theorem rgSet_eth (v : Vol) (a : Nat) (w : Word) : (rgSet v a w).eth = v.eth := rfl
@[simp] theorem rgSet_ptp (v : Vol) (a : Nat) (w : Word) : (rgSet v a w).ptp = v.ptp := rfl
@[simp] theorem rgSet_can (v : Vol) (a : Nat) (w : Word) : (rgSet v a w).can = v.can := rfl
@[simp] theorem rgSet_hsp (v : Vol) (a : Nat) (w : Word) : (rgSet v a w).hsp = v.hsp := rfl
@[simp] theorem rgSet_svc (v : Vol) (a : Nat) (w : Word) : (rgSet v a w).svc = v.svc := rfl
@[simp] theorem rgSet_jtag (v : Vol) (a : Nat) (w : Word) : (rgSet v a w).jtag = v.jtag := rfl
@[simp] theorem rgSet_cores (v : Vol) (a : Nat) (w : Word) : (rgSet v a w).cores = v.cores := rfl
@[simp] theorem rgSet_yok (v : Vol) (a : Nat) (w : Word) : (rgSet v a w).yok = v.yok := rfl
@[simp] theorem rgSet_ldg (v : Vol) (a : Nat) (w : Word) : (rgSet v a w).ldg = v.ldg := rfl
@[simp] theorem rgSet_lks (v : Vol) (a : Nat) (w : Word) : (rgSet v a w).lks = v.lks := rfl
@[simp] theorem rgSet_whs (v : Vol) (a : Nat) (w : Word) : (rgSet v a w).whs = v.whs := rfl
@[simp] theorem rgSet_flc (v : Vol) (a : Nat) (w : Word) : (rgSet v a w).flc = v.flc := rfl
@[simp] theorem rgSet_nand (v : Vol) (a : Nat) (w : Word) : (rgSet v a w).nand = v.nand := rfl

/-! ### answer -/
@[simp] theorem answer_now (v : Vol) (c : Nat) (d : TWord) : (answer v c d).now = v.now := rfl
@[simp] theorem answer_free (v : Vol) (c : Nat) (d : TWord) : (answer v c d).free = v.free := rfl
@[simp] theorem answer_regs (v : Vol) (c : Nat) (d : TWord) : (answer v c d).regs = v.regs := rfl
@[simp] theorem answer_rwoUsed (v : Vol) (c : Nat) (d : TWord) : (answer v c d).rwoUsed = v.rwoUsed := rfl
@[simp] theorem answer_resetting (v : Vol) (c : Nat) (d : TWord) : (answer v c d).resetting = v.resetting := rfl
@[simp] theorem answer_sram (v : Vol) (c : Nat) (d : TWord) : (answer v c d).sram = v.sram := rfl
@[simp] theorem answer_sramErr (v : Vol) (c : Nat) (d : TWord) : (answer v c d).sramErr = v.sramErr := rfl
@[simp] theorem answer_parked (v : Vol) (c : Nat) (d : TWord) : (answer v c d).parked = v.parked := rfl
@[simp] theorem answer_stuck (v : Vol) (c : Nat) (d : TWord) : (answer v c d).stuck = v.stuck := rfl
@[simp] theorem answer_mtx (v : Vol) (c : Nat) (d : TWord) : (answer v c d).mtx = v.mtx := rfl
@[simp] theorem answer_tick (v : Vol) (c : Nat) (d : TWord) : (answer v c d).tick = v.tick := rfl
@[simp] theorem answer_tally (v : Vol) (c : Nat) (d : TWord) : (answer v c d).tally = v.tally := rfl
@[simp] theorem answer_outs (v : Vol) (c : Nat) (d : TWord) : (answer v c d).outs = v.outs := rfl
@[simp] theorem answer_mea (v : Vol) (c : Nat) (d : TWord) : (answer v c d).mea = v.mea := rfl
@[simp] theorem answer_sys (v : Vol) (c : Nat) (d : TWord) : (answer v c d).sys = v.sys := rfl
@[simp] theorem answer_dma (v : Vol) (c : Nat) (d : TWord) : (answer v c d).dma = v.dma := rfl
@[simp] theorem answer_eth (v : Vol) (c : Nat) (d : TWord) : (answer v c d).eth = v.eth := rfl
@[simp] theorem answer_ptp (v : Vol) (c : Nat) (d : TWord) : (answer v c d).ptp = v.ptp := rfl
@[simp] theorem answer_can (v : Vol) (c : Nat) (d : TWord) : (answer v c d).can = v.can := rfl
@[simp] theorem answer_hsp (v : Vol) (c : Nat) (d : TWord) : (answer v c d).hsp = v.hsp := rfl
@[simp] theorem answer_svc (v : Vol) (c : Nat) (d : TWord) : (answer v c d).svc = v.svc := rfl
@[simp] theorem answer_jtag (v : Vol) (c : Nat) (d : TWord) : (answer v c d).jtag = v.jtag := rfl
@[simp] theorem answer_cores (v : Vol) (c : Nat) (d : TWord) : (answer v c d).cores = v.cores := rfl
@[simp] theorem answer_yok (v : Vol) (c : Nat) (d : TWord) : (answer v c d).yok = v.yok := rfl
@[simp] theorem answer_ldg (v : Vol) (c : Nat) (d : TWord) : (answer v c d).ldg = v.ldg := rfl
@[simp] theorem answer_lks (v : Vol) (c : Nat) (d : TWord) : (answer v c d).lks = v.lks := rfl
@[simp] theorem answer_whs (v : Vol) (c : Nat) (d : TWord) : (answer v c d).whs = v.whs := rfl
@[simp] theorem answer_flc (v : Vol) (c : Nat) (d : TWord) : (answer v c d).flc = v.flc := rfl
@[simp] theorem answer_nand (v : Vol) (c : Nat) (d : TWord) : (answer v c d).nand = v.nand := rfl

/-! ### nextFree -/
@[simp] theorem nextFree_now (v : Vol) : (nextFree v).now = v.now := rfl
@[simp] theorem nextFree_regs (v : Vol) : (nextFree v).regs = v.regs := rfl
@[simp] theorem nextFree_rwoUsed (v : Vol) : (nextFree v).rwoUsed = v.rwoUsed := rfl
@[simp] theorem nextFree_resetting (v : Vol) : (nextFree v).resetting = v.resetting := rfl
@[simp] theorem nextFree_ans (v : Vol) : (nextFree v).ans = v.ans := rfl
@[simp] theorem nextFree_sram (v : Vol) : (nextFree v).sram = v.sram := rfl
@[simp] theorem nextFree_sramErr (v : Vol) : (nextFree v).sramErr = v.sramErr := rfl
@[simp] theorem nextFree_parked (v : Vol) : (nextFree v).parked = v.parked := rfl
@[simp] theorem nextFree_stuck (v : Vol) : (nextFree v).stuck = v.stuck := rfl
@[simp] theorem nextFree_mtx (v : Vol) : (nextFree v).mtx = v.mtx := rfl
@[simp] theorem nextFree_tick (v : Vol) : (nextFree v).tick = v.tick := rfl
@[simp] theorem nextFree_tally (v : Vol) : (nextFree v).tally = v.tally := rfl
@[simp] theorem nextFree_outs (v : Vol) : (nextFree v).outs = v.outs := rfl
@[simp] theorem nextFree_mea (v : Vol) : (nextFree v).mea = v.mea := rfl
@[simp] theorem nextFree_sys (v : Vol) : (nextFree v).sys = v.sys := rfl
@[simp] theorem nextFree_dma (v : Vol) : (nextFree v).dma = v.dma := rfl
@[simp] theorem nextFree_eth (v : Vol) : (nextFree v).eth = v.eth := rfl
@[simp] theorem nextFree_ptp (v : Vol) : (nextFree v).ptp = v.ptp := rfl
@[simp] theorem nextFree_can (v : Vol) : (nextFree v).can = v.can := rfl
@[simp] theorem nextFree_hsp (v : Vol) : (nextFree v).hsp = v.hsp := rfl
@[simp] theorem nextFree_svc (v : Vol) : (nextFree v).svc = v.svc := rfl
@[simp] theorem nextFree_jtag (v : Vol) : (nextFree v).jtag = v.jtag := rfl
@[simp] theorem nextFree_cores (v : Vol) : (nextFree v).cores = v.cores := rfl
@[simp] theorem nextFree_yok (v : Vol) : (nextFree v).yok = v.yok := rfl
@[simp] theorem nextFree_ldg (v : Vol) : (nextFree v).ldg = v.ldg := rfl
@[simp] theorem nextFree_lks (v : Vol) : (nextFree v).lks = v.lks := rfl
@[simp] theorem nextFree_whs (v : Vol) : (nextFree v).whs = v.whs := rfl
@[simp] theorem nextFree_flc (v : Vol) : (nextFree v).flc = v.flc := rfl
@[simp] theorem nextFree_nand (v : Vol) : (nextFree v).nand = v.nand := rfl

/-! ### setCore -/
@[simp] theorem setCore_now (v : Vol) (k : Nat) (c : Core) : (setCore v k c).now = v.now := rfl
@[simp] theorem setCore_free (v : Vol) (k : Nat) (c : Core) : (setCore v k c).free = v.free := rfl
@[simp] theorem setCore_regs (v : Vol) (k : Nat) (c : Core) : (setCore v k c).regs = v.regs := rfl
@[simp] theorem setCore_rwoUsed (v : Vol) (k : Nat) (c : Core) : (setCore v k c).rwoUsed = v.rwoUsed := rfl
@[simp] theorem setCore_resetting (v : Vol) (k : Nat) (c : Core) : (setCore v k c).resetting = v.resetting := rfl
@[simp] theorem setCore_ans (v : Vol) (k : Nat) (c : Core) : (setCore v k c).ans = v.ans := rfl
@[simp] theorem setCore_sram (v : Vol) (k : Nat) (c : Core) : (setCore v k c).sram = v.sram := rfl
@[simp] theorem setCore_sramErr (v : Vol) (k : Nat) (c : Core) : (setCore v k c).sramErr = v.sramErr := rfl
@[simp] theorem setCore_parked (v : Vol) (k : Nat) (c : Core) : (setCore v k c).parked = v.parked := rfl
@[simp] theorem setCore_stuck (v : Vol) (k : Nat) (c : Core) : (setCore v k c).stuck = v.stuck := rfl
@[simp] theorem setCore_mtx (v : Vol) (k : Nat) (c : Core) : (setCore v k c).mtx = v.mtx := rfl
@[simp] theorem setCore_tick (v : Vol) (k : Nat) (c : Core) : (setCore v k c).tick = v.tick := rfl
@[simp] theorem setCore_tally (v : Vol) (k : Nat) (c : Core) : (setCore v k c).tally = v.tally := rfl
@[simp] theorem setCore_outs (v : Vol) (k : Nat) (c : Core) : (setCore v k c).outs = v.outs := rfl
@[simp] theorem setCore_mea (v : Vol) (k : Nat) (c : Core) : (setCore v k c).mea = v.mea := rfl
@[simp] theorem setCore_sys (v : Vol) (k : Nat) (c : Core) : (setCore v k c).sys = v.sys := rfl
@[simp] theorem setCore_dma (v : Vol) (k : Nat) (c : Core) : (setCore v k c).dma = v.dma := rfl
@[simp] theorem setCore_eth (v : Vol) (k : Nat) (c : Core) : (setCore v k c).eth = v.eth := rfl
@[simp] theorem setCore_ptp (v : Vol) (k : Nat) (c : Core) : (setCore v k c).ptp = v.ptp := rfl
@[simp] theorem setCore_can (v : Vol) (k : Nat) (c : Core) : (setCore v k c).can = v.can := rfl
@[simp] theorem setCore_hsp (v : Vol) (k : Nat) (c : Core) : (setCore v k c).hsp = v.hsp := rfl
@[simp] theorem setCore_svc (v : Vol) (k : Nat) (c : Core) : (setCore v k c).svc = v.svc := rfl
@[simp] theorem setCore_jtag (v : Vol) (k : Nat) (c : Core) : (setCore v k c).jtag = v.jtag := rfl
@[simp] theorem setCore_yok (v : Vol) (k : Nat) (c : Core) : (setCore v k c).yok = v.yok := rfl
@[simp] theorem setCore_ldg (v : Vol) (k : Nat) (c : Core) : (setCore v k c).ldg = v.ldg := rfl
@[simp] theorem setCore_lks (v : Vol) (k : Nat) (c : Core) : (setCore v k c).lks = v.lks := rfl
@[simp] theorem setCore_whs (v : Vol) (k : Nat) (c : Core) : (setCore v k c).whs = v.whs := rfl
@[simp] theorem setCore_flc (v : Vol) (k : Nat) (c : Core) : (setCore v k c).flc = v.flc := rfl
@[simp] theorem setCore_nand (v : Vol) (k : Nat) (c : Core) : (setCore v k c).nand = v.nand := rfl

/-! ### setTick -/
@[simp] theorem setTick_now (v : Vol) (f : Tick → Tick) : (setTick v f).now = v.now := rfl
@[simp] theorem setTick_free (v : Vol) (f : Tick → Tick) : (setTick v f).free = v.free := rfl
@[simp] theorem setTick_regs (v : Vol) (f : Tick → Tick) : (setTick v f).regs = v.regs := rfl
@[simp] theorem setTick_rwoUsed (v : Vol) (f : Tick → Tick) : (setTick v f).rwoUsed = v.rwoUsed := rfl
@[simp] theorem setTick_resetting (v : Vol) (f : Tick → Tick) : (setTick v f).resetting = v.resetting := rfl
@[simp] theorem setTick_ans (v : Vol) (f : Tick → Tick) : (setTick v f).ans = v.ans := rfl
@[simp] theorem setTick_sram (v : Vol) (f : Tick → Tick) : (setTick v f).sram = v.sram := rfl
@[simp] theorem setTick_sramErr (v : Vol) (f : Tick → Tick) : (setTick v f).sramErr = v.sramErr := rfl
@[simp] theorem setTick_parked (v : Vol) (f : Tick → Tick) : (setTick v f).parked = v.parked := rfl
@[simp] theorem setTick_stuck (v : Vol) (f : Tick → Tick) : (setTick v f).stuck = v.stuck := rfl
@[simp] theorem setTick_mtx (v : Vol) (f : Tick → Tick) : (setTick v f).mtx = v.mtx := rfl
@[simp] theorem setTick_tally (v : Vol) (f : Tick → Tick) : (setTick v f).tally = v.tally := rfl
@[simp] theorem setTick_outs (v : Vol) (f : Tick → Tick) : (setTick v f).outs = v.outs := rfl
@[simp] theorem setTick_mea (v : Vol) (f : Tick → Tick) : (setTick v f).mea = v.mea := rfl
@[simp] theorem setTick_sys (v : Vol) (f : Tick → Tick) : (setTick v f).sys = v.sys := rfl
@[simp] theorem setTick_dma (v : Vol) (f : Tick → Tick) : (setTick v f).dma = v.dma := rfl
@[simp] theorem setTick_eth (v : Vol) (f : Tick → Tick) : (setTick v f).eth = v.eth := rfl
@[simp] theorem setTick_ptp (v : Vol) (f : Tick → Tick) : (setTick v f).ptp = v.ptp := rfl
@[simp] theorem setTick_can (v : Vol) (f : Tick → Tick) : (setTick v f).can = v.can := rfl
@[simp] theorem setTick_hsp (v : Vol) (f : Tick → Tick) : (setTick v f).hsp = v.hsp := rfl
@[simp] theorem setTick_svc (v : Vol) (f : Tick → Tick) : (setTick v f).svc = v.svc := rfl
@[simp] theorem setTick_jtag (v : Vol) (f : Tick → Tick) : (setTick v f).jtag = v.jtag := rfl
@[simp] theorem setTick_cores (v : Vol) (f : Tick → Tick) : (setTick v f).cores = v.cores := rfl
@[simp] theorem setTick_yok (v : Vol) (f : Tick → Tick) : (setTick v f).yok = v.yok := rfl
@[simp] theorem setTick_ldg (v : Vol) (f : Tick → Tick) : (setTick v f).ldg = v.ldg := rfl
@[simp] theorem setTick_lks (v : Vol) (f : Tick → Tick) : (setTick v f).lks = v.lks := rfl
@[simp] theorem setTick_whs (v : Vol) (f : Tick → Tick) : (setTick v f).whs = v.whs := rfl
@[simp] theorem setTick_flc (v : Vol) (f : Tick → Tick) : (setTick v f).flc = v.flc := rfl
@[simp] theorem setTick_nand (v : Vol) (f : Tick → Tick) : (setTick v f).nand = v.nand := rfl

/-! ### setSysP -/
@[simp] theorem setSysP_now (v : Vol) (f : Sys → Sys) : (setSysP v f).now = v.now := rfl
@[simp] theorem setSysP_free (v : Vol) (f : Sys → Sys) : (setSysP v f).free = v.free := rfl
@[simp] theorem setSysP_regs (v : Vol) (f : Sys → Sys) : (setSysP v f).regs = v.regs := rfl
@[simp] theorem setSysP_rwoUsed (v : Vol) (f : Sys → Sys) : (setSysP v f).rwoUsed = v.rwoUsed := rfl
@[simp] theorem setSysP_resetting (v : Vol) (f : Sys → Sys) : (setSysP v f).resetting = v.resetting := rfl
@[simp] theorem setSysP_ans (v : Vol) (f : Sys → Sys) : (setSysP v f).ans = v.ans := rfl
@[simp] theorem setSysP_sram (v : Vol) (f : Sys → Sys) : (setSysP v f).sram = v.sram := rfl
@[simp] theorem setSysP_sramErr (v : Vol) (f : Sys → Sys) : (setSysP v f).sramErr = v.sramErr := rfl
@[simp] theorem setSysP_parked (v : Vol) (f : Sys → Sys) : (setSysP v f).parked = v.parked := rfl
@[simp] theorem setSysP_stuck (v : Vol) (f : Sys → Sys) : (setSysP v f).stuck = v.stuck := rfl
@[simp] theorem setSysP_mtx (v : Vol) (f : Sys → Sys) : (setSysP v f).mtx = v.mtx := rfl
@[simp] theorem setSysP_tick (v : Vol) (f : Sys → Sys) : (setSysP v f).tick = v.tick := rfl
@[simp] theorem setSysP_tally (v : Vol) (f : Sys → Sys) : (setSysP v f).tally = v.tally := rfl
@[simp] theorem setSysP_outs (v : Vol) (f : Sys → Sys) : (setSysP v f).outs = v.outs := rfl
@[simp] theorem setSysP_mea (v : Vol) (f : Sys → Sys) : (setSysP v f).mea = v.mea := rfl
@[simp] theorem setSysP_dma (v : Vol) (f : Sys → Sys) : (setSysP v f).dma = v.dma := rfl
@[simp] theorem setSysP_eth (v : Vol) (f : Sys → Sys) : (setSysP v f).eth = v.eth := rfl
@[simp] theorem setSysP_ptp (v : Vol) (f : Sys → Sys) : (setSysP v f).ptp = v.ptp := rfl
@[simp] theorem setSysP_can (v : Vol) (f : Sys → Sys) : (setSysP v f).can = v.can := rfl
@[simp] theorem setSysP_hsp (v : Vol) (f : Sys → Sys) : (setSysP v f).hsp = v.hsp := rfl
@[simp] theorem setSysP_svc (v : Vol) (f : Sys → Sys) : (setSysP v f).svc = v.svc := rfl
@[simp] theorem setSysP_jtag (v : Vol) (f : Sys → Sys) : (setSysP v f).jtag = v.jtag := rfl
@[simp] theorem setSysP_cores (v : Vol) (f : Sys → Sys) : (setSysP v f).cores = v.cores := rfl
@[simp] theorem setSysP_yok (v : Vol) (f : Sys → Sys) : (setSysP v f).yok = v.yok := rfl
@[simp] theorem setSysP_ldg (v : Vol) (f : Sys → Sys) : (setSysP v f).ldg = v.ldg := rfl
@[simp] theorem setSysP_lks (v : Vol) (f : Sys → Sys) : (setSysP v f).lks = v.lks := rfl
@[simp] theorem setSysP_whs (v : Vol) (f : Sys → Sys) : (setSysP v f).whs = v.whs := rfl
@[simp] theorem setSysP_flc (v : Vol) (f : Sys → Sys) : (setSysP v f).flc = v.flc := rfl
@[simp] theorem setSysP_nand (v : Vol) (f : Sys → Sys) : (setSysP v f).nand = v.nand := rfl

/-! ### setMea -/
@[simp] theorem setMea_now (v : Vol) (b : Nat) (m : Mea) : (setMea v b m).now = v.now := rfl
@[simp] theorem setMea_free (v : Vol) (b : Nat) (m : Mea) : (setMea v b m).free = v.free := rfl
@[simp] theorem setMea_regs (v : Vol) (b : Nat) (m : Mea) : (setMea v b m).regs = v.regs := rfl
@[simp] theorem setMea_rwoUsed (v : Vol) (b : Nat) (m : Mea) : (setMea v b m).rwoUsed = v.rwoUsed := rfl
@[simp] theorem setMea_resetting (v : Vol) (b : Nat) (m : Mea) : (setMea v b m).resetting = v.resetting := rfl
@[simp] theorem setMea_ans (v : Vol) (b : Nat) (m : Mea) : (setMea v b m).ans = v.ans := rfl
@[simp] theorem setMea_sram (v : Vol) (b : Nat) (m : Mea) : (setMea v b m).sram = v.sram := rfl
@[simp] theorem setMea_sramErr (v : Vol) (b : Nat) (m : Mea) : (setMea v b m).sramErr = v.sramErr := rfl
@[simp] theorem setMea_parked (v : Vol) (b : Nat) (m : Mea) : (setMea v b m).parked = v.parked := rfl
@[simp] theorem setMea_stuck (v : Vol) (b : Nat) (m : Mea) : (setMea v b m).stuck = v.stuck := rfl
@[simp] theorem setMea_mtx (v : Vol) (b : Nat) (m : Mea) : (setMea v b m).mtx = v.mtx := rfl
@[simp] theorem setMea_tick (v : Vol) (b : Nat) (m : Mea) : (setMea v b m).tick = v.tick := rfl
@[simp] theorem setMea_tally (v : Vol) (b : Nat) (m : Mea) : (setMea v b m).tally = v.tally := rfl
@[simp] theorem setMea_outs (v : Vol) (b : Nat) (m : Mea) : (setMea v b m).outs = v.outs := rfl
@[simp] theorem setMea_sys (v : Vol) (b : Nat) (m : Mea) : (setMea v b m).sys = v.sys := rfl
@[simp] theorem setMea_dma (v : Vol) (b : Nat) (m : Mea) : (setMea v b m).dma = v.dma := rfl
@[simp] theorem setMea_eth (v : Vol) (b : Nat) (m : Mea) : (setMea v b m).eth = v.eth := rfl
@[simp] theorem setMea_ptp (v : Vol) (b : Nat) (m : Mea) : (setMea v b m).ptp = v.ptp := rfl
@[simp] theorem setMea_can (v : Vol) (b : Nat) (m : Mea) : (setMea v b m).can = v.can := rfl
@[simp] theorem setMea_hsp (v : Vol) (b : Nat) (m : Mea) : (setMea v b m).hsp = v.hsp := rfl
@[simp] theorem setMea_svc (v : Vol) (b : Nat) (m : Mea) : (setMea v b m).svc = v.svc := rfl
@[simp] theorem setMea_jtag (v : Vol) (b : Nat) (m : Mea) : (setMea v b m).jtag = v.jtag := rfl
@[simp] theorem setMea_cores (v : Vol) (b : Nat) (m : Mea) : (setMea v b m).cores = v.cores := rfl
@[simp] theorem setMea_yok (v : Vol) (b : Nat) (m : Mea) : (setMea v b m).yok = v.yok := rfl
@[simp] theorem setMea_ldg (v : Vol) (b : Nat) (m : Mea) : (setMea v b m).ldg = v.ldg := rfl
@[simp] theorem setMea_lks (v : Vol) (b : Nat) (m : Mea) : (setMea v b m).lks = v.lks := rfl
@[simp] theorem setMea_whs (v : Vol) (b : Nat) (m : Mea) : (setMea v b m).whs = v.whs := rfl
@[simp] theorem setMea_flc (v : Vol) (b : Nat) (m : Mea) : (setMea v b m).flc = v.flc := rfl
@[simp] theorem setMea_nand (v : Vol) (b : Nat) (m : Mea) : (setMea v b m).nand = v.nand := rfl

/-! ### setDma -/
@[simp] theorem setDma_now (v : Vol) (e c : Nat) (d : DmaCh) : (setDma v e c d).now = v.now := rfl
@[simp] theorem setDma_free (v : Vol) (e c : Nat) (d : DmaCh) : (setDma v e c d).free = v.free := rfl
@[simp] theorem setDma_regs (v : Vol) (e c : Nat) (d : DmaCh) : (setDma v e c d).regs = v.regs := rfl
@[simp] theorem setDma_rwoUsed (v : Vol) (e c : Nat) (d : DmaCh) : (setDma v e c d).rwoUsed = v.rwoUsed := rfl
@[simp] theorem setDma_resetting (v : Vol) (e c : Nat) (d : DmaCh) : (setDma v e c d).resetting = v.resetting := rfl
@[simp] theorem setDma_ans (v : Vol) (e c : Nat) (d : DmaCh) : (setDma v e c d).ans = v.ans := rfl
@[simp] theorem setDma_sram (v : Vol) (e c : Nat) (d : DmaCh) : (setDma v e c d).sram = v.sram := rfl
@[simp] theorem setDma_sramErr (v : Vol) (e c : Nat) (d : DmaCh) : (setDma v e c d).sramErr = v.sramErr := rfl
@[simp] theorem setDma_parked (v : Vol) (e c : Nat) (d : DmaCh) : (setDma v e c d).parked = v.parked := rfl
@[simp] theorem setDma_stuck (v : Vol) (e c : Nat) (d : DmaCh) : (setDma v e c d).stuck = v.stuck := rfl
@[simp] theorem setDma_mtx (v : Vol) (e c : Nat) (d : DmaCh) : (setDma v e c d).mtx = v.mtx := rfl
@[simp] theorem setDma_tick (v : Vol) (e c : Nat) (d : DmaCh) : (setDma v e c d).tick = v.tick := rfl
@[simp] theorem setDma_tally (v : Vol) (e c : Nat) (d : DmaCh) : (setDma v e c d).tally = v.tally := rfl
@[simp] theorem setDma_outs (v : Vol) (e c : Nat) (d : DmaCh) : (setDma v e c d).outs = v.outs := rfl
@[simp] theorem setDma_mea (v : Vol) (e c : Nat) (d : DmaCh) : (setDma v e c d).mea = v.mea := rfl
@[simp] theorem setDma_sys (v : Vol) (e c : Nat) (d : DmaCh) : (setDma v e c d).sys = v.sys := rfl
@[simp] theorem setDma_eth (v : Vol) (e c : Nat) (d : DmaCh) : (setDma v e c d).eth = v.eth := rfl
@[simp] theorem setDma_ptp (v : Vol) (e c : Nat) (d : DmaCh) : (setDma v e c d).ptp = v.ptp := rfl
@[simp] theorem setDma_can (v : Vol) (e c : Nat) (d : DmaCh) : (setDma v e c d).can = v.can := rfl
@[simp] theorem setDma_hsp (v : Vol) (e c : Nat) (d : DmaCh) : (setDma v e c d).hsp = v.hsp := rfl
@[simp] theorem setDma_svc (v : Vol) (e c : Nat) (d : DmaCh) : (setDma v e c d).svc = v.svc := rfl
@[simp] theorem setDma_jtag (v : Vol) (e c : Nat) (d : DmaCh) : (setDma v e c d).jtag = v.jtag := rfl
@[simp] theorem setDma_cores (v : Vol) (e c : Nat) (d : DmaCh) : (setDma v e c d).cores = v.cores := rfl
@[simp] theorem setDma_yok (v : Vol) (e c : Nat) (d : DmaCh) : (setDma v e c d).yok = v.yok := rfl
@[simp] theorem setDma_ldg (v : Vol) (e c : Nat) (d : DmaCh) : (setDma v e c d).ldg = v.ldg := rfl
@[simp] theorem setDma_lks (v : Vol) (e c : Nat) (d : DmaCh) : (setDma v e c d).lks = v.lks := rfl
@[simp] theorem setDma_whs (v : Vol) (e c : Nat) (d : DmaCh) : (setDma v e c d).whs = v.whs := rfl
@[simp] theorem setDma_flc (v : Vol) (e c : Nat) (d : DmaCh) : (setDma v e c d).flc = v.flc := rfl
@[simp] theorem setDma_nand (v : Vol) (e c : Nat) (d : DmaCh) : (setDma v e c d).nand = v.nand := rfl

/-! ### setWhs -/
@[simp] theorem setWhs_now (v : Vol) (f : Whs → Whs) : (setWhs v f).now = v.now := rfl
@[simp] theorem setWhs_free (v : Vol) (f : Whs → Whs) : (setWhs v f).free = v.free := rfl
@[simp] theorem setWhs_regs (v : Vol) (f : Whs → Whs) : (setWhs v f).regs = v.regs := rfl
@[simp] theorem setWhs_rwoUsed (v : Vol) (f : Whs → Whs) : (setWhs v f).rwoUsed = v.rwoUsed := rfl
@[simp] theorem setWhs_resetting (v : Vol) (f : Whs → Whs) : (setWhs v f).resetting = v.resetting := rfl
@[simp] theorem setWhs_ans (v : Vol) (f : Whs → Whs) : (setWhs v f).ans = v.ans := rfl
@[simp] theorem setWhs_sram (v : Vol) (f : Whs → Whs) : (setWhs v f).sram = v.sram := rfl
@[simp] theorem setWhs_sramErr (v : Vol) (f : Whs → Whs) : (setWhs v f).sramErr = v.sramErr := rfl
@[simp] theorem setWhs_parked (v : Vol) (f : Whs → Whs) : (setWhs v f).parked = v.parked := rfl
@[simp] theorem setWhs_stuck (v : Vol) (f : Whs → Whs) : (setWhs v f).stuck = v.stuck := rfl
@[simp] theorem setWhs_mtx (v : Vol) (f : Whs → Whs) : (setWhs v f).mtx = v.mtx := rfl
@[simp] theorem setWhs_tick (v : Vol) (f : Whs → Whs) : (setWhs v f).tick = v.tick := rfl
@[simp] theorem setWhs_tally (v : Vol) (f : Whs → Whs) : (setWhs v f).tally = v.tally := rfl
@[simp] theorem setWhs_outs (v : Vol) (f : Whs → Whs) : (setWhs v f).outs = v.outs := rfl
@[simp] theorem setWhs_mea (v : Vol) (f : Whs → Whs) : (setWhs v f).mea = v.mea := rfl
@[simp] theorem setWhs_sys (v : Vol) (f : Whs → Whs) : (setWhs v f).sys = v.sys := rfl
@[simp] theorem setWhs_dma (v : Vol) (f : Whs → Whs) : (setWhs v f).dma = v.dma := rfl
@[simp] theorem setWhs_eth (v : Vol) (f : Whs → Whs) : (setWhs v f).eth = v.eth := rfl
@[simp] theorem setWhs_ptp (v : Vol) (f : Whs → Whs) : (setWhs v f).ptp = v.ptp := rfl
@[simp] theorem setWhs_can (v : Vol) (f : Whs → Whs) : (setWhs v f).can = v.can := rfl
@[simp] theorem setWhs_hsp (v : Vol) (f : Whs → Whs) : (setWhs v f).hsp = v.hsp := rfl
@[simp] theorem setWhs_svc (v : Vol) (f : Whs → Whs) : (setWhs v f).svc = v.svc := rfl
@[simp] theorem setWhs_jtag (v : Vol) (f : Whs → Whs) : (setWhs v f).jtag = v.jtag := rfl
@[simp] theorem setWhs_cores (v : Vol) (f : Whs → Whs) : (setWhs v f).cores = v.cores := rfl
@[simp] theorem setWhs_yok (v : Vol) (f : Whs → Whs) : (setWhs v f).yok = v.yok := rfl
@[simp] theorem setWhs_ldg (v : Vol) (f : Whs → Whs) : (setWhs v f).ldg = v.ldg := rfl
@[simp] theorem setWhs_lks (v : Vol) (f : Whs → Whs) : (setWhs v f).lks = v.lks := rfl
@[simp] theorem setWhs_flc (v : Vol) (f : Whs → Whs) : (setWhs v f).flc = v.flc := rfl
@[simp] theorem setWhs_nand (v : Vol) (f : Whs → Whs) : (setWhs v f).nand = v.nand := rfl

/-! ### setYok -/
@[simp] theorem setYok_now (v : Vol) (f : Yok → Yok) : (setYok v f).now = v.now := rfl
@[simp] theorem setYok_free (v : Vol) (f : Yok → Yok) : (setYok v f).free = v.free := rfl
@[simp] theorem setYok_regs (v : Vol) (f : Yok → Yok) : (setYok v f).regs = v.regs := rfl
@[simp] theorem setYok_rwoUsed (v : Vol) (f : Yok → Yok) : (setYok v f).rwoUsed = v.rwoUsed := rfl
@[simp] theorem setYok_resetting (v : Vol) (f : Yok → Yok) : (setYok v f).resetting = v.resetting := rfl
@[simp] theorem setYok_ans (v : Vol) (f : Yok → Yok) : (setYok v f).ans = v.ans := rfl
@[simp] theorem setYok_sram (v : Vol) (f : Yok → Yok) : (setYok v f).sram = v.sram := rfl
@[simp] theorem setYok_sramErr (v : Vol) (f : Yok → Yok) : (setYok v f).sramErr = v.sramErr := rfl
@[simp] theorem setYok_parked (v : Vol) (f : Yok → Yok) : (setYok v f).parked = v.parked := rfl
@[simp] theorem setYok_stuck (v : Vol) (f : Yok → Yok) : (setYok v f).stuck = v.stuck := rfl
@[simp] theorem setYok_mtx (v : Vol) (f : Yok → Yok) : (setYok v f).mtx = v.mtx := rfl
@[simp] theorem setYok_tick (v : Vol) (f : Yok → Yok) : (setYok v f).tick = v.tick := rfl
@[simp] theorem setYok_tally (v : Vol) (f : Yok → Yok) : (setYok v f).tally = v.tally := rfl
@[simp] theorem setYok_outs (v : Vol) (f : Yok → Yok) : (setYok v f).outs = v.outs := rfl
@[simp] theorem setYok_mea (v : Vol) (f : Yok → Yok) : (setYok v f).mea = v.mea := rfl
@[simp] theorem setYok_sys (v : Vol) (f : Yok → Yok) : (setYok v f).sys = v.sys := rfl
@[simp] theorem setYok_dma (v : Vol) (f : Yok → Yok) : (setYok v f).dma = v.dma := rfl
@[simp] theorem setYok_eth (v : Vol) (f : Yok → Yok) : (setYok v f).eth = v.eth := rfl
@[simp] theorem setYok_ptp (v : Vol) (f : Yok → Yok) : (setYok v f).ptp = v.ptp := rfl
@[simp] theorem setYok_can (v : Vol) (f : Yok → Yok) : (setYok v f).can = v.can := rfl
@[simp] theorem setYok_hsp (v : Vol) (f : Yok → Yok) : (setYok v f).hsp = v.hsp := rfl
@[simp] theorem setYok_svc (v : Vol) (f : Yok → Yok) : (setYok v f).svc = v.svc := rfl
@[simp] theorem setYok_jtag (v : Vol) (f : Yok → Yok) : (setYok v f).jtag = v.jtag := rfl
@[simp] theorem setYok_cores (v : Vol) (f : Yok → Yok) : (setYok v f).cores = v.cores := rfl
@[simp] theorem setYok_ldg (v : Vol) (f : Yok → Yok) : (setYok v f).ldg = v.ldg := rfl
@[simp] theorem setYok_lks (v : Vol) (f : Yok → Yok) : (setYok v f).lks = v.lks := rfl
@[simp] theorem setYok_whs (v : Vol) (f : Yok → Yok) : (setYok v f).whs = v.whs := rfl
@[simp] theorem setYok_flc (v : Vol) (f : Yok → Yok) : (setYok v f).flc = v.flc := rfl
@[simp] theorem setYok_nand (v : Vol) (f : Yok → Yok) : (setYok v f).nand = v.nand := rfl

/-! ### setLdg -/
@[simp] theorem setLdg_now (v : Vol) (f : Ldg → Ldg) : (setLdg v f).now = v.now := rfl
@[simp] theorem setLdg_free (v : Vol) (f : Ldg → Ldg) : (setLdg v f).free = v.free := rfl
@[simp] theorem setLdg_regs (v : Vol) (f : Ldg → Ldg) : (setLdg v f).regs = v.regs := rfl
@[simp] theorem setLdg_rwoUsed (v : Vol) (f : Ldg → Ldg) : (setLdg v f).rwoUsed = v.rwoUsed := rfl
@[simp] theorem setLdg_resetting (v : Vol) (f : Ldg → Ldg) : (setLdg v f).resetting = v.resetting := rfl
@[simp] theorem setLdg_ans (v : Vol) (f : Ldg → Ldg) : (setLdg v f).ans = v.ans := rfl
@[simp] theorem setLdg_sram (v : Vol) (f : Ldg → Ldg) : (setLdg v f).sram = v.sram := rfl
@[simp] theorem setLdg_sramErr (v : Vol) (f : Ldg → Ldg) : (setLdg v f).sramErr = v.sramErr := rfl
@[simp] theorem setLdg_parked (v : Vol) (f : Ldg → Ldg) : (setLdg v f).parked = v.parked := rfl
@[simp] theorem setLdg_stuck (v : Vol) (f : Ldg → Ldg) : (setLdg v f).stuck = v.stuck := rfl
@[simp] theorem setLdg_mtx (v : Vol) (f : Ldg → Ldg) : (setLdg v f).mtx = v.mtx := rfl
@[simp] theorem setLdg_tick (v : Vol) (f : Ldg → Ldg) : (setLdg v f).tick = v.tick := rfl
@[simp] theorem setLdg_tally (v : Vol) (f : Ldg → Ldg) : (setLdg v f).tally = v.tally := rfl
@[simp] theorem setLdg_outs (v : Vol) (f : Ldg → Ldg) : (setLdg v f).outs = v.outs := rfl
@[simp] theorem setLdg_mea (v : Vol) (f : Ldg → Ldg) : (setLdg v f).mea = v.mea := rfl
@[simp] theorem setLdg_sys (v : Vol) (f : Ldg → Ldg) : (setLdg v f).sys = v.sys := rfl
@[simp] theorem setLdg_dma (v : Vol) (f : Ldg → Ldg) : (setLdg v f).dma = v.dma := rfl
@[simp] theorem setLdg_eth (v : Vol) (f : Ldg → Ldg) : (setLdg v f).eth = v.eth := rfl
@[simp] theorem setLdg_ptp (v : Vol) (f : Ldg → Ldg) : (setLdg v f).ptp = v.ptp := rfl
@[simp] theorem setLdg_can (v : Vol) (f : Ldg → Ldg) : (setLdg v f).can = v.can := rfl
@[simp] theorem setLdg_hsp (v : Vol) (f : Ldg → Ldg) : (setLdg v f).hsp = v.hsp := rfl
@[simp] theorem setLdg_svc (v : Vol) (f : Ldg → Ldg) : (setLdg v f).svc = v.svc := rfl
@[simp] theorem setLdg_jtag (v : Vol) (f : Ldg → Ldg) : (setLdg v f).jtag = v.jtag := rfl
@[simp] theorem setLdg_cores (v : Vol) (f : Ldg → Ldg) : (setLdg v f).cores = v.cores := rfl
@[simp] theorem setLdg_yok (v : Vol) (f : Ldg → Ldg) : (setLdg v f).yok = v.yok := rfl
@[simp] theorem setLdg_lks (v : Vol) (f : Ldg → Ldg) : (setLdg v f).lks = v.lks := rfl
@[simp] theorem setLdg_whs (v : Vol) (f : Ldg → Ldg) : (setLdg v f).whs = v.whs := rfl
@[simp] theorem setLdg_flc (v : Vol) (f : Ldg → Ldg) : (setLdg v f).flc = v.flc := rfl
@[simp] theorem setLdg_nand (v : Vol) (f : Ldg → Ldg) : (setLdg v f).nand = v.nand := rfl

/-! ### setLks -/
@[simp] theorem setLks_now (v : Vol) (f : Lks → Lks) : (setLks v f).now = v.now := rfl
@[simp] theorem setLks_free (v : Vol) (f : Lks → Lks) : (setLks v f).free = v.free := rfl
@[simp] theorem setLks_regs (v : Vol) (f : Lks → Lks) : (setLks v f).regs = v.regs := rfl
@[simp] theorem setLks_rwoUsed (v : Vol) (f : Lks → Lks) : (setLks v f).rwoUsed = v.rwoUsed := rfl
@[simp] theorem setLks_resetting (v : Vol) (f : Lks → Lks) : (setLks v f).resetting = v.resetting := rfl
@[simp] theorem setLks_ans (v : Vol) (f : Lks → Lks) : (setLks v f).ans = v.ans := rfl
@[simp] theorem setLks_sram (v : Vol) (f : Lks → Lks) : (setLks v f).sram = v.sram := rfl
@[simp] theorem setLks_sramErr (v : Vol) (f : Lks → Lks) : (setLks v f).sramErr = v.sramErr := rfl
@[simp] theorem setLks_parked (v : Vol) (f : Lks → Lks) : (setLks v f).parked = v.parked := rfl
@[simp] theorem setLks_stuck (v : Vol) (f : Lks → Lks) : (setLks v f).stuck = v.stuck := rfl
@[simp] theorem setLks_mtx (v : Vol) (f : Lks → Lks) : (setLks v f).mtx = v.mtx := rfl
@[simp] theorem setLks_tick (v : Vol) (f : Lks → Lks) : (setLks v f).tick = v.tick := rfl
@[simp] theorem setLks_tally (v : Vol) (f : Lks → Lks) : (setLks v f).tally = v.tally := rfl
@[simp] theorem setLks_outs (v : Vol) (f : Lks → Lks) : (setLks v f).outs = v.outs := rfl
@[simp] theorem setLks_mea (v : Vol) (f : Lks → Lks) : (setLks v f).mea = v.mea := rfl
@[simp] theorem setLks_sys (v : Vol) (f : Lks → Lks) : (setLks v f).sys = v.sys := rfl
@[simp] theorem setLks_dma (v : Vol) (f : Lks → Lks) : (setLks v f).dma = v.dma := rfl
@[simp] theorem setLks_eth (v : Vol) (f : Lks → Lks) : (setLks v f).eth = v.eth := rfl
@[simp] theorem setLks_ptp (v : Vol) (f : Lks → Lks) : (setLks v f).ptp = v.ptp := rfl
@[simp] theorem setLks_can (v : Vol) (f : Lks → Lks) : (setLks v f).can = v.can := rfl
@[simp] theorem setLks_hsp (v : Vol) (f : Lks → Lks) : (setLks v f).hsp = v.hsp := rfl
@[simp] theorem setLks_svc (v : Vol) (f : Lks → Lks) : (setLks v f).svc = v.svc := rfl
@[simp] theorem setLks_jtag (v : Vol) (f : Lks → Lks) : (setLks v f).jtag = v.jtag := rfl
@[simp] theorem setLks_cores (v : Vol) (f : Lks → Lks) : (setLks v f).cores = v.cores := rfl
@[simp] theorem setLks_yok (v : Vol) (f : Lks → Lks) : (setLks v f).yok = v.yok := rfl
@[simp] theorem setLks_ldg (v : Vol) (f : Lks → Lks) : (setLks v f).ldg = v.ldg := rfl
@[simp] theorem setLks_whs (v : Vol) (f : Lks → Lks) : (setLks v f).whs = v.whs := rfl
@[simp] theorem setLks_flc (v : Vol) (f : Lks → Lks) : (setLks v f).flc = v.flc := rfl
@[simp] theorem setLks_nand (v : Vol) (f : Lks → Lks) : (setLks v f).nand = v.nand := rfl

/-! ### setHsp -/
@[simp] theorem setHsp_now (v : Vol) (k : Nat) (o : List Byte) : (setHsp v k o).now = v.now := rfl
@[simp] theorem setHsp_free (v : Vol) (k : Nat) (o : List Byte) : (setHsp v k o).free = v.free := rfl
@[simp] theorem setHsp_regs (v : Vol) (k : Nat) (o : List Byte) : (setHsp v k o).regs = v.regs := rfl
@[simp] theorem setHsp_rwoUsed (v : Vol) (k : Nat) (o : List Byte) : (setHsp v k o).rwoUsed = v.rwoUsed := rfl
@[simp] theorem setHsp_resetting (v : Vol) (k : Nat) (o : List Byte) : (setHsp v k o).resetting = v.resetting := rfl
@[simp] theorem setHsp_ans (v : Vol) (k : Nat) (o : List Byte) : (setHsp v k o).ans = v.ans := rfl
@[simp] theorem setHsp_sram (v : Vol) (k : Nat) (o : List Byte) : (setHsp v k o).sram = v.sram := rfl
@[simp] theorem setHsp_sramErr (v : Vol) (k : Nat) (o : List Byte) : (setHsp v k o).sramErr = v.sramErr := rfl
@[simp] theorem setHsp_parked (v : Vol) (k : Nat) (o : List Byte) : (setHsp v k o).parked = v.parked := rfl
@[simp] theorem setHsp_stuck (v : Vol) (k : Nat) (o : List Byte) : (setHsp v k o).stuck = v.stuck := rfl
@[simp] theorem setHsp_mtx (v : Vol) (k : Nat) (o : List Byte) : (setHsp v k o).mtx = v.mtx := rfl
@[simp] theorem setHsp_tick (v : Vol) (k : Nat) (o : List Byte) : (setHsp v k o).tick = v.tick := rfl
@[simp] theorem setHsp_tally (v : Vol) (k : Nat) (o : List Byte) : (setHsp v k o).tally = v.tally := rfl
@[simp] theorem setHsp_outs (v : Vol) (k : Nat) (o : List Byte) : (setHsp v k o).outs = v.outs := rfl
@[simp] theorem setHsp_mea (v : Vol) (k : Nat) (o : List Byte) : (setHsp v k o).mea = v.mea := rfl
@[simp] theorem setHsp_sys (v : Vol) (k : Nat) (o : List Byte) : (setHsp v k o).sys = v.sys := rfl
@[simp] theorem setHsp_dma (v : Vol) (k : Nat) (o : List Byte) : (setHsp v k o).dma = v.dma := rfl
@[simp] theorem setHsp_eth (v : Vol) (k : Nat) (o : List Byte) : (setHsp v k o).eth = v.eth := rfl
@[simp] theorem setHsp_ptp (v : Vol) (k : Nat) (o : List Byte) : (setHsp v k o).ptp = v.ptp := rfl
@[simp] theorem setHsp_can (v : Vol) (k : Nat) (o : List Byte) : (setHsp v k o).can = v.can := rfl
@[simp] theorem setHsp_svc (v : Vol) (k : Nat) (o : List Byte) : (setHsp v k o).svc = v.svc := rfl
@[simp] theorem setHsp_jtag (v : Vol) (k : Nat) (o : List Byte) : (setHsp v k o).jtag = v.jtag := rfl
@[simp] theorem setHsp_cores (v : Vol) (k : Nat) (o : List Byte) : (setHsp v k o).cores = v.cores := rfl
@[simp] theorem setHsp_yok (v : Vol) (k : Nat) (o : List Byte) : (setHsp v k o).yok = v.yok := rfl
@[simp] theorem setHsp_ldg (v : Vol) (k : Nat) (o : List Byte) : (setHsp v k o).ldg = v.ldg := rfl
@[simp] theorem setHsp_lks (v : Vol) (k : Nat) (o : List Byte) : (setHsp v k o).lks = v.lks := rfl
@[simp] theorem setHsp_whs (v : Vol) (k : Nat) (o : List Byte) : (setHsp v k o).whs = v.whs := rfl
@[simp] theorem setHsp_flc (v : Vol) (k : Nat) (o : List Byte) : (setHsp v k o).flc = v.flc := rfl
@[simp] theorem setHsp_nand (v : Vol) (k : Nat) (o : List Byte) : (setHsp v k o).nand = v.nand := rfl

/-! ### canPut -/
@[simp] theorem canPut_now (v : Vol) (e : Nat) (c : Can) : (canPut v e c).now = v.now := rfl
@[simp] theorem canPut_free (v : Vol) (e : Nat) (c : Can) : (canPut v e c).free = v.free := rfl
@[simp] theorem canPut_regs (v : Vol) (e : Nat) (c : Can) : (canPut v e c).regs = v.regs := rfl
@[simp] theorem canPut_rwoUsed (v : Vol) (e : Nat) (c : Can) : (canPut v e c).rwoUsed = v.rwoUsed := rfl
@[simp] theorem canPut_resetting (v : Vol) (e : Nat) (c : Can) : (canPut v e c).resetting = v.resetting := rfl
@[simp] theorem canPut_ans (v : Vol) (e : Nat) (c : Can) : (canPut v e c).ans = v.ans := rfl
@[simp] theorem canPut_sram (v : Vol) (e : Nat) (c : Can) : (canPut v e c).sram = v.sram := rfl
@[simp] theorem canPut_sramErr (v : Vol) (e : Nat) (c : Can) : (canPut v e c).sramErr = v.sramErr := rfl
@[simp] theorem canPut_parked (v : Vol) (e : Nat) (c : Can) : (canPut v e c).parked = v.parked := rfl
@[simp] theorem canPut_stuck (v : Vol) (e : Nat) (c : Can) : (canPut v e c).stuck = v.stuck := rfl
@[simp] theorem canPut_mtx (v : Vol) (e : Nat) (c : Can) : (canPut v e c).mtx = v.mtx := rfl
@[simp] theorem canPut_tick (v : Vol) (e : Nat) (c : Can) : (canPut v e c).tick = v.tick := rfl
@[simp] theorem canPut_tally (v : Vol) (e : Nat) (c : Can) : (canPut v e c).tally = v.tally := rfl
@[simp] theorem canPut_outs (v : Vol) (e : Nat) (c : Can) : (canPut v e c).outs = v.outs := rfl
@[simp] theorem canPut_mea (v : Vol) (e : Nat) (c : Can) : (canPut v e c).mea = v.mea := rfl
@[simp] theorem canPut_sys (v : Vol) (e : Nat) (c : Can) : (canPut v e c).sys = v.sys := rfl
@[simp] theorem canPut_dma (v : Vol) (e : Nat) (c : Can) : (canPut v e c).dma = v.dma := rfl
@[simp] theorem canPut_eth (v : Vol) (e : Nat) (c : Can) : (canPut v e c).eth = v.eth := rfl
@[simp] theorem canPut_ptp (v : Vol) (e : Nat) (c : Can) : (canPut v e c).ptp = v.ptp := rfl
@[simp] theorem canPut_hsp (v : Vol) (e : Nat) (c : Can) : (canPut v e c).hsp = v.hsp := rfl
@[simp] theorem canPut_svc (v : Vol) (e : Nat) (c : Can) : (canPut v e c).svc = v.svc := rfl
@[simp] theorem canPut_jtag (v : Vol) (e : Nat) (c : Can) : (canPut v e c).jtag = v.jtag := rfl
@[simp] theorem canPut_cores (v : Vol) (e : Nat) (c : Can) : (canPut v e c).cores = v.cores := rfl
@[simp] theorem canPut_yok (v : Vol) (e : Nat) (c : Can) : (canPut v e c).yok = v.yok := rfl
@[simp] theorem canPut_ldg (v : Vol) (e : Nat) (c : Can) : (canPut v e c).ldg = v.ldg := rfl
@[simp] theorem canPut_lks (v : Vol) (e : Nat) (c : Can) : (canPut v e c).lks = v.lks := rfl
@[simp] theorem canPut_whs (v : Vol) (e : Nat) (c : Can) : (canPut v e c).whs = v.whs := rfl
@[simp] theorem canPut_flc (v : Vol) (e : Nat) (c : Can) : (canPut v e c).flc = v.flc := rfl
@[simp] theorem canPut_nand (v : Vol) (e : Nat) (c : Can) : (canPut v e c).nand = v.nand := rfl

/-! ### The field that an update writes -/
@[simp] theorem setTick_tick (v : Vol) (f : Tick → Tick) : (setTick v f).tick = f v.tick := rfl
@[simp] theorem setSysP_sys (v : Vol) (f : Sys → Sys) : (setSysP v f).sys = f v.sys := rfl
@[simp] theorem setWhs_whs (v : Vol) (f : Whs → Whs) : (setWhs v f).whs = f v.whs := rfl
@[simp] theorem setYok_yok (v : Vol) (f : Yok → Yok) : (setYok v f).yok = f v.yok := rfl
@[simp] theorem setLdg_ldg (v : Vol) (f : Ldg → Ldg) : (setLdg v f).ldg = f v.ldg := rfl
@[simp] theorem setLks_lks (v : Vol) (f : Lks → Lks) : (setLks v f).lks = f v.lks := rfl
@[simp] theorem answer_ans (v : Vol) (c : Nat) (d : TWord) : (answer v c d).ans = ⟨c, d⟩ := rfl
@[simp] theorem nextFree_free (v : Vol) : (nextFree v).free = v.free + 1 := rfl
@[simp] theorem setCore_cores (v : Vol) (k : Nat) (c : Core) : (setCore v k c).cores = v.cores.set k c := rfl
@[simp] theorem setHsp_hsp (v : Vol) (k : Nat) (o : List Byte) : (setHsp v k o).hsp = { v.hsp with out := o, kind := k, left := none } := rfl

end Sys2Proof.Machine
end

