-- ==== Sys2Proof/Laws/Regs.lean ====
section
/-! SUPPORT. Register reads after the named updates, and what the shared operations of the bus do. -/

namespace Sys2Proof.Machine

/-! ### Register reads -/

theorem rg_rgSet (v : Vol) (a : Nat) (w : Word) (b : Nat) : rg (rgSet v a w) b = if b = a then w else rg v b :=
  smapGet_set _ _ _ _ _

@[simp] theorem rg_rgSet_same (v : Vol) (a : Nat) (w : Word) : rg (rgSet v a w) a = w := by simp [rg_rgSet]

theorem rg_rgSet_ne (v : Vol) {a b : Nat} (w : Word) (h : b ≠ a) : rg (rgSet v a w) b = rg v b := by simp [rg_rgSet, h]

/-- A register read depends on the register file alone. -/
theorem rg_congr {v v' : Vol} (h : v'.regs = v.regs) (a : Nat) : rg v' a = rg v a := by simp [rg, h]

@[simp] theorem rg_answer (v : Vol) (c : Nat) (d : TWord) (a : Nat) : rg (answer v c d) a = rg v a := rfl

theorem rg_rgOr (v : Vol) (a : Nat) (w : Word) (b : Nat) :
    rg (rgOr v a w) b = if b = a then rg v a ||| w else rg v b := rg_rgSet _ _ _ _

theorem rg_setFault (v : Vol) (p i : Nat) (b : Nat) :
    rg (setFault v p i) b = if b = aFault p then rg v (aFault p) ||| bitWord i else rg v b := rg_rgOr _ _ _ _

/-! ### Events -/

@[simp] theorem noteLine_regs (n : Nat) (v v' : Vol) : (noteLine n v v').regs = v'.regs := by
  unfold noteLine; split <;> rfl

/-- An occurrence of an event changes one register: the page's EV_PEND, in the event's bit, while EV_EN has it. -/
theorem raiseEvent_regs (v : Vol) (p i : Nat) :
    (raiseEvent v p i).regs = if rb v (aEvEn p) i then (rgOr v (aEvPend p) (bitWord i)).regs else v.regs := by
  unfold raiseEvent
  split
  · dsimp only; split <;> simp
  · rfl

theorem rg_raiseEvent (v : Vol) (p i b : Nat) :
    rg (raiseEvent v p i) b =
      if b = aEvPend p ∧ rb v (aEvEn p) i then rg v (aEvPend p) ||| bitWord i else rg v b := by
  have h := raiseEvent_regs v p i
  by_cases he : rb v (aEvEn p) i
  · rw [if_pos he] at h
    rw [rg_congr h, rg_rgOr]; by_cases hb : b = aEvPend p <;> simp [hb, he]
  · rw [if_neg he] at h
    rw [rg_congr h]; simp [he]

theorem rg_raiseEvent_ne (v : Vol) (p i : Nat) {b : Nat} (h : b ≠ aEvPend p) : rg (raiseEvent v p i) b = rg v b := by
  rw [rg_raiseEvent, if_neg (fun hh => h hh.1)]

@[simp] theorem raiseEvent_now (v : Vol) (p i : Nat) : (raiseEvent v p i).now = v.now := by
  unfold raiseEvent noteLine; (repeat' split) <;> first | rfl | (dsimp only; (repeat' split) <;> rfl)
@[simp] theorem raiseEvent_free (v : Vol) (p i : Nat) : (raiseEvent v p i).free = v.free := by
  unfold raiseEvent noteLine; (repeat' split) <;> first | rfl | (dsimp only; (repeat' split) <;> rfl)
@[simp] theorem raiseEvent_rwoUsed (v : Vol) (p i : Nat) : (raiseEvent v p i).rwoUsed = v.rwoUsed := by
  unfold raiseEvent noteLine; (repeat' split) <;> first | rfl | (dsimp only; (repeat' split) <;> rfl)
@[simp] theorem raiseEvent_resetting (v : Vol) (p i : Nat) : (raiseEvent v p i).resetting = v.resetting := by
  unfold raiseEvent noteLine; (repeat' split) <;> first | rfl | (dsimp only; (repeat' split) <;> rfl)
@[simp] theorem raiseEvent_ans (v : Vol) (p i : Nat) : (raiseEvent v p i).ans = v.ans := by
  unfold raiseEvent noteLine; (repeat' split) <;> first | rfl | (dsimp only; (repeat' split) <;> rfl)
@[simp] theorem raiseEvent_sram (v : Vol) (p i : Nat) : (raiseEvent v p i).sram = v.sram := by
  unfold raiseEvent noteLine; (repeat' split) <;> first | rfl | (dsimp only; (repeat' split) <;> rfl)
@[simp] theorem raiseEvent_sramErr (v : Vol) (p i : Nat) : (raiseEvent v p i).sramErr = v.sramErr := by
  unfold raiseEvent noteLine; (repeat' split) <;> first | rfl | (dsimp only; (repeat' split) <;> rfl)
@[simp] theorem raiseEvent_parked (v : Vol) (p i : Nat) : (raiseEvent v p i).parked = v.parked := by
  unfold raiseEvent noteLine; (repeat' split) <;> first | rfl | (dsimp only; (repeat' split) <;> rfl)
@[simp] theorem raiseEvent_tick (v : Vol) (p i : Nat) : (raiseEvent v p i).tick = v.tick := by
  unfold raiseEvent noteLine; (repeat' split) <;> first | rfl | (dsimp only; (repeat' split) <;> rfl)
@[simp] theorem raiseEvent_outs (v : Vol) (p i : Nat) : (raiseEvent v p i).outs = v.outs := by
  unfold raiseEvent noteLine; (repeat' split) <;> first | rfl | (dsimp only; (repeat' split) <;> rfl)
@[simp] theorem raiseEvent_mea (v : Vol) (p i : Nat) : (raiseEvent v p i).mea = v.mea := by
  unfold raiseEvent noteLine; (repeat' split) <;> first | rfl | (dsimp only; (repeat' split) <;> rfl)
@[simp] theorem raiseEvent_sys (v : Vol) (p i : Nat) : (raiseEvent v p i).sys = v.sys := by
  unfold raiseEvent noteLine; (repeat' split) <;> first | rfl | (dsimp only; (repeat' split) <;> rfl)
@[simp] theorem raiseEvent_dma (v : Vol) (p i : Nat) : (raiseEvent v p i).dma = v.dma := by
  unfold raiseEvent noteLine; (repeat' split) <;> first | rfl | (dsimp only; (repeat' split) <;> rfl)
@[simp] theorem raiseEvent_eth (v : Vol) (p i : Nat) : (raiseEvent v p i).eth = v.eth := by
  unfold raiseEvent noteLine; (repeat' split) <;> first | rfl | (dsimp only; (repeat' split) <;> rfl)
@[simp] theorem raiseEvent_ptp (v : Vol) (p i : Nat) : (raiseEvent v p i).ptp = v.ptp := by
  unfold raiseEvent noteLine; (repeat' split) <;> first | rfl | (dsimp only; (repeat' split) <;> rfl)
@[simp] theorem raiseEvent_can (v : Vol) (p i : Nat) : (raiseEvent v p i).can = v.can := by
  unfold raiseEvent noteLine; (repeat' split) <;> first | rfl | (dsimp only; (repeat' split) <;> rfl)
@[simp] theorem raiseEvent_hsp (v : Vol) (p i : Nat) : (raiseEvent v p i).hsp = v.hsp := by
  unfold raiseEvent noteLine; (repeat' split) <;> first | rfl | (dsimp only; (repeat' split) <;> rfl)
@[simp] theorem raiseEvent_svc (v : Vol) (p i : Nat) : (raiseEvent v p i).svc = v.svc := by
  unfold raiseEvent noteLine; (repeat' split) <;> first | rfl | (dsimp only; (repeat' split) <;> rfl)
@[simp] theorem raiseEvent_jtag (v : Vol) (p i : Nat) : (raiseEvent v p i).jtag = v.jtag := by
  unfold raiseEvent noteLine; (repeat' split) <;> first | rfl | (dsimp only; (repeat' split) <;> rfl)
@[simp] theorem raiseEvent_cores (v : Vol) (p i : Nat) : (raiseEvent v p i).cores = v.cores := by
  unfold raiseEvent noteLine; (repeat' split) <;> first | rfl | (dsimp only; (repeat' split) <;> rfl)
@[simp] theorem raiseEvent_yok (v : Vol) (p i : Nat) : (raiseEvent v p i).yok = v.yok := by
  unfold raiseEvent noteLine; (repeat' split) <;> first | rfl | (dsimp only; (repeat' split) <;> rfl)
@[simp] theorem raiseEvent_ldg (v : Vol) (p i : Nat) : (raiseEvent v p i).ldg = v.ldg := by
  unfold raiseEvent noteLine; (repeat' split) <;> first | rfl | (dsimp only; (repeat' split) <;> rfl)
@[simp] theorem raiseEvent_lks (v : Vol) (p i : Nat) : (raiseEvent v p i).lks = v.lks := by
  unfold raiseEvent noteLine; (repeat' split) <;> first | rfl | (dsimp only; (repeat' split) <;> rfl)
@[simp] theorem raiseEvent_whs (v : Vol) (p i : Nat) : (raiseEvent v p i).whs = v.whs := by
  unfold raiseEvent noteLine; (repeat' split) <;> first | rfl | (dsimp only; (repeat' split) <;> rfl)
@[simp] theorem raiseEvent_flc (v : Vol) (p i : Nat) : (raiseEvent v p i).flc = v.flc := by
  unfold raiseEvent noteLine; (repeat' split) <;> first | rfl | (dsimp only; (repeat' split) <;> rfl)
@[simp] theorem raiseEvent_nand (v : Vol) (p i : Nat) : (raiseEvent v p i).nand = v.nand := by
  unfold raiseEvent noteLine; (repeat' split) <;> first | rfl | (dsimp only; (repeat' split) <;> rfl)

/-! ### The bus -/

/-- With no channel being aborted nothing settles. -/
theorem dmaSettle_noAbort (nv : Nv) (v : Vol) (h : noAbort v = true) : dmaSettle nv v = v := by
  unfold dmaSettle
  have key : ∀ (f : Vol → Nat → Vol) (l : List Nat), (∀ i ∈ l, f v i = v) → l.foldl f v = v := by
    intro f l
    induction l with
    | nil => intro _; rfl
    | cons i l ih =>
      intro hl
      rw [List.foldl_cons, hl i (List.mem_cons_self ..)]
      exact ih fun j hj => hl j (List.mem_cons_of_mem _ hj)
  apply key
  intro i hi
  have hi' := List.all_eq_true.mp h i hi
  cases ha : dmaActive v (i / 8) (i % 8) with
  | false => simp
  | true =>
    simp only [ha, Bool.not_true, Bool.false_or, Bool.and_eq_true, Option.isNone_iff_eq_none, Bool.not_eq_true'] at hi'
    simp [hi'.1, hi'.2]

theorem hspArrives_ans (v : Vol) (r : Req) : (hspArrives v r).ans = v.ans := by
  unfold hspArrives; split <;> (repeat' split) <;> rfl

theorem diagArrives_ans (v : Vol) (r : Req) : (diagArrives v r).ans = v.ans := by
  unfold diagArrives; dsimp only; (repeat' split) <;> rfl

@[simp] theorem noteGrant_ans (v : Vol) (r : Req) : (noteGrant v r).ans = v.ans := by
  unfold noteGrant; dsimp only; (repeat' split) <;> rfl

@[simp] theorem noteGrant_noAbort (v : Vol) (r : Req) : noAbort (noteGrant v r) = noAbort v := by
  unfold noteGrant; dsimp only; (repeat' split) <;> rfl

@[simp] theorem idTaken_ans (v : Vol) (m id : Nat) : (idTaken v m id).ans = v.ans := by
  unfold idTaken; split <;> rfl

@[simp] theorem idTaken_noAbort (v : Vol) (m id : Nat) : noAbort (idTaken v m id) = noAbort v := by
  unfold idTaken; split <;> rfl

theorem shown_ans (v : Vol) (r : Req) : (shown v r).ans = v.ans := by
  unfold shown
  by_cases h1 : r.master ≠ 15
  · rw [if_pos h1]
  · rw [if_neg h1]
    by_cases h2 : r.id = 1
    · rw [if_pos h2, rgSet_ans, rgSet_ans, hspArrives_ans]
    · rw [if_neg h2]
      by_cases h3 : r.id = 0
      · rw [if_pos h3]
      · rw [if_neg h3]
        by_cases h4 : r.id = 2
        · rw [if_pos h4, diagArrives_ans]
        · rw [if_neg h4]

/-- The answer of an access outlasts its end. -/
@[simp] theorem finish_ans (nv : Nv) (v : Vol) (r : Req) : (finish nv v r).ans = v.ans := by
  have h : (finish nv v r).ans = (shown v r).ans := by rw [finish]
  rw [h, shown_ans]

/-- The end of an access by another master than 15, with no channel being aborted: the arbiter's rotation and a processor's ID
counter go on, and nothing else changes (R278, R628). -/
theorem finish_plain (nv : Nv) (v : Vol) (r : Req) (hm : r.master ≠ 15) (h : noAbort v = true) :
    finish nv v r = idTaken (noteGrant v r) r.master r.id := by
  have hs : shown v r = v := by simp [shown, hm]
  have hn : noAbort (idTaken (noteGrant v r) r.master r.id) = true := by rw [idTaken_noAbort, noteGrant_noAbort, h]
  have ha : (idTaken (noteGrant v r) r.master r.id).ans = v.ans := by simp
  unfold finish; rw [hs, dmaSettle_noAbort nv _ hn, ← ha]

/-- What an access meets where the bus is open (R277, R282): it leaves its master, and is not late. -/
theorem busAccess_open (nv : Nv) (v : Vol) (r : Req) (hb : busOpen v r.master = true) (hi : r.id = masterId v r.master) :
    busAccess nv v r = (match route nv v r with
      | (w, true) => idTaken { w with parked := w.parked ++ [r] } r.master r.id
      | (w, false) => finish nv w r) := by
  simp only [busOpen, Bool.and_eq_true, bne_iff_ne, ne_eq, Bool.not_eq_true'] at hb
  obtain ⟨⟨⟨⟨hc, hr⟩, hratio⟩, hheld⟩, hlate⟩ := hb
  have h1 : heldBack v r = false := by rw [← hheld]; simp [heldBack, hi]
  have h2 : v.mtx.late.contains (r.master, r.id, r.addr) = false := by
    rw [List.contains_eq_any_beq, List.any_eq_false]
    intro x hx
    have := List.all_eq_true.mp hlate x hx
    intro he
    rw [beq_iff_eq] at he
    rw [← he] at this
    simp at this
  have h3 : busOne nv v r = route nv v r := by
    simp only [busOne, busBy, hratio, if_true]
    rw [if_neg (by simp [hc, hr])]
  unfold busAccess
  rw [if_neg (by rw [h1]; decide), h2, h3]
  rfl

/-- A write of a register of an open page (R10): the page takes it and the answer is OKAY. -/
theorem busWrite_open (nv : Nv) (v : Vol) (m p off : Nat) (w : TWord) (inf : PageInfo) (hp : pageInfo p = some inf)
    (ho : pageOpen v m p = true) (hoff : off < 0x400) (h4 : off % 4 = 0) :
    busWrite nv v m .word (ra p off) w =
      finish nv (answer (pageWrite nv v inf m p off .direct w) 0 TWord.zero) ⟨m, masterId v m, true, .word, ra p off, w⟩ := by
  simp only [pageOpen, Bool.and_eq_true, decide_eq_true_eq] at ho
  obtain ⟨⟨⟨⟨hb, -⟩, hrdy⟩, hdom⟩, hgate⟩ := ho
  have hd : pageDom p = inf.dom := by simp [pageDom, hp]
  have e1 : ra p off - 0x40000000 = p * 0x1000 + off := by simp [ra]; omega
  have e2 : (ra p off - 0x40000000) / 0x1000 = p := by rw [e1]; omega
  have e3 : ra p off % 0x1000 = off := by simp only [ra]; omega
  have e4 : ra p off % 4 = 0 := by simp only [ra]; omega
  have e5 : 0x40000000 ≤ ra p off := by simp [ra]; omega
  have hbus : route nv v ⟨m, masterId v m, true, .word, ra p off, w⟩ =
      (answer (pageWrite nv v inf m p off .direct w) 0 TWord.zero, false) := by
    simp only [route, e2, e5, if_true, hp, pageAccess, e3, e4]
    simp [offVia, hoff, hrdy, ← hd, hdom, gateOpened, hgate]
  rw [busWrite, busAccess_open nv v _ hb rfl, hbus]

/-- The same through the bit-set alias, and through the bit-clear alias (R4). -/
theorem busWrite_open_set (nv : Nv) (v : Vol) (m p off : Nat) (w : TWord) (inf : PageInfo) (hp : pageInfo p = some inf)
    (ho : pageOpen v m p = true) (hoff : off < 0x400) (h4 : off % 4 = 0) :
    busWrite nv v m .word (ra p off + 0x400) w =
      finish nv (answer (pageWrite nv v inf m p off .setBits w) 0 TWord.zero)
        ⟨m, masterId v m, true, .word, ra p off + 0x400, w⟩ := by
  simp only [pageOpen, Bool.and_eq_true, decide_eq_true_eq] at ho
  obtain ⟨⟨⟨⟨hb, -⟩, hrdy⟩, hdom⟩, hgate⟩ := ho
  have hd : pageDom p = inf.dom := by simp [pageDom, hp]
  have e2 : (ra p off + 0x400 - 0x40000000) / 0x1000 = p := by simp only [ra]; omega
  have e3 : (ra p off + 0x400) % 0x1000 = off + 0x400 := by simp only [ra]; omega
  have e4 : (ra p off + 0x400) % 4 = 0 := by simp only [ra]; omega
  have e5 : 0x40000000 ≤ ra p off + 0x400 := by simp only [ra]; omega
  have hbus : route nv v ⟨m, masterId v m, true, .word, ra p off + 0x400, w⟩ =
      (answer (pageWrite nv v inf m p off .setBits w) 0 TWord.zero, false) := by
    simp only [route, e2, e5, if_true, hp, pageAccess, e3, e4]
    have o1 : ¬ (off + 0x400 < 0x400) := by omega
    have o2 : off + 0x400 < 0x800 := by omega
    simp [offVia, o1, o2, hrdy, ← hd, hdom, gateOpened, hgate]
  rw [busWrite, busAccess_open nv v _ hb rfl, hbus]

theorem busWrite_open_clear (nv : Nv) (v : Vol) (m p off : Nat) (w : TWord) (inf : PageInfo) (hp : pageInfo p = some inf)
    (ho : pageOpen v m p = true) (hoff : off < 0x400) (h4 : off % 4 = 0) :
    busWrite nv v m .word (ra p off + 0x800) w =
      finish nv (answer (pageWrite nv v inf m p off .clearBits w) 0 TWord.zero)
        ⟨m, masterId v m, true, .word, ra p off + 0x800, w⟩ := by
  simp only [pageOpen, Bool.and_eq_true, decide_eq_true_eq] at ho
  obtain ⟨⟨⟨⟨hb, -⟩, hrdy⟩, hdom⟩, hgate⟩ := ho
  have hd : pageDom p = inf.dom := by simp [pageDom, hp]
  have e2 : (ra p off + 0x800 - 0x40000000) / 0x1000 = p := by simp only [ra]; omega
  have e3 : (ra p off + 0x800) % 0x1000 = off + 0x800 := by simp only [ra]; omega
  have e4 : (ra p off + 0x800) % 4 = 0 := by simp only [ra]; omega
  have e5 : 0x40000000 ≤ ra p off + 0x800 := by simp only [ra]; omega
  have hbus : route nv v ⟨m, masterId v m, true, .word, ra p off + 0x800, w⟩ =
      (answer (pageWrite nv v inf m p off .clearBits w) 0 TWord.zero, false) := by
    simp only [route, e2, e5, if_true, hp, pageAccess, e3, e4]
    have o1 : ¬ (off + 0x800 < 0x400) := by omega
    have o2 : ¬ (off + 0x800 < 0x800) := by omega
    have o3 : off + 0x800 < 0xC00 := by omega
    simp [offVia, o1, o2, o3, hrdy, ← hd, hdom, gateOpened, hgate]
  rw [busWrite, busAccess_open nv v _ hb rfl, hbus]

/-- A read of a register of an open page. -/
theorem busRead_open (nv : Nv) (v : Vol) (m p off : Nat) (inf : PageInfo) (hp : pageInfo p = some inf)
    (ho : pageOpen v m p = true) (hoff : off < 0x400) (h4 : off % 4 = 0) :
    busRead nv v m (ra p off) =
      finish nv (answer (pageOnRead v inf off) 0 (pageRead nv v inf p off))
        ⟨m, masterId v m, false, .word, ra p off, TWord.zero⟩ := by
  simp only [pageOpen, Bool.and_eq_true, decide_eq_true_eq] at ho
  obtain ⟨⟨⟨⟨hb, -⟩, hrdy⟩, hdom⟩, hgate⟩ := ho
  have hd : pageDom p = inf.dom := by simp [pageDom, hp]
  have e2 : (ra p off - 0x40000000) / 0x1000 = p := by simp only [ra]; omega
  have e3 : ra p off % 0x1000 = off := by simp only [ra]; omega
  have e4 : ra p off % 4 = 0 := by simp only [ra]; omega
  have e5 : 0x40000000 ≤ ra p off := by simp only [ra]; omega
  have hbus : route nv v ⟨m, masterId v m, false, .word, ra p off, TWord.zero⟩ =
      (answer (pageOnRead v inf off) 0 (pageRead nv v inf p off), false) := by
    simp only [route, e2, e5, if_true, hp, pageAccess, e3, e4]
    simp [offVia, hoff, hrdy, ← hd, hdom, gateOpened, hgate]
  rw [busRead, busAccess_open nv v _ hb rfl, hbus]

end Sys2Proof.Machine
end

