-- ==== Sys2Proof/Laws/Core.lean ====
section
/-! SUPPORT. Reads of a core after the named updates, and a trigger that nothing turns away. -/

namespace Sys2Proof.Machine

theorem coreOf_setCore (v : Vol) (k : Nat) (c : Core) :
    coreOf (setCore v k c) k = if k < v.cores.length then c else Core.reset := by
  unfold coreOf setCore
  simp only [List.getD_eq_getElem?_getD, List.getElem?_set]
  by_cases h : k < v.cores.length <;> simp [h]

theorem coreOf_setCore_ne (v : Vol) {j k : Nat} (c : Core) (h : j ≠ k) : coreOf (setCore v k c) j = coreOf v j := by
  unfold coreOf setCore
  simp only [List.getD_eq_getElem?_getD, List.getElem?_set, if_neg (Ne.symm h)]

theorem coreOf_onCore (v : Vol) (k : Nat) (f : Core → Core) (h : k < v.cores.length) :
    coreOf (onCore v k f) k = f (coreOf v k) := by simp [onCore, coreOf_setCore, h]

theorem coreOf_onCore_ne (v : Vol) {j k : Nat} (f : Core → Core) (h : j ≠ k) : coreOf (onCore v k f) j = coreOf v j :=
  coreOf_setCore_ne v _ h

theorem setCore_setCore (v : Vol) (k : Nat) (c c' : Core) : setCore (setCore v k c) k c' = setCore v k c' := by
  simp [setCore, List.set_set]

/-- A core that is not there reads as reset, and a write of it changes nothing. -/
theorem coreOf_short (v : Vol) (k : Nat) (h : ¬ k < v.cores.length) : coreOf v k = Core.reset := by
  simp [coreOf, List.getD_eq_getElem?_getD, List.getElem?_eq_none (Nat.le_of_not_lt h)]

theorem setCore_short (v : Vol) (k : Nat) (c : Core) (h : ¬ k < v.cores.length) : setCore v k c = v := by
  simp [setCore, List.set_eq_of_length_le (Nat.le_of_not_lt h)]

@[simp] theorem setCore_self (v : Vol) (k : Nat) : setCore v k (coreOf v k) = v := by
  by_cases h : k < v.cores.length
  · simp only [setCore, coreOf, List.getD_eq_getElem?_getD, List.getElem?_eq_getElem h, Option.getD_some, List.set_getElem_self]
  · exact setCore_short v k _ h

theorem onCore_onCore (v : Vol) (k : Nat) (f g : Core → Core) : onCore (onCore v k f) k g = onCore v k fun c => g (f c) := by
  by_cases h : k < v.cores.length
  · rw [onCore, coreOf_onCore v k f h]; simp [onCore, setCore_setCore]
  · simp [onCore, setCore_short _ _ _ h]

/-- Nothing recorded: a trigger or bundle ends as it stands. -/
theorem afterIssue_none (nv : Nv) (v : Vol) (k : Nat) (h1 : (coreOf v k).busf = none) (h2 : (coreOf v k).trapNo = none) :
    afterIssue nv v k = v := by
  simp only [afterIssue, h1, h2]
  cases (coreOf v k).held <;> rfl

/-- The same after a change of the core that leaves both records empty. -/
theorem afterIssue_onCore (nv : Nv) (v : Vol) (k : Nat) (f : Core → Core) (h1 : (f (coreOf v k)).busf = none)
    (h2 : (f (coreOf v k)).trapNo = none) : afterIssue nv (onCore v k f) k = onCore v k f := by
  by_cases h : k < v.cores.length
  · exact afterIssue_none _ _ _ (by rw [coreOf_onCore v k f h]; exact h1) (by rw [coreOf_onCore v k f h]; exact h2)
  · have hs : onCore v k f = v := by simp [onCore, setCore_short _ _ _ h]
    rw [hs]
    exact afterIssue_none _ _ _ (by simp [coreOf_short v k h, Core.reset]) (by simp [coreOf_short v k h, Core.reset])

/-- A trigger that nothing turns away: its effect, then what the effect has recorded. -/
theorem triggerMove_plain (nv : Nv) (v : Vol) (k d : Nat) (w : TWord) (c : Core) (hc : c = modeDue (coreOf v k))
    (hi : issuing v k = true) (hh : trigHolds k d (untag k w) c = false) (hd : dstOk k d = true)
    (hds : (isTransfer d || d == 91) = true → c.ds = none) (hr : trigReserved d (untag k w) c = false)
    (he : execFault v k c.pc none [(⟨0, d, 0⟩, untag k w)] c = none) :
    triggerMove nv v k d w = afterIssue nv (trig (setCore v k { c with last := none }) k 0 d (untag k w)) k := by
  subst hc
  unfold triggerMove triggerWith
  simp only [hi, List.foldl_nil, hh, hd, hr, he]
  cases h1 : (isTransfer d || d == 91)
  · simp
  · simp [hds h1]

end Sys2Proof.Machine
end

