-- ==== Sys2Proof/Laws/Memory.lean ====
section
/-! SUPPORT. Every operation on an addressed memory keeps its canonical form, and what a read finds after a write. -/

namespace Sys2Proof.Machine

/-! ### SRAM -/

theorem memWf_congr {v v' : Vol} (h : v'.sram = v.sram) (h' : v'.sramErr = v.sramErr) : v'.memWf = v.memWf := by
  simp [Vol.memWf, h, h']

theorem sramPut_memWf (v : Vol) (key : Nat) (w : TWord) (h : v.memWf = true) : (sramPut v key w).memWf = true := by
  simp only [Vol.memWf, sramPut, Bool.and_eq_true] at *
  exact ⟨smapSet_wf _ _ _ _ h.1, smapSet_wf _ _ _ _ h.2⟩

/-- A word stored is the word read. -/
@[simp] theorem sramWord_sramPut (v : Vol) (key : Nat) (w : TWord) : sramWord (sramPut v key w) key = w := by
  simp [sramWord, sramPut]

/-- A store leaves every other word. -/
theorem sramWord_sramPut_ne (v : Vol) {key key' : Nat} (w : TWord) (h : key' ≠ key) : sramWord (sramPut v key w) key' = sramWord v key' := by
  simp [sramWord, sramPut, smapGet_set_ne, h]

theorem setFault_sram (v : Vol) (p i : Nat) : (setFault v p i).sram = v.sram := rfl
theorem setFault_sramErr (v : Vol) (p i : Nat) : (setFault v p i).sramErr = v.sramErr := rfl
theorem rgInc_sram (v : Vol) (a : Nat) : (rgInc v a).sram = v.sram := rfl
theorem rgInc_sramErr (v : Vol) (a : Nat) : (rgInc v a).sramErr = v.sramErr := rfl

theorem noteEcc_sameMem (v : Vol) (key m : Nat) (u : Bool) :
    (noteEcc v key m u).sram = v.sram ∧ (noteEcc v key m u).sramErr = v.sramErr := by
  unfold noteEcc
  generalize BitVec.ofNat 32 key = x
  generalize BitVec.ofNat 32 (m + if u = true then 0x80000000 else 0) = y
  cases u
  · exact ⟨(rgInc_sram _ _).trans ((rgSet_sram _ _ _).trans (rgSet_sram _ _ _)),
      (rgInc_sramErr _ _).trans ((rgSet_sramErr _ _ _).trans (rgSet_sramErr _ _ _))⟩
  · exact ⟨(raiseEvent_sram _ _ _).trans ((setFault_sram _ _ _).trans ((rgInc_sram _ _).trans ((rgSet_sram _ _ _).trans (rgSet_sram _ _ _)))),
      (raiseEvent_sramErr _ _ _).trans ((setFault_sramErr _ _ _).trans ((rgInc_sramErr _ _).trans
        ((rgSet_sramErr _ _ _).trans (rgSet_sramErr _ _ _))))⟩

theorem debit_sram (v : Vol) (k f n : Nat) : (debit v k f n).sram = v.sram ∧ (debit v k f n).sramErr = v.sramErr := by
  unfold debit; split <;> simp

theorem sramCorrect_memWf (v : Vol) (key m : Nat) (h : v.memWf = true) : (sramCorrect v key m).memWf = true := by
  unfold sramCorrect
  rw [memWf_congr (debit_sram _ _ _ _).1 (debit_sram _ _ _ _).2, memWf_congr (noteEcc_sameMem _ _ _ _).1 (noteEcc_sameMem _ _ _ _).2]
  simp only [Vol.memWf, Bool.and_eq_true] at *
  exact ⟨h.1, smapSet_wf _ _ _ _ h.2⟩

theorem sramRead_memWf (v : Vol) (key m : Nat) (h : v.memWf = true) : (sramRead v key m).1.memWf = true := by
  unfold sramRead
  simp only
  split
  · exact h
  · split
    · exact sramCorrect_memWf v key m h
    · split
      · rw [memWf_congr (noteEcc_sameMem _ _ _ _).1 (noteEcc_sameMem _ _ _ _).2]; exact h
      · split
        · exact h
        · split
          · refine sramCorrect_memWf _ key m ?_
            simp only [Vol.memWf, nextFree, Bool.and_eq_true] at *
            exact ⟨smapSet_wf _ _ _ _ h.1, h.2⟩
          · rw [memWf_congr (noteEcc_sameMem _ _ _ _).1 (noteEcc_sameMem _ _ _ _).2]; exact h

theorem sramLoad_memWf (v : Vol) (m sz a : Nat) (p : Place) (h : v.memWf = true) : (sramLoad v m sz a p).1.memWf = true := by
  have hr := sramRead_memWf v p.key m h
  unfold sramLoad
  split
  · exact h
  · split
    · rename_i e; rw [e] at hr; exact hr
    · rename_i e; rw [e] at hr; split <;> exact hr

theorem sramStore_memWf (v : Vol) (m sz a : Nat) (p : Place) (mask : Word) (w : TWord) (h : v.memWf = true) :
    (sramStore v m sz a p mask w).2.memWf = true ∧ ∀ v', (sramStore v m sz a p mask w).1 = some v' → v'.memWf = true := by
  have hr := sramRead_memWf v p.key m h
  unfold sramStore
  split
  · split
    · exact ⟨h, fun v' e => by cases e; exact sramPut_memWf _ _ _ h⟩
    · split
      · rename_i e; rw [e] at hr; exact ⟨hr, fun v' e => nomatch e⟩
      · rename_i e; rw [e] at hr; exact ⟨hr, fun v' e => by cases e; exact sramPut_memWf _ _ _ hr⟩
  all_goals
    split
    · exact ⟨h, fun v' e => nomatch e⟩
    · split
      · rename_i e; rw [e] at hr; exact ⟨hr, fun v' e => nomatch e⟩
      · rename_i e; rw [e] at hr; exact ⟨hr, fun v' e => by cases e; exact sramPut_memWf _ _ _ hr⟩

theorem wipeSram_memWf (v : Vol) (d : Nat) (h : v.memWf = true) : (wipeSram v d).memWf = true := by
  simp only [Vol.memWf, wipeSram, Bool.and_eq_true] at *
  exact ⟨smapKeep_wf _ _ _ h.1, smapKeep_wf _ _ _ h.2⟩

/-! ### Flash, config flash and OTP -/

theorem flashPut_wf (nv : Nv) (a : Nat) (ws : List Word) (h : nv.wf = true) : (flashPut nv a ws).wf = true := by
  induction ws generalizing nv a with
  | nil => exact h
  | cons w rest ih =>
    refine ih _ _ ?_
    simp only [Nv.wf, Bool.and_eq_true] at *
    exact ⟨⟨smapSet_wf _ _ _ _ h.1.1, h.1.2⟩, h.2⟩

theorem unitsPut_wf (nv : Nv) (a n : Nat) (e : Nat → Nat) (h : nv.wf = true) : (unitsPut nv a n e).wf = true := by
  unfold unitsPut
  generalize List.range (n / 16) = l
  induction l generalizing nv with
  | nil => exact h
  | cons i rest ih =>
    refine ih _ ?_
    simp only [Nv.wf, Bool.and_eq_true] at *
    exact ⟨⟨h.1.1, smapSet_wf _ _ _ _ h.1.2⟩, h.2⟩

theorem flashErase_wf (nv : Nv) (a n : Nat) (h : nv.wf = true) : (flashErase nv a n).wf = true := by
  simp only [Nv.wf, flashErase, Bool.and_eq_true] at *
  exact ⟨⟨smapKeep_wf _ _ _ h.1.1, smapKeep_wf _ _ _ h.1.2⟩, h.2⟩

theorem flashErased_wf (nv : Nv) (a n f : Nat) (h : nv.wf = true) : (flashErased nv a n f).wf = true := by
  simp only [Nv.wf, flashErased, Bool.and_eq_true] at *
  exact ⟨⟨smapKeep_wf _ _ _ h.1.1, smapKeep_wf _ _ _ h.1.2⟩, h.2⟩

theorem flashFailed_wf (nv : Nv) (a n f : Nat) (h : nv.wf = true) : (flashFailed nv a n f).wf = true :=
  unitsPut_wf _ _ _ _ (flashPut_wf _ _ _ h)

theorem unitsWrite_wf (nv : Nv) (a : Nat) (bs : List Byte) (h : nv.wf = true) : (unitsWrite nv a bs).wf = true :=
  unitsPut_wf _ _ _ _ (flashPut_wf _ _ _ h)

theorem otpBurn_wf (nv : Nv) (off : Nat) (w : Word) (h : nv.wf = true) : (otpBurn nv off w).wf = true := by
  simp only [Nv.wf, otpBurn, Bool.and_eq_true] at *
  exact ⟨h.1, smapSet_wf _ _ _ _ h.2⟩

theorem otpBurnAll_wf (nv : Nv) (off : Nat) (ws : List Word) (h : nv.wf = true) : (otpBurnAll nv off ws).wf = true := by
  induction ws generalizing nv off with
  | nil => exact h
  | cons w rest ih => exact ih _ _ (otpBurn_wf nv off w h)

/-- A burn with its read-back: the word burnt or part of it, and no memory but OTP. -/
theorem burnWord_wf (nv : Nv) (v : Vol) (off : Nat) (w : Word) (h : nv.wf = true) : (burnWord nv v off w).1.wf = true := by
  unfold burnWord; split <;> exact otpBurn_wf _ _ _ h

theorem burnWords_wf (nv : Nv) (v : Vol) (off : Nat) (ws : List Word) (h : nv.wf = true) : (burnWords nv v off ws).1.wf = true := by
  induction ws generalizing nv v off with
  | nil => exact h
  | cons w rest ih =>
    have hb := burnWord_wf nv v off w h
    unfold burnWords
    split
    · rename_i e; rw [e] at hb; exact ih _ _ _ hb
    · exact hb

/-- A burn sets bits and clears none. -/
theorem otpBurn_kept (nv : Nv) (off : Nat) (w : Word) : otpKept nv (otpBurn nv off w) := by
  intro a i hi
  unfold otpWord otpBurn at *
  rw [smapGet_set]
  split
  · rename_i e
    rw [e] at hi
    simp only [bit, BitVec.getLsbD_or, Bool.or_eq_true] at *
    exact .inl hi
  · exact hi

end Sys2Proof.Machine
end

