-- ==== Sys2Proof/WellFormed.lean ====
section
/-! DEFINITION. Which commands the outside can send: the operands that a constructor's types admit and the spec does not.
exec is total all the same; a term that fails its check stands for no event of the part. -/

namespace Sys2Proof

open Sys2Proof.Machine

/-- An address in a register page that exists, with its offset in a range (R1, R36). -/
def pageAddr (lo hi : Nat) (a : Word) : Bool :=
  decide (0x40000000 ≤ a.toNat) && (pageInfo ((a.toNat - 0x40000000) / 0x1000)).isSome
    && decide (lo ≤ a.toNat % 0x1000) && decide (a.toNat % 0x1000 < hi)

/-- The address of a register page (R1). -/
def pageBase (a : Word) : Bool := pageAddr 0 1 a

/-- An SRAM address in a bit-set or bit-clear window (R255), or in a tag view (R256). -/
def aliasAddr (a : Word) : Bool :=
  match place a.toNat with
  | some p => p.win == .setBits || p.win == .clearBits
  | none => false
def tagAddr (a : Word) : Bool :=
  match place a.toNat with
  | some p => p.win == .tagView
  | none => false

/-- A CAN frame carries as many bytes as its DLC says; a remote frame, which CAN FD has not, none (R576). -/
def canFrameOk (f : CanFrame) : Bool :=
  !(f.fdf && f.rtr) && decide (f.data.length = if f.rtr then 0 else dlcBytes f.fdf f.dlc.toNat)

/-- A window has an input for each of the eight channels (R315). -/
def blockInputOk (x : BlockInput) : Bool := decide (x.chans.length = 8)

/-- A Yoke frame has at least its header and its CRC (R408). -/
def yokFrameOk (f : List Byte) : Bool := decide (12 ≤ f.length)

/-- A scan names targets of the 32, each of at most four LUNs, and pages with a tag of 32 bytes (R441, R446). -/
def scanOk (n : NandScan) : Bool :=
  n.params.all (fun p => decide (p.1 < 32) && decide (p.2.luns ≤ 4)) && n.found.all fun p => decide (p.tag.length = 32)

/-- A command that the outside can send. -/
def Instr.wellFormed : Instr → Bool
  | .registerWrite _ _ a _ => pageAddr 0 0x400 a
  | .aliasWrite _ _ a _ => pageAddr 0x400 0xC00 a
  | .gateAutoClose a => pageBase a
  | .blockSoftrst _ a => pageBase a
  | .blockResetDone a => pageBase a
  | .sramAliasWrite _ _ a _ => aliasAddr a
  | .tagViewWrite _ _ a _ => tagAddr a
  | .whsRegionDone (some f) => decide (f.elem.val ≠ 0)
  | .meaConversion _ x => blockInputOk x
  | .meaWakeConversion _ x => blockInputOk x
  | .stagingWrite _ a _ => (stageChan a.toNat).isSome
  | .mark f => yokFrameOk f
  | .snap f => yokFrameOk f
  | .rply f => yokFrameOk f
  | .nak f => yokFrameOk f
  | .mbox f => yokFrameOk f
  | .state f => yokFrameOk f
  | .echo f => yokFrameOk f
  | .echoa f => yokFrameOk f
  | .down f => yokFrameOk f
  | .attreq f => yokFrameOk f
  | .attacc f => yokFrameOk f
  | .attref f => yokFrameOk f
  | .cutack f => yokFrameOk f
  | .ctrlDetach f => yokFrameOk f
  | .cutend f => yokFrameOk f
  | .format _ n => scanOk n
  | .mount _ n => scanOk n
  | .domainResetDone d => decide (d.val ≠ 0)
  | .domainPowerUp _ d => decide (d.val ≠ 0)
  | .powerGood d => decide (d.val ≠ 0)
  | .powerGoodTimeout d => decide (d.val ≠ 0)
  | .domainPowerDown _ d => decide (d.val ≠ 0)
  | .canFrameReceived _ f => canFrameOk f
  | .hspBadCommand c => c != 0x02 && c != 0x0B && c != 0x05
  | .hspCsRise n => decide (n < 32)
  | .samplePreload _ cells => decide (cells.length = 1236)
  | .usbStandardRequest b => decide (b.length = 8)
  | _ => true

/-- The bus address that a command names, if any. -/
def Instr.names : Instr → Option Word
  | .registerWrite _ _ a _ => some a
  | .aliasWrite _ _ a _ => some a
  | .gateAutoClose a => some a
  | .blockSoftrst _ a => some a
  | .blockResetDone a => some a
  | .sramAliasWrite _ _ a _ => some a
  | .tagViewWrite _ _ a _ => some a
  | .stagingWrite _ a _ => some a
  | _ => none

end Sys2Proof
end

