-- ==== Sys2Proof/Laws/PerInstr.lean ====
section
/-! SUPPORT. One lemma per command: the bus address that a well-formed command names exists. -/

namespace Sys2Proof.Laws.WellFormed

open Sys2Proof.Machine

set_option Elab.async false

/-- An address of the register space whose page exists, or of a place of memory. -/
def Exists (a : Word) : Prop :=
  (0x40000000 ≤ a.toNat ∧ (pageInfo ((a.toNat - 0x40000000) / 0x1000)).isSome = true) ∨ (place a.toNat).isSome = true

/-- A well-formed command names no bus address, or one that exists (R1, R255, R256). -/
def Statement (i : Instr) : Prop := i.wellFormed = true → ∀ a, i.names = some a → Exists a

theorem of_none {i : Instr} (h : i.names = none) : Statement i := fun _ a ha => by rw [h] at ha; cases ha

theorem of_page {lo hi : Nat} {a b : Word} (h : pageAddr lo hi a = true) (e : some a = some b) : Exists b := by
  cases e
  simp only [pageAddr, Bool.and_eq_true, decide_eq_true_eq] at h
  exact .inl ⟨h.1.1.1, h.1.1.2⟩

theorem of_place {f : Place → Bool} {a b : Word} (h : (match place a.toNat with | some p => f p | none => false) = true)
    (e : some a = some b) : Exists b := by
  cases e
  refine .inr ?_
  cases hp : place a.toNat with
  | none => rw [hp] at h; cases h
  | some p => rfl

/-- The pages that hold staging registers exist. -/
theorem staging_pages : pageInfo (pStk + 1) ≠ none ∧ (∀ i, i ≤ 7 → pageInfo (pMot 0 + i) ≠ none) ∧ (∀ i, i ≤ 1 → pageInfo (pVlv 0 + i) ≠ none)
    ∧ pageInfo pGio ≠ none := by decide +kernel

theorem of_stage {a b : Word} (h : (stageChan a.toNat).isSome = true) (e : some a = some b) : Exists b := by
  cases e
  obtain ⟨h1, h2, h3, h4⟩ := staging_pages
  refine .inl ?_
  unfold stageChan at h
  split at h
  · cases h
  · rename_i hge
    refine ⟨by omega, ?_⟩
    simp only at h
    split at h
    · cases h
    · split at h
      · rename_i hp; rw [hp]; exact Option.isSome_iff_ne_none.mpr h1
      · split at h
        · rename_i hp
          have := h2 ((a.toNat - 0x40000000) / 0x1000 - pMot 0) (by have := hp.2; simp only [pMot] at *; omega)
          rw [Nat.add_sub_cancel' hp.1] at this
          exact Option.isSome_iff_ne_none.mpr this
        · split at h
          · rename_i hp
            have := h3 ((a.toNat - 0x40000000) / 0x1000 - pVlv 0) (by have := hp.2; simp only [pVlv] at *; omega)
            rw [Nat.add_sub_cancel' hp.1] at this
            exact Option.isSome_iff_ne_none.mpr this
          · split at h
            · rename_i hp; rw [hp]; exact Option.isSome_iff_ne_none.mpr h4
            · cases h

theorem registerWrite (m : Fin 16) (sz : Size) (addr : Word) (w : TWord) : Statement (.registerWrite m sz addr w) := fun h _ e => of_page h e
theorem aliasWrite (m : Fin 16) (sz : Size) (addr : Word) (w : TWord) : Statement (.aliasWrite m sz addr w) := fun h _ e => of_page h e
theorem gateAutoClose (page : Word) : Statement (.gateAutoClose page) := fun h _ e => of_page h e
theorem matrixTimeout (m : Fin 16) (id : Fin 16) (addr : Word) : Statement (.matrixTimeout m id addr) := of_none rfl
theorem blockSoftrst (m : Fin 16) (page : Word) : Statement (.blockSoftrst m page) := fun h _ e => of_page h e
theorem blockResetDone (page : Word) : Statement (.blockResetDone page) := fun h _ e => of_page h e
theorem sramAliasWrite (m : Fin 16) (sz : Size) (addr : Word) (w : TWord) :
    Statement (.sramAliasWrite m sz addr w) := fun h _ e => of_place (f := fun p => p.win == .setBits || p.win == .clearBits) h e
theorem tagViewWrite (m : Fin 16) (sz : Size) (addr : Word) (w : TWord) :
    Statement (.tagViewWrite m sz addr w) := fun h _ e => of_place (f := fun p => p.win == .tagView) h e
theorem tickBoundary : Statement .tickBoundary := of_none rfl
theorem dropEnd : Statement .dropEnd := of_none rfl
theorem coreRelease : Statement .coreRelease := of_none rfl
theorem tickEn (m : Fin 16) : Statement (.tickEn m) := of_none rfl
theorem tickStop (m : Fin 16) : Statement (.tickStop m) := of_none rfl
theorem apply (m : Fin 16) : Statement (.apply m) := of_none rfl
theorem sourceLost : Statement .sourceLost := of_none rfl
theorem tickSvccommit (m : Fin 16) (w : Word) : Statement (.tickSvccommit m w) := of_none rfl
theorem tickNumLoRead (m : Fin 16) : Statement (.tickNumLoRead m) := of_none rfl
theorem tickBtsNsRead (m : Fin 16) : Statement (.tickBtsNsRead m) := of_none rfl
theorem bundleIssue (k : Fin 9) : Statement (.bundleIssue k) := of_none rfl
theorem add (k : Fin 9) (u : Fin 2) (a : TWord) : Statement (.add k u a) := of_none rfl
theorem sub (k : Fin 9) (u : Fin 2) (a : TWord) : Statement (.sub k u a) := of_none rfl
theorem adds (k : Fin 9) (u : Fin 2) (a : TWord) : Statement (.adds k u a) := of_none rfl
theorem subs (k : Fin 9) (u : Fin 2) (a : TWord) : Statement (.subs k u a) := of_none rfl
theorem and (k : Fin 9) (u : Fin 2) (a : TWord) : Statement (.and k u a) := of_none rfl
theorem or (k : Fin 9) (u : Fin 2) (a : TWord) : Statement (.or k u a) := of_none rfl
theorem xor (k : Fin 9) (u : Fin 2) (a : TWord) : Statement (.xor k u a) := of_none rfl
theorem shl (k : Fin 9) (u : Fin 2) (a : TWord) : Statement (.shl k u a) := of_none rfl
theorem shr (k : Fin 9) (u : Fin 2) (a : TWord) : Statement (.shr k u a) := of_none rfl
theorem sar (k : Fin 9) (u : Fin 2) (a : TWord) : Statement (.sar k u a) := of_none rfl
theorem rol (k : Fin 9) (u : Fin 2) (a : TWord) : Statement (.rol k u a) := of_none rfl
theorem min (k : Fin 9) (u : Fin 2) (a : TWord) : Statement (.min k u a) := of_none rfl
theorem max (k : Fin 9) (u : Fin 2) (a : TWord) : Statement (.max k u a) := of_none rfl
theorem ceq (k : Fin 9) (u : Fin 2) (a : TWord) : Statement (.ceq k u a) := of_none rfl
theorem clt (k : Fin 9) (u : Fin 2) (a : TWord) : Statement (.clt k u a) := of_none rfl
theorem cltu (k : Fin 9) (u : Fin 2) (a : TWord) : Statement (.cltu k u a) := of_none rfl
theorem tset (k : Fin 9) (a : TWord) : Statement (.tset k a) := of_none rfl
theorem tchk (k : Fin 9) (a : TWord) : Statement (.tchk k a) := of_none rfl
theorem mulS (k : Fin 9) (a : TWord) : Statement (.mulS k a) := of_none rfl
theorem mulU (k : Fin 9) (a : TWord) : Statement (.mulU k a) := of_none rfl
theorem divS (k : Fin 9) (a : TWord) : Statement (.divS k a) := of_none rfl
theorem divU (k : Fin 9) (a : TWord) : Statement (.divU k a) := of_none rfl
theorem ldw (k : Fin 9) (a : TWord) : Statement (.ldw k a) := of_none rfl
theorem ldh (k : Fin 9) (a : TWord) : Statement (.ldh k a) := of_none rfl
theorem ldb (k : Fin 9) (a : TWord) : Statement (.ldb k a) := of_none rfl
theorem stw (k : Fin 9) (a : TWord) : Statement (.stw k a) := of_none rfl
theorem sth (k : Fin 9) (a : TWord) : Statement (.sth k a) := of_none rfl
theorem stb (k : Fin 9) (a : TWord) : Statement (.stb k a) := of_none rfl
theorem jump (k : Fin 9) (a : TWord) : Statement (.jump k a) := of_none rfl
theorem call (k : Fin 9) (a : TWord) : Statement (.call k a) := of_none rfl
theorem ret (k : Fin 9) : Statement (.ret k) := of_none rfl
theorem retx (k : Fin 9) : Statement (.retx k) := of_none rfl
theorem fence (k : Fin 9) : Statement (.fence k) := of_none rfl
theorem wft (k : Fin 8) : Statement (.wft k) := of_none rfl
theorem wfi : Statement .wfi := of_none rfl
theorem commit (k : Fin 8) : Statement (.commit k) := of_none rfl
theorem trap (k : Fin 9) (a : TWord) : Statement (.trap k a) := of_none rfl
theorem lpBegin (k : Fin 9) (a : TWord) : Statement (.lpBegin k a) := of_none rfl
theorem lpPop (k : Fin 9) : Statement (.lpPop k) := of_none rfl
theorem repGo (k : Fin 9) (a : TWord) : Statement (.repGo k a) := of_none rfl
theorem itpX (k : Fin 9) (a : TWord) : Statement (.itpX k a) := of_none rfl
theorem seqEv (k : Fin 9) (a : TWord) : Statement (.seqEv k a) := of_none rfl
theorem sysW (k : Fin 9) (a : TWord) : Statement (.sysW k a) := of_none rfl
theorem sysR (k : Fin 9) : Statement (.sysR k) := of_none rfl
theorem modeChange (k : Fin 9) : Statement (.modeChange k) := of_none rfl
theorem fsave (k : Fin 9) (a : TWord) : Statement (.fsave k a) := of_none rfl
theorem frestore (k : Fin 9) (a : TWord) : Statement (.frestore k a) := of_none rfl
theorem evecWrite (k : Fin 9) (a : TWord) : Statement (.evecWrite k a) := of_none rfl
theorem evecLoadDone (k : Fin 9) : Statement (.evecLoadDone k) := of_none rfl
theorem longOpComplete (k : Fin 9) (u : LongUnit) : Statement (.longOpComplete k u) := of_none rfl
theorem heldAccessResponse (k : Fin 9) : Statement (.heldAccessResponse k) := of_none rfl
theorem interruptEntry : Statement .interruptEntry := of_none rfl
theorem storeBufferDrain : Statement .storeBufferDrain := of_none rfl
theorem btbload (m : Fin 16) (k : Fin 9) : Statement (.btbload m k) := of_none rfl
theorem btbLoadDone (k : Fin 9) : Statement (.btbLoadDone k) := of_none rfl
theorem haltreq (m : Fin 16) (k : Fin 9) (b : Bool) : Statement (.haltreq m k b) := of_none rfl
theorem run (m : Fin 16) (k : Fin 9) (b : Bool) : Statement (.run m k b) := of_none rfl
theorem prog (m : Fin 16) : Statement (.prog m) := of_none rfl
theorem esect (m : Fin 16) : Statement (.esect m) := of_none rfl
theorem eplane (m : Fin 16) : Statement (.eplane m) := of_none rfl
theorem blank (m : Fin 16) : Statement (.blank m) := of_none rfl
theorem flcOpDone (us : BitVec 20) (good : Bool) : Statement (.flcOpDone us good) := of_none rfl
theorem whsRegionStart : Statement .whsRegionStart := of_none rfl
theorem whsRegionDone (fail : Option MarchFail) : Statement (.whsRegionDone fail) := of_none rfl
theorem whsRegionTimeout : Statement .whsRegionTimeout := of_none rfl
theorem fast (m : Fin 16) : Statement (.fast m) := of_none rfl
theorem fastPassDone (len : BitVec 20) (marchFail : Bool) : Statement (.fastPassDone len marchFail) := of_none rfl
theorem fsigLineRead : Statement .fsigLineRead := of_none rfl
theorem dmaGo (m : Fin 16) (e : Fin 2) (c : Fin 8) : Statement (.dmaGo m e c) := of_none rfl
theorem dmaDescriptorRead (e : Fin 2) (c : Fin 8) : Statement (.dmaDescriptorRead e c) := of_none rfl
theorem dmaBurst (e : Fin 2) (c : Fin 8) : Statement (.dmaBurst e c) := of_none rfl
theorem dmaAbort (m : Fin 16) (e : Fin 2) (c : Fin 8) : Statement (.dmaAbort m e c) := of_none rfl
theorem tallyLineRise (n : Fin 512) : Statement (.tallyLineRise n) := of_none rfl
theorem talSet (m : Fin 16) (i : Fin 16) (w : Word) : Statement (.talSet m i w) := of_none rfl
theorem talPend (m : Fin 16) (i : Fin 16) (w : Word) : Statement (.talPend m i w) := of_none rfl
theorem talEn (m : Fin 16) (i : Fin 16) (w : Word) : Statement (.talEn m i w) := of_none rfl
theorem mbxMsg (m : Fin 16) (b : Fin 24) (i : Fin 8) (w : Word) : Statement (.mbxMsg m b i w) := of_none rfl
theorem mbxPost (m : Fin 16) (b : Fin 24) (w : Word) : Statement (.mbxPost m b w) := of_none rfl
theorem mbxRing (m : Fin 16) (b : Fin 24) (w : Word) : Statement (.mbxRing m b w) := of_none rfl
theorem mbxDone (m : Fin 16) (b : Fin 24) (w : Word) : Statement (.mbxDone m b w) := of_none rfl
theorem mbxDb (m : Fin 16) (b : Fin 24) (w : Word) : Statement (.mbxDb m b w) := of_none rfl
theorem meaConversion (b : Fin 24) (inp : BlockInput) : Statement (.meaConversion b inp) := of_none rfl
theorem burnoutPulse (b : Fin 24) (i : Fin 8) (microvolts : Nat) : Statement (.burnoutPulse b i microvolts) := of_none rfl
theorem meaFactoryRead (b : Fin 24) : Statement (.meaFactoryRead b) := of_none rfl
theorem meaCrvdata (m : Fin 16) (b : Fin 24) (wd : Option Word) : Statement (.meaCrvdata m b wd) := of_none rfl
theorem meaWakeConversion (b : Fin 24) (inp : BlockInput) : Statement (.meaWakeConversion b inp) := of_none rfl
theorem tripCrossing (x : TripInput) : Statement (.tripCrossing x) := of_none rfl
theorem tripInputReturn (x : TripInput) : Statement (.tripInputReturn x) := of_none rfl
theorem trpClear (m : Fin 16) (w : Word) : Statement (.trpClear m w) := of_none rfl
theorem trpTest (m : Fin 16) (w : Word) : Statement (.trpTest m w) := of_none rfl
theorem trpLock (m : Fin 16) (w : Word) : Statement (.trpLock m w) := of_none rfl
theorem stagingWrite (m : Fin 16) (addr : Word) (w : TWord) : Statement (.stagingWrite m addr w) := fun h _ e => of_stage h e
theorem stokerDecision (p : Fin 3) : Statement (.stokerDecision p) := of_none rfl
theorem stokerFire (c : Fin 64) : Statement (.stokerFire c) := of_none rfl
theorem stokerFireEnd (c : Fin 64) : Statement (.stokerFireEnd c) := of_none rfl
theorem stokerHoldExpiry : Statement .stokerHoldExpiry := of_none rfl
theorem budgetTimeout : Statement .budgetTimeout := of_none rfl
theorem stkExtbud (m : Fin 16) (p : Fin 3) (w : Word) : Statement (.stkExtbud m p w) := of_none rfl
theorem stkAcc (m : Fin 16) (c : Fin 64) (w : Word) : Statement (.stkAcc m c w) := of_none rfl
theorem zeroCrossing (p : Fin 3) (rising : Bool) : Statement (.zeroCrossing p rising) := of_none rfl
theorem phaseLost (p : Fin 3) : Statement (.phaseLost p) := of_none rfl
theorem motTurningPoint (g : Fin 8) (top : Bool) : Statement (.motTurningPoint g top) := of_none rfl
theorem peakEnd (x : Fin 48) : Statement (.peakEnd x) := of_none rfl
theorem clampEnd (x : Fin 48) : Statement (.clampEnd x) := of_none rfl
theorem gioInputEdge (n : Fin 64) (level : Bool) : Statement (.gioInputEdge n level) := of_none rfl
theorem mark (f : List Byte) : Statement (.mark f) := of_none rfl
theorem snap (f : List Byte) : Statement (.snap f) := of_none rfl
theorem rply (f : List Byte) : Statement (.rply f) := of_none rfl
theorem nak (f : List Byte) : Statement (.nak f) := of_none rfl
theorem mbox (f : List Byte) : Statement (.mbox f) := of_none rfl
theorem state (f : List Byte) : Statement (.state f) := of_none rfl
theorem echo (f : List Byte) : Statement (.echo f) := of_none rfl
theorem echoa (f : List Byte) : Statement (.echoa f) := of_none rfl
theorem down (f : List Byte) : Statement (.down f) := of_none rfl
theorem attreq (f : List Byte) : Statement (.attreq f) := of_none rfl
theorem attacc (f : List Byte) : Statement (.attacc f) := of_none rfl
theorem attref (f : List Byte) : Statement (.attref f) := of_none rfl
theorem cutack (f : List Byte) : Statement (.cutack f) := of_none rfl
theorem ctrlDetach (f : List Byte) : Statement (.ctrlDetach f) := of_none rfl
theorem cutend (f : List Byte) : Statement (.cutend f) := of_none rfl
theorem takeover (freed : Bool) : Statement (.takeover freed) := of_none rfl
theorem tokenClaim : Statement .tokenClaim := of_none rfl
theorem tokenConflict : Statement .tokenConflict := of_none rfl
theorem linkUp : Statement .linkUp := of_none rfl
theorem linkDown : Statement .linkDown := of_none rfl
theorem rplyMiss : Statement .rplyMiss := of_none rfl
theorem attach (m : Fin 16) (mode : BitVec 2) : Statement (.attach m mode) := of_none rfl
theorem detach (m : Fin 16) : Statement (.detach m) := of_none rfl
theorem handover (m : Fin 16) : Statement (.handover m) := of_none rfl
theorem attachTimeout : Statement .attachTimeout := of_none rfl
theorem yokRelay (m : Fin 16) : Statement (.yokRelay m) := of_none rfl
theorem format (m : Fin 16) (scan : NandScan) : Statement (.format m scan) := of_none rfl
theorem mount (m : Fin 16) (scan : NandScan) : Statement (.mount m scan) := of_none rfl
theorem flush (m : Fin 16) : Statement (.flush m) := of_none rfl
theorem prove (m : Fin 16) : Statement (.prove m) := of_none rfl
theorem read (m : Fin 16) : Statement (.read m) := of_none rfl
theorem unmount (m : Fin 16) : Statement (.unmount m) := of_none rfl
theorem stgwr (m : Fin 16) : Statement (.stgwr m) := of_none rfl
theorem stgrd (m : Fin 16) : Statement (.stgrd m) := of_none rfl
theorem stgerase (m : Fin 16) : Statement (.stgerase m) := of_none rfl
theorem ldgSqtail (m : Fin 16) (w : Word) : Statement (.ldgSqtail m w) := of_none rfl
theorem ldgSubmission : Statement .ldgSubmission := of_none rfl
theorem sealTimer (t : Fin 64) : Statement (.sealTimer t) := of_none rfl
theorem sealSigned (t : Fin 64) : Statement (.sealSigned t) := of_none rfl
theorem pageProgramDone (t : Fin 64) (pass : Bool) : Statement (.pageProgramDone t pass) := of_none rfl
theorem blockEraseDone (blk : Nat) (pass : Bool) : Statement (.blockEraseDone blk pass) := of_none rfl
theorem lunTimeout (l : LunId) : Statement (.lunTimeout l) := of_none rfl
theorem ldgFmtdata (m : Fin 16) (wd : Option Word) : Statement (.ldgFmtdata m wd) := of_none rfl
theorem ldgSnextloRead (m : Fin 16) : Statement (.ldgSnextloRead m) := of_none rfl
theorem ldgSdurloRead (m : Fin 16) : Statement (.ldgSdurloRead m) := of_none rfl
theorem ldgCommandDone (worst : Option (Fin 73)) : Statement (.ldgCommandDone worst) := of_none rfl
theorem verify (m : Fin 16) : Statement (.verify m) := of_none rfl
theorem activate (m : Fin 16) : Statement (.activate m) := of_none rfl
theorem resume (m : Fin 16) : Statement (.resume m) := of_none rfl
theorem confirm (m : Fin 16) : Statement (.confirm m) := of_none rfl
theorem reject (m : Fin 16) : Statement (.reject m) := of_none rfl
theorem quote (m : Fin 16) : Statement (.quote m) := of_none rfl
theorem hash (m : Fin 16) : Statement (.hash m) := of_none rfl
theorem random (m : Fin 16) : Statement (.random m) := of_none rfl
theorem aead (m : Fin 16) : Statement (.aead m) := of_none rfl
theorem ecdh (m : Fin 16) : Statement (.ecdh m) := of_none rfl
theorem sign (m : Fin 16) : Statement (.sign m) := of_none rfl
theorem ukgen (m : Fin 16) : Statement (.ukgen m) := of_none rfl
theorem ukload (m : Fin 16) : Statement (.ukload m) := of_none rfl
theorem incr (m : Fin 16) : Statement (.incr m) := of_none rfl
theorem dbgauth (m : Fin 16) : Statement (.dbgauth m) := of_none rfl
theorem rootset (m : Fin 16) : Statement (.rootset m) := of_none rfl
theorem idgen (m : Fin 16) : Statement (.idgen m) := of_none rfl
theorem provdata (m : Fin 16) : Statement (.provdata m) := of_none rfl
theorem lcstep (m : Fin 16) : Statement (.lcstep m) := of_none rfl
theorem revoke (m : Fin 16) : Statement (.revoke m) := of_none rfl
theorem lksCommandDone : Statement .lksCommandDone := of_none rfl
theorem hello (msg : List Byte) : Statement (.hello msg) := of_none rfl
theorem begin (msg : List Byte) : Statement (.begin msg) := of_none rfl
theorem manifest (msg : List Byte) : Statement (.manifest msg) := of_none rfl
theorem block (msg : List Byte) : Statement (.block msg) := of_none rfl
theorem install (msg : List Byte) : Statement (.install msg) := of_none rfl
theorem servicePortVerify (msg : List Byte) : Statement (.servicePortVerify msg) := of_none rfl
theorem servicePortActivate (msg : List Byte) : Statement (.servicePortActivate msg) := of_none rfl
theorem status (msg : List Byte) : Statement (.status msg) := of_none rfl
theorem abort (msg : List Byte) : Statement (.abort msg) := of_none rfl
theorem servicePortQuote (msg : List Byte) : Statement (.servicePortQuote msg) := of_none rfl
theorem sessionTimeout : Statement .sessionTimeout := of_none rfl
theorem activationSwitch : Statement .activationSwitch := of_none rfl
theorem pauseTimeout : Statement .pauseTimeout := of_none rfl
theorem probationWarning : Statement .probationWarning := of_none rfl
theorem probationExpiry : Statement .probationExpiry := of_none rfl
theorem tamper : Statement .tamper := of_none rfl
theorem coldTamperCheck (mismatch : Bool) : Statement (.coldTamperCheck mismatch) := of_none rfl
theorem glitch : Statement .glitch := of_none rfl
theorem debugAccessExpiry : Statement .debugAccessExpiry := of_none rfl
theorem crystalReady : Statement .crystalReady := of_none rfl
theorem pllLock (j : Fin 2) : Statement (.pllLock j) := of_none rfl
theorem pllCfg (m : Fin 16) (j : Fin 2) (w : Word) : Statement (.pllCfg m j w) := of_none rfl
theorem monitorWindow (i : Fin 4) (count : BitVec 12) : Statement (.monitorWindow i count) := of_none rfl
theorem pllCoast (j : Fin 2) : Statement (.pllCoast j) := of_none rfl
theorem clkSel (m : Fin 16) (w : Word) : Statement (.clkSel m w) := of_none rfl
theorem clkDiv (m : Fin 16) (w : Word) : Statement (.clkDiv m w) := of_none rfl
theorem powerOnReset (xtsel : BitVec 2) (vbatLost : Bool) (prime : Bool) : Statement (.powerOnReset xtsel vbatLost prime) := of_none rfl
theorem brownOut (xtsel : BitVec 2) : Statement (.brownOut xtsel) := of_none rfl
theorem pinReset : Statement .pinReset := of_none rfl
theorem rstSoft (m : Fin 16) (w : Word) : Statement (.rstSoft m w) := of_none rfl
theorem rstDom (m : Fin 16) (i : Fin 3) (w : Word) : Statement (.rstDom m i w) := of_none rfl
theorem domainResetDone (d : Fin 97) : Statement (.domainResetDone d) := of_none rfl
theorem rstWdcfg (m : Fin 16) (w : Word) : Statement (.rstWdcfg m w) := of_none rfl
theorem rstWdkick (m : Fin 16) (w : Word) : Statement (.rstWdkick m w) := of_none rfl
theorem watchdogWarning : Statement .watchdogWarning := of_none rfl
theorem watchdogExpiry : Statement .watchdogExpiry := of_none rfl
theorem watchdogReset : Statement .watchdogReset := of_none rfl
theorem domainPowerUp (m : Fin 16) (d : Fin 97) : Statement (.domainPowerUp m d) := of_none rfl
theorem powerGood (d : Fin 97) : Statement (.powerGood d) := of_none rfl
theorem powerGoodTimeout (d : Fin 97) : Statement (.powerGoodTimeout d) := of_none rfl
theorem domainPowerDown (m : Fin 16) (d : Fin 97) : Statement (.domainPowerDown m d) := of_none rfl
theorem supplyWarning (low : BitVec 3) : Statement (.supplyWarning low) := of_none rfl
theorem coreSupplyLoss : Statement .coreSupplyLoss := of_none rfl
theorem vbatMeasure (mv : BitVec 12) : Statement (.vbatMeasure mv) := of_none rfl
theorem sysTempUpdate (t : Word) : Statement (.sysTempUpdate t) := of_none rfl
theorem modeReqRun (m : Fin 16) : Statement (.modeReqRun m) := of_none rfl
theorem modeReqWarm (m : Fin 16) : Statement (.modeReqWarm m) := of_none rfl
theorem modeReqService (m : Fin 16) : Statement (.modeReqService m) := of_none rfl
theorem modeReqSafe (m : Fin 16) : Statement (.modeReqSafe m) := of_none rfl
theorem modeReqBanked (m : Fin 16) : Statement (.modeReqBanked m) := of_none rfl
theorem ethFrameReceived (f : List Byte) (crcGood : Bool) : Statement (.ethFrameReceived f crcGood) := of_none rfl
theorem ethRxdata (m : Fin 16) : Statement (.ethRxdata m) := of_none rfl
theorem ethTxlen (m : Fin 16) (w : Word) : Statement (.ethTxlen m w) := of_none rfl
theorem ethTxdata (m : Fin 16) (w : Word) : Statement (.ethTxdata m w) := of_none rfl
theorem ethFrameSent : Statement .ethFrameSent := of_none rfl
theorem ethTsq3Read (m : Fin 16) : Statement (.ethTsq3Read m) := of_none rfl
theorem ethMdio (m : Fin 16) (w : Word) : Statement (.ethMdio m w) := of_none rfl
theorem mdioDone (data : BitVec 16) : Statement (.mdioDone data) := of_none rfl
theorem set (m : Fin 16) : Statement (.set m) := of_none rfl
theorem step (m : Fin 16) : Statement (.step m) := of_none rfl
theorem ptpRate (m : Fin 16) (w : Word) : Statement (.ptpRate m w) := of_none rfl
theorem sync (m : Fin 16) (b : Bool) : Statement (.sync m b) := of_none rfl
theorem ptpHoldExpiry : Statement .ptpHoldExpiry := of_none rfl
theorem ptpNsRead (m : Fin 16) : Statement (.ptpNsRead m) := of_none rfl
theorem pps : Statement .pps := of_none rfl
theorem ptpCap : Statement .ptpCap := of_none rfl
theorem canFrameReceived (e : Fin 2) (f : CanFrame) : Statement (.canFrameReceived e f) := of_none rfl
theorem canRxdata (m : Fin 16) (e : Fin 2) : Statement (.canRxdata m e) := of_none rfl
theorem canTxdata (m : Fin 16) (e : Fin 2) (w : Word) : Statement (.canTxdata m e w) := of_none rfl
theorem canFrameSent (e : Fin 2) : Statement (.canFrameSent e) := of_none rfl
theorem busOff (e : Fin 2) : Statement (.busOff e) := of_none rfl
theorem busOffRecovery (e : Fin 2) : Statement (.busOffRecovery e) := of_none rfl
theorem hspWrite (addr : Word) (ws : List Word) : Statement (.hspWrite addr ws) := of_none rfl
theorem hspRead (addr : Word) (n : Nat) : Statement (.hspRead addr n) := of_none rfl
theorem hspStatus : Statement .hspStatus := of_none rfl
theorem hspBadCommand (cmd : Byte) : Statement (.hspBadCommand cmd) := of_none rfl
theorem hspCsRise (partialBits : Nat) : Statement (.hspCsRise partialBits) := of_none rfl
theorem vbusConnect : Statement .vbusConnect := of_none rfl
theorem info (msg : List Byte) : Statement (.info msg) := of_none rfl
theorem diagRead (msg : List Byte) : Statement (.diagRead msg) := of_none rfl
theorem diagWrite (msg : List Byte) : Statement (.diagWrite msg) := of_none rfl
theorem extest (rstLow : Bool) : Statement (.extest rstLow) := of_none rfl
theorem idcode : Statement .idcode := of_none rfl
theorem samplePreload (load : Bool) (cells : List Bool) : Statement (.samplePreload load cells) := of_none rfl
theorem clamp (rstLow : Bool) : Statement (.clamp rstLow) := of_none rfl
theorem highz (rstLow : Bool) : Statement (.highz rstLow) := of_none rfl
theorem bypass : Statement .bypass := of_none rfl
theorem dbgacc (reg : BitVec 72) : Statement (.dbgacc reg) := of_none rfl
theorem testLogicReset : Statement .testLogicReset := of_none rfl
theorem dbgAuth (m : Fin 16) (w : Word) : Statement (.dbgAuth m w) := of_none rfl
theorem locksmithBootComplete : Statement .locksmithBootComplete := of_none rfl
theorem rtcSecond : Statement .rtcSecond := of_none rfl
theorem usbStandardRequest (setup : List Byte) : Statement (.usbStandardRequest setup) := of_none rfl
theorem usbBusReset : Statement .usbBusReset := of_none rfl
theorem usbSuspend : Statement .usbSuspend := of_none rfl
theorem usbResume : Statement .usbResume := of_none rfl
theorem vbusLoss : Statement .vbusLoss := of_none rfl

end Sys2Proof.Laws.WellFormed

namespace Sys2Proof.Laws

theorem WellFormed.seal (m : Fin 16) : WellFormed.Statement (.seal m) := WellFormed.of_none rfl

end Sys2Proof.Laws
end

