-- ==== Sys2Proof/Tests/Slice0.lean ====
section
/-! SUPPORT. The model's own tests: ill-formed commands that the check refuses, small steps with results taken from the spec,
and for every statement a state and operands that meet its hypotheses. -/

open Sys2Proof Sys2Proof.Machine

set_option Elab.async false

namespace Sys2Proof.Tests

/-! ### Small states -/

/-- The next state of an outcome. -/
def nx (o : Host.Outcome State Fault Refusal) : State := match o with | .next x => x | _ => State.reset

/-- A volatile part with every domain up, in RUN, and every core running with three operand ports set. -/
def up : Vol :=
  { State.reset.vol with
    regs := [(0x4000204C, 0xFFFFFFFF), (0x40002050, 0xFFFFFFFF), (0x40002054, 0xFFFFFFFF)].foldl
      (fun m p => smapSet regReset m p.1 p.2) State.reset.vol.regs
    sys := { State.reset.vol.sys with mode := .run }
    cores := List.replicate 9 { Core.reset with run := true, port := [(32, ⟨7, 1⟩), (51, ⟨9, 0⟩), (68, ⟨3, 0⟩)] } }

/-- A state in another mode. -/
def inMode (m : Mode) (s : State) : State := withVol s { s.vol with sys := { s.vol.sys with mode := m } }

/-- Registers set to words. -/
def withRegs (l : List (Nat × Word)) (v : Vol) : Vol := l.foldl (fun v p => rgSet v p.1 p.2) v

/-- Output settings put in force. -/
def inForce (l : List (Nat × Word)) (v : Vol) : Vol :=
  { v with outs := { v.outs with force := l.foldl (fun m p => smapSet regReset m p.1 p.2) v.outs.force } }

/-- A state with a volatile part. -/
def st (v : Vol) : State := { State.reset with vol := v }

/-- A state with one core changed. -/
def withCore (k : Nat) (f : Core → Core) : State := st (onCore up k f)

/-! ### Ill-formed commands are refused -/

theorem test_illformed_page : (Instr.registerWrite 8 .word 0x3FFFF040 ⟨0, 0⟩).wellFormed = false := by decide +kernel
theorem test_illformed_offset : (Instr.registerWrite 8 .word 0x40000400 ⟨0, 0⟩).wellFormed = false := by decide +kernel
theorem test_illformed_alias : (Instr.aliasWrite 8 .word 0x40000040 ⟨0, 0⟩).wellFormed = false := by decide +kernel
theorem test_illformed_base : (Instr.gateAutoClose 0x40000004).wellFormed = false ∧ (Instr.blockSoftrst 8 0x40000004).wellFormed = false
    ∧ (Instr.blockResetDone 0x40000004).wellFormed = false := by decide +kernel
theorem test_illformed_windows : (Instr.sramAliasWrite 8 .word 0x20000000 ⟨0, 0⟩).wellFormed = false
    ∧ (Instr.tagViewWrite 8 .word 0x20000000 ⟨0, 0⟩).wellFormed = false := by decide +kernel
theorem test_illformed_march : (Instr.whsRegionDone (some ⟨0, 0, 0⟩)).wellFormed = false := by decide +kernel
theorem test_illformed_input : (Instr.meaConversion 0 ⟨[], 0, 0, false, false, 0⟩).wellFormed = false
    ∧ (Instr.meaWakeConversion 0 ⟨[], 0, 0, false, false, 0⟩).wellFormed = false := by decide +kernel
theorem test_illformed_staging : (Instr.stagingWrite 0 0x40000040 ⟨0, 0⟩).wellFormed = false := by decide +kernel
theorem test_illformed_frame :
    ([Instr.mark [], .snap [], .rply [], .nak [], .mbox [], .state [], .echo [], .echoa [], .down [], .attreq [], .attacc [],
      .attref [], .cutack [], .ctrlDetach [], .cutend []].all fun i => i.wellFormed == false) = true := by decide +kernel
theorem test_illformed_scan : (Instr.format 8 ⟨[], [], [⟨0, 0, [], true, []⟩]⟩).wellFormed = false
    ∧ (Instr.mount 8 ⟨[(32, ⟨true, 40, true, 16384, 2176, 1, 4, 4⟩)], [], []⟩).wellFormed = false := by decide +kernel
theorem test_illformed_domain :
    ([Instr.domainResetDone 0, .domainPowerUp 8 0, .powerGood 0, .powerGoodTimeout 0, .domainPowerDown 8 0].all fun i =>
      i.wellFormed == false) = true := by decide +kernel
theorem test_illformed_can : (Instr.canFrameReceived 0 ⟨false, true, false, 0, 0, false, true, []⟩).wellFormed = false
    ∧ (Instr.canFrameReceived 0 ⟨false, false, false, 0, 2, false, false, []⟩).wellFormed = false := by decide +kernel
theorem test_illformed_host : (Instr.hspBadCommand 0x0B).wellFormed = false ∧ (Instr.hspCsRise 32).wellFormed = false
    ∧ (Instr.samplePreload true []).wellFormed = false ∧ (Instr.usbStandardRequest []).wellFormed = false := by decide +kernel
theorem test_wellformed : (Instr.registerWrite 8 .word 0x40000040 ⟨0, 0⟩).wellFormed = true
    ∧ (Instr.aliasWrite 8 .word 0x40000440 ⟨0, 0⟩).wellFormed = true ∧ (Instr.add 0 0 ⟨1, 0⟩).wellFormed = true := by decide +kernel

/-! ### The machine and its memories -/

theorem witness_NonVolatileWritersAreNamed : writesNv .rtcSecond = false ∧ writesNv .lksCommandDone = true := by decide +kernel
theorem witness_NonVolatileFormIsKept : State.reset.nv.wf = true := by decide +kernel
theorem test_otp_burn_sets_bits : otpWord (otpBurn (otpBurn State.reset.nv 0x40 5) 0x40 2) 0x40 = 7 := by decide +kernel
theorem test_flash_erased_reads_ones : (flashErase (flashPut State.reset.nv 0x100 [1, 2]) 0x104 0x10000).flash = [(0x100, 1)] := by
  decide +kernel

/-! ### Register pages -/

theorem witness_RegisterWritesReachTheRegister :
    pageOpen up 8 pMtx = true ∧ (pageInfo pMtx).map (fun i => i.blk) = some .mtx ∧ (specAt pMtx 0x040).isSome = true
      ∧ pageOpen up 0 (pNand 0) = true ∧ (pageInfo (pNand 0)).map (fun i => i.blk) = some .nand ∧ (specAt (pNand 0) 0x008).isSome = true
      ∧ pageOpen up 15 pHsp = true ∧ (pageInfo pHsp).map (fun i => i.blk) = some .hsp ∧ (specAt pHsp 0x014).isSome = true := by
  decide +kernel
theorem witness_RegisterTakesItsAccessMasks : (specAt pMtx 0x040).map (fun sp => (sp.chk, sp.rwo)) = some ([], 0) := by
  decide +kernel
theorem witness_UnassignedOffsetsReadZero :
    pageOpen up 8 pMtx = true ∧ specAt pMtx 0x3FC = none ∧ stageChan (ra pMtx 0x3FC) = none ∧ pageOpen up 0 pTrp = true := by
  decide +kernel
theorem test_write_of_unassigned_offset : (nx (exec (.registerWrite 8 .word (BitVec.ofNat 32 (ra pMtx 0x3FC)) ⟨5, 0⟩) (st up))).vol.regs
    = up.regs ∧ (nx (exec (.registerWrite 8 .word (BitVec.ofNat 32 (ra pMtx 0x3FC)) ⟨5, 0⟩) (st up))).vol.ans.code = 0 := by
  decide +kernel
theorem witness_PageChecksInOrder :
    busOpen State.reset.vol 8 = true ∧ domUp State.reset.vol (pageDom (pCore 0)) = false ∧ autoWake State.reset.vol (pageDom (pCore 0)) = false
      ∧ domUp up (pageDom (pMtx)) = true
      ∧ ready { up with resetting := [pMtx] } (blockPage pMtx) = false ∧ rg up (aGate pMtx) = 0 := by decide +kernel
theorem test_misaligned_register_answers_SLAVE :
    (nx (exec (.registerWrite 8 .half (BitVec.ofNat 32 (ra pMtx 0x040)) ⟨5, 0⟩) (st up))).vol.ans.code = 2 := by decide +kernel
/-- Core 3 with a load held at a matrix register; and channel 2 of engine 1 before its descriptor. -/
def heldAt (w : Bool) (a : Nat) (d : TWord) : State :=
  withCore 3 fun c => { c with held := some ⟨w, 4, a, d, false, 0, 0, if w then 80 else 77, none, false, none, false⟩ }
def dmaIdleVol : Vol := withRegs [(aCtl (pDma 1), 1), (aDma 1 2 0x100, 0x20000000)]
  ([(0, 0x20001000), (4, 0x20002000), (8, 64), (12, 0x50), (0x1000, 7)].foldl (fun v p => sramPut v (0x20000000 + p.1) ⟨p.2, 0⟩) up)
def dmaGone : Vol := rgOr dmaIdleVol (aDma 1 2 0x104) 1
theorem witness_BlockGateResetAndTimeout :
    ready up (blockPage (pMea 3)) = true ∧ pageDom (pMea 3) ≠ 0
      ∧ rb (rgSet up (ra pClk (0x070 + 4 * ((pageDom (pMea 3) - 1) / 32))) 0xFFFFFFFF)
        (ra pClk (0x070 + 4 * ((pageDom (pMea 3) - 1) / 32))) ((pageDom (pMea 3) - 1) % 32) = true
      ∧ pageOpen up 8 (pMea 3) = true ∧ pMea 3 = blockPage (pMea 3) ∧ pageOpen up 8 pLks = true ∧ pageOpen up 15 pTrp = true
      ∧ rb (rgSet up (ra pTrp 0x0B0) 1) (ra pTrp 0x0B0) 0 = true ∧ noWaits up = true
      ∧ (pageInfo (blockPage (pMea 3))).map (fun i => i.blk) = some .mea ∧ (pageInfo (blockPage pMtx)).map (fun i => i.blk) = some .mtx := by
  decide +kernel
theorem witness_MatrixTimeout :
    (counts (heldAt false 0x40004040 TWord.zero).vol 0x40004040 = true
        ∧ (coreOf (heldAt false 0x40004040 TWord.zero).vol 3).held.map (fun h => (h.addr, h.resp)) = some (0x40004040, none))
      ∧ (counts dmaGone 0x20000000 = true ∧ (dmaOf dmaGone 1 2).live = false ∧ dmaGrant dmaGone 1 = some 2
        ∧ heldBack dmaGone ⟨10, 2, false, .word, 0x20000000, TWord.zero⟩ = false ∧ rg dmaGone (aDma 1 2 0x100) = 0x20000000
        ∧ dmaGone.mtx.late = [])
      ∧ counts up 0x40005000 = false := by decide +kernel
theorem test_timeout_stops_a_channel :
    rg (nx (exec (.matrixTimeout 10 2 0x20000000) (st dmaGone))).vol (aDma 1 2 0x108) = 0x68000000 := by decide +kernel
theorem test_soft_reset_is_not_ready :
    ready (nx (exec (.blockSoftrst 8 (BitVec.ofNat 32 (ra (pMea 3) 0))) (st up))).vol (pMea 3) = false := by decide +kernel
theorem witness_SramWindowsChangeOneWord :
    ∃ a b c : Word, (place a.toNat).map (fun p => p.win) = some .setBits ∧ (place b.toNat).map (fun p => p.win) = some .clearBits
      ∧ (place c.toNat).map (fun p => p.win) = some .tagView ∧ busOpen up 8 = true ∧ domUp up 81 = true
      ∧ wiping up 81 = false ∧ wrongBits up 0x20000000 = 0 := ⟨0x21000000, 0x22000000, 0x23000000, by decide +kernel⟩

/-! ### The tick -/

/-- A tick generator that runs, in its third tick. -/
def ticking : Vol := { up with tick := { up.tick with running := true, everOn := true, had := true, number := 3, inDrop := true } }

theorem witness_TickRegistersAct :
    pageOpen up 8 pTick = true ∧ rb up (aCtl pTick) 0 = false ∧ rb up (aCtl pTick) 1 = false ∧ up.tick.running = false
      ∧ rb (rgOr up (aCtl pTick) 1) (aCtl pTick) 0 = true ∧ ticking.tick.everOn = true
      ∧ applyOk up = true ∧ applyOk (rgSet up (aTick 0x048) 0) = false := by decide +kernel
theorem test_tick_first_boundary : (nx (exec (.tickEn 8) (st up))).vol.tick.next = 64 := by decide +kernel
theorem test_apply_refused_keeps_active : (applyCheck (rgSet up (aTick 0x048) 0)).tick.act = up.tick.act := by decide +kernel
def sourced (n : Word) : Vol :=
  { ticking with tick := { ticking.tick with act := smapSet regReset ticking.tick.act (aTick 0x040) n } }
theorem witness_TickProceeds :
    (ready ticking pTick = true ∧ ticking.tick.running = true ∧ ready { ticking with resetting := [pYok] } pYok = false ∧ ticking.yok.twin = false
        ∧ ticking.yok.role = 0 ∧ ticking.yok.takeDue = false ∧ ticking.yok.safeDue = false ∧ ticking.yok.detachDue = false
        ∧ ticking.sys.target = none ∧ ticking.lks.pauseAt = none ∧ ticking.lks.switchTo = none)
      ∧ (ticking.tick.inDrop = true ∧ ticking.yok.noSnap = false)
      ∧ (let v := setTick ticking fun t => { t with inDrop := false, released := false }
        v.tick.released = false ∧ v.tick.had = true ∧ v.sys.mode ≠ .safe ∧ tickPaused v = false ∧ v.tick.restart = 0 ∧ v.tick.enter = 0
          ∧ v.cores.length = 9)
      ∧ (tickSource (sourced 1) = 1 ∧ rb (sourced 1) (aStat pPtp) 0 = false ∧ markMissing (sourced 2) = true ∧ tickSource (sourced 3) = 3
        ∧ tickSource (sourced 0) = 0 ∧ markMissing (sourced 0) = false) := by decide +kernel
theorem test_release_follows_drop : (nx (exec .dropEnd (st { ticking with now := 90 }))).vol.tick.release = 93 := by decide +kernel

/-! ### The cores -/

theorem witness_AluCommandsDeliver : canMove up 3 = true ∧ canMove up 8 = true ∧ (⟨0, Tag.poison⟩ : TWord).isPoison = true := by decide +kernel
theorem test_add_wraps : resPort (coreOf (nx (exec (.add 3 0 ⟨0xFFFFFFFF, 0⟩) (st up))).vol 3) 32 = ⟨6, 1⟩ := by decide +kernel
theorem test_adds_clamps : (aluData .adds 0x7FFFFFFF 1, aluData .subs 0x80000000 1) = ((0x7FFFFFFF, flSAT), (0x80000000, flSAT)) := by
  decide +kernel
theorem test_sub_of_min_overflows : aluData .sub 0 0x80000000 = (0x80000000, flOV) := by decide +kernel
theorem test_sar_40 : (aluData .sar 0x80000000 40).1 = 0xFFFFFFFF ∧ (aluData .shl 1 32).1 = 0 ∧ (aluData .rol 0x80000001 33).1 = 3 := by
  decide +kernel
theorem test_mul_minus_one : mulData false 0xFFFFFFFF 0xFFFFFFFF = 1 ∧ mulData true 0xFFFFFFFF 0xFFFFFFFF = 0xFFFFFFFE00000001 := by decide +kernel
theorem test_mul_delivers : (coreOf (nx (exec (.mulS 3 ⟨5, 0⟩) (st up))).vol 3).fl.length = 1 := by decide +kernel
theorem test_tset_of_service_core_traps :
    fld (sysW (coreOf (nx (exec (.tset 8 ⟨1, 0⟩) (st up))).vol 8) 0x4A) 5 0 = 3 := by decide +kernel
/-- R146: the tag of `div.q`, row by dividend and column by divisor; 16 stands for a tag fault. -/
def divTags : List (List Nat) :=
  [[0, 1, 2, 3, 4, 5, 6, 7, 8, 9, 10, 11, 12, 13, 16, 15], [1, 9, 16, 16, 16, 16, 16, 16, 16, 1, 16, 16, 16, 16, 16, 15],
   [2, 2, 9, 16, 16, 16, 16, 16, 16, 2, 16, 16, 16, 16, 16, 15], [3, 3, 16, 9, 16, 16, 16, 16, 16, 3, 16, 16, 16, 16, 16, 15],
   [4, 4, 16, 16, 9, 16, 16, 16, 16, 4, 16, 16, 16, 16, 16, 15], [5, 5, 16, 16, 6, 9, 4, 16, 16, 5, 16, 16, 16, 16, 16, 15],
   [6, 6, 16, 16, 16, 16, 9, 16, 16, 6, 16, 16, 16, 16, 16, 15], [7, 7, 16, 16, 16, 16, 16, 9, 16, 7, 16, 16, 16, 16, 16, 15],
   [8, 8, 16, 16, 16, 16, 7, 6, 9, 8, 16, 16, 16, 16, 16, 15], [9, 9, 16, 16, 16, 16, 16, 16, 16, 9, 16, 16, 16, 16, 16, 15],
   [10, 10, 16, 16, 16, 16, 16, 16, 16, 10, 9, 16, 16, 16, 16, 15], [11, 16, 16, 16, 16, 16, 16, 16, 16, 16, 16, 16, 16, 16, 16, 15],
   [12, 16, 16, 16, 16, 16, 16, 16, 16, 16, 16, 16, 16, 16, 16, 15], [13, 13, 16, 16, 16, 16, 16, 16, 16, 13, 16, 16, 16, 9, 16, 15],
   [16, 16, 16, 16, 16, 16, 16, 16, 16, 16, 16, 16, 16, 16, 16, 15], [15, 15, 15, 15, 15, 15, 15, 15, 15, 15, 15, 15, 15, 15, 15, 15]]
theorem test_division_tags :
    (List.range 16).map (fun a => (List.range 16).map fun b =>
      match tagDiv (BitVec.ofNat 4 a) (BitVec.ofNat 4 b) with | .fault => 16 | .tag t => t.toNat) = divTags := by decide +kernel
theorem test_division_edges : divData false 0x80000000 0xFFFFFFFF = (0x80000000, 0, flOV)
    ∧ divData false 7 0 = (0x7FFFFFFF, 7, flDZ) ∧ divData true 7 0 = (0xFFFFFFFF, 7, flDZ)
    ∧ divData false 0xFFFFFFF9 2 = (0xFFFFFFFD, 0xFFFFFFFF, 0) := by decide +kernel

/-- Core 3 with a division of 7 by 0 that runs. -/
def dividing : State := withCore 3 fun c => { c with long := [⟨0, ⟨7, 0⟩, ⟨0, 0⟩, TWord.zero, false, 0, 0, 72, 0, 0⟩] }
theorem witness_IntegerArithmetic : opnd (coreOf up 3) 51 = ⟨9, Tag.raw⟩ ∧ canMove up 3 = true := by decide +kernel
theorem witness_DivisionArithmetic :
    (coreOf dividing.vol 3).long.find? (fun l => l.kind == 0) = some ⟨0, ⟨7, 0⟩, ⟨0, 0⟩, TWord.zero, false, 0, 0, 72, 0, 0⟩
      ∧ ctlBit dividing.vol 3 2 = false ∧ (coreOf dividing.vol 3).busf = none ∧ (coreOf dividing.vol 3).impr = []
      ∧ (coreOf dividing.vol 3).wait = .none := by decide +kernel
theorem test_division_delivers :
    (resPort (coreOf (nx (exec (.longOpComplete 3 .div) dividing)).vol 3) 36).data = 0x7FFFFFFF
      ∧ sysW (coreOf (nx (exec (.longOpComplete 3 .div) dividing)).vol 3) 0 = flDZ := by decide +kernel

/-- Core 3 with an interpolation, a sequencer step or a block operation that runs, and their tables in its SRAM. -/
def tables : Vol := [(0, 2), (4, 0), (8, 100), (12, 10), (16, 110), (0x40, 1), (0x44, 0x01020201)].foldl
  (fun v p => sramPut v (0x10300000 + p.1) ⟨p.2, Tag.raw⟩) up
def itpOp : LongOp := ⟨1, ⟨50, 0⟩, ⟨0x10300000, 12⟩, TWord.zero, false, 0, 0, 98, 0, 0⟩
def seqOp : LongOp := ⟨2, ⟨0, 0⟩, ⟨0x10300040, 12⟩, ⟨1, 11⟩, false, 0, 0, 101, 0, 0⟩
def repOp : LongOp := ⟨3, ⟨9, 0⟩, TWord.zero, ⟨9, 0⟩, false, 0, 0, 96, 0, 0⟩
def longs (l : LongOp) : State := st (onCore tables 3 fun c => { c with long := [l] })
theorem witness_LongUnitsAct :
    (canMove up 3 = true ∧ (moved up 3).long = [] ∧ fld (9 : Word) 31 4 = 0 ∧ fld (9 : Word) 3 2 ≠ 3)
      ∧ ((coreOf (longs itpOp).vol 3).long.find? (fun l => l.kind == unitKind .itp) = some itpOp
        ∧ (coreOf (longs seqOp).vol 3).long.find? (fun l => l.kind == unitKind .seq) = some seqOp
        ∧ (coreOf (longs repOp).vol 3).long.find? (fun l => l.kind == unitKind .rep) = some repOp
        ∧ (coreOf dividing.vol 3).long.find? (fun l => l.kind == unitKind .div) = some ⟨0, ⟨7, 0⟩, ⟨0, 0⟩, TWord.zero, false, 0, 0, 72, 0, 0⟩
        ∧ (divOp false ⟨7, 0⟩ ⟨2, 0⟩).tagf = false ∧ (divOp false ⟨7, 0⟩ ⟨2, 0⟩).flags &&& flDZ = 0)
      ∧ ((opnd (coreOf (longs repOp).vol 3) 95).data = 0 ∧ (coreOf tables 3).busf = none ∧ (coreOf tables 3).impr = []
        ∧ (coreOf tables 3).wait = .none ∧ itpOp.b.tag = Tag.handle ∧ itpOp.a.isPoison = false ∧ seqOp.c.isPoison = false)
      ∧ curveEval (tableRd tables 3 itpOp.b.data.toNat) false itpOp.a = .ok ⟨60, 0⟩ 0
      ∧ seqEval (tableRd tables 3 seqOp.b.data.toNat) false seqOp.b seqOp.c seqOp.a = (.ok ⟨2, 11⟩ 0, ⟨1, 1⟩)
      ∧ tables.sramErr = [] ∧ tables.stuck = [] := by decide +kernel
theorem witness_NoWrongBits : ∀ x, wrongBits up x = 0 := fun _ => rfl
theorem test_itp_delivers : resPort (coreOf (nx (exec (.longOpComplete 3 .itp) (longs itpOp))).vol 3) 40 = ⟨60, 0⟩ := by decide +kernel
theorem test_seq_delivers : resPort (coreOf (nx (exec (.longOpComplete 3 .seq) (longs seqOp))).vol 3) 41 = ⟨2, 11⟩ := by decide +kernel

/-- Core 3 with the ports of a fill of two words. -/
def filling : Vol := onCore up 3 fun c => setOpnd (setOpnd (setOpnd c 93 ⟨0x10300010, 0⟩) 94 ⟨77, 2⟩) 95 ⟨2, 0⟩
theorem witness_BlockFillWritesItsWords : (opnd (coreOf filling 3) 93).data.toNat = 0x10000000 + 3 * 0x100000 + 0x10
    ∧ (opnd (coreOf filling 3) 95).data.toNat = 2 ∧ 3 < filling.cores.length := by decide +kernel
theorem test_fill_stops_at_its_count : sramWord (repRun 3 1 4 2 filling).1 0x10300014 = ⟨77, 2⟩
    ∧ sramWord (repRun 3 1 4 2 filling).1 0x10300018 = TWord.zero := by decide +kernel

/-- Core k about to access an address. -/
def lsuAt (k : Nat) (a : Word) : State := withCore k fun c => setOpnd (setOpnd (setOpnd c 74 ⟨a, 0⟩) 75 ⟨0, 0⟩) 76 ⟨0, 0⟩
/-- The address of the load or store that core k makes by port d with x. -/
def lsuTo (s : State) (k d : Nat) (x : TWord) : Nat × Nat := ((lsuForm (moved s.vol k) d x).1, (lsuForm (moved s.vol k) d x).2.2)
def ownLoad : State := lsuAt 3 0x10300000
def bufLoad : State := st (onCore (lsuAt 8 0x10800000).vol 8 fun c => { c with sbuf := [⟨0x10800000, 0xFFFFFFFF, 9, false, 0, 0, 80⟩] })
theorem witness_FastAccessesAct :
    ([77, 78, 79, 80, 81, 82].all fun d => canTake ownLoad.vol 3 d (untag 3 ⟨0x10300000, 0⟩)) = true
      ∧ lsuTo ownLoad 3 77 (untag 3 ⟨0x10300000, 0⟩) = (0x10300000, 4) ∧ (fastSpan ownLoad.vol 3 0x10300000 4).isSome = true
      ∧ (fastSpan ownLoad.vol 3 0x10300001 2).isSome = true ∧ (fastPlace ownLoad.vol 3 0x10300000).isSome = true
      ∧ wrongBits ownLoad.vol 0x10300000 = 0 ∧ wrongBits ownLoad.vol 0x10300004 = 0 ∧ (moved ownLoad.vol 3).sbuf = []
      ∧ canTake bufLoad.vol 8 77 (untag 8 ⟨0x10800000, 0⟩) = true ∧ (fastSpan bufLoad.vol 8 0x10800000 4).isSome = true
      ∧ ((moved bufLoad.vol 8).sbuf.reverse.find? (entCover · 0x10800000 4)).isSome = true
      ∧ canTake bufLoad.vol 8 80 (untag 8 ⟨5, 0⟩) = true := by decide +kernel
theorem test_load_takes_the_buffered_word :
    (coreOf (nx (exec (.ldw 8 ⟨0x10800000, 0⟩) bufLoad)).vol 8).fl.map (fun f => f.b.data) = [9] := by decide +kernel

/-- Core 3 with a held load, a held store, and the service core with a buffered store, to a word of shared SRAM. -/
def heldLoad : State := heldAt false 0x20000010 TWord.zero
def heldStore : State := heldAt true 0x20000010 ⟨9, 2⟩
def buffered : State := st (onCore up 8 fun c => { c with sbuf := [⟨0x20000010, 0xFFFFFFFF, 9, false, 0, 0, 80⟩] })
theorem witness_HeldAccessesAct :
    ([77, 78, 79, 80, 81, 82].all fun d => canTake (lsuAt 3 0x40004040).vol 3 d (untag 3 ⟨0x40004040, 0⟩)) = true
      ∧ (fastSpan (lsuAt 3 0x40004040).vol 3 0x40004040 4).isNone = true ∧ (fastPlace (lsuAt 3 0x40004040).vol 3 0x40004040).isNone = true
      ∧ lsuTo (lsuAt 3 0x40004040) 3 80 (untag 3 ⟨5, 0⟩) = (0x40004040, 4) ∧ taggedTarget 0x40004040 = false
      ∧ coreUp up 3 = true ∧ coreUp up 8 = true ∧ ratioOk up = true ∧ noAbort up = true ∧ up.sys.downHeld = [] := by decide +kernel
theorem witness_HeldAccessesEnd :
    place 0x20000010 = some ⟨0x20000010, .direct, 85, true⟩
      ∧ domUp up 85 = true ∧ wiping up 85 = false ∧ wrongBits up 0x20000010 = 0 ∧ (coreOf up 3).fheld.isEmpty = true ∧ (coreOf up 3).busf.isNone = true
      ∧ (coreOf up 3).trapNo = none ∧ (coreOf up 3).impr.isEmpty = true
      ∧ (coreOf heldLoad.vol 3).held = some ⟨false, 4, 0x20000010, TWord.zero, false, 0, 0, 77, none, false, none, false⟩
      ∧ (coreOf heldStore.vol 3).held = some ⟨true, 4, 0x20000010, ⟨9, 2⟩, false, 0, 0, 80, none, false, none, false⟩
      ∧ (coreOf buffered.vol 8).sbuf.map (fun e => (e.addr, e.mask)) = [(0x20000010, 0xFFFFFFFF)] := by decide +kernel
theorem test_held_load_completes : (coreOf (nx (exec (.heldAccessResponse 3) heldLoad)).vol 3).held = none := by decide +kernel
theorem test_held_store_lands : sramWord (nx (exec (.heldAccessResponse 3) heldStore)).vol 0x20000010 = ⟨9, 2⟩ := by decide +kernel
theorem witness_ExceptionEntrySavesAndVectors :
    xActive (coreOf up 3) = false ∧ 3 < up.cores.length ∧ ((coreOf up 3).long.any fun l => l.kind == 3) = false
      ∧ ((coreOf up 3).fl.any splitLoad) = false ∧ xActive (setSys (coreOf up 3) 0x52 3) = true := by decide +kernel

/-- The service core with a pending source of its own and interrupts on. -/
def interrupted : State :=
  st (onCore (withRegs [(ra (pTal + 2) 0x048, 1), (ra (pTal + 1) 0x080, 0x38)] { up with tally := { up.tally with soft := srcBit 64 } }) 8 fun c => setSys c 0x53 1)
theorem witness_TrapAndInterruptEnter :
    canMove up 3 = true ∧ xActive (coreOf up 3) = false ∧ ((coreOf up 3).long.any fun l => l.kind == 3) = false
      ∧ 3 < up.cores.length ∧ ((coreOf interrupted.vol 8).long.any fun l => l.kind == 3) = false ∧ intSource interrupted.vol = some 64 ∧ intAllowed interrupted.vol = true
      ∧ (coreOf interrupted.vol 8).busf = none ∧ (coreOf interrupted.vol 8).impr = [] ∧ (coreOf interrupted.vol 8).restart = false := by
  decide +kernel
theorem test_trap_number : fld (sysW (coreOf (nx (exec (.trap 3 ⟨0x1FF, 0⟩) (st up))).vol 3) 0x4A) 30 22 = 0xFF := by decide +kernel
theorem witness_TransfersAndLoopsAct :
    canMove up 3 = true ∧ (coreOf up 3).ds = none ∧ ctlBit up 3 0 = false ∧ loopLevels (coreOf up 3) ≠ 2 ∧ userMode (coreOf up 3) = false
      ∧ fheldAt (coreOf up 3) (xDepth (coreOf up 3)) = none := by decide +kernel
theorem test_call_pushes_past_the_slots :
    sysW (coreOf (nx (exec (.call 3 ⟨0x100, 0⟩) (st up))).vol 3) 0x60 = 48
      ∧ (coreOf (nx (exec (.call 3 ⟨0x100, 0⟩) (st up))).vol 3).ds = some (0x100, 2) := by decide +kernel
theorem witness_WaitsAndCommitAct : canMove up 3 = true ∧ canMove up 8 = true ∧ hasCommitted up 3 = false := by decide +kernel

/-- Core 3 has committed in this tick. -/
def committed : State := st { up with tick := { up.tick with commits := [(3, 70)] } }
theorem witness_SecondCommitOnlyFaults : canMove committed.vol 3 = true ∧ hasCommitted committed.vol 3 = true := by decide +kernel
theorem test_second_commit : rb (nx (exec (.commit 3) committed)).vol (aFault pTick) 3 = true := by decide +kernel

/-- Core 3 in user mode with sys number 0x51, and with a written MODE, and with a new EVEC. -/
def userSys : State := withCore 3 fun c => setOpnd (setUser c true) 102 ⟨0x51, 0⟩
def modeSet : State := withCore 3 fun c => { c with modeChg := some (0, true) }
def evecSet : State := withCore 3 fun c => { c with evecNew := some 0x100 }
theorem witness_SysCommandsAct :
    (canMove up 3 = true ∧ userMode (coreOf up 3) = false ∧ sysOk 0 true 5 = true ∧ sysOk 0x4A true 5 = true ∧ sysOk 0x50 false 0 = true)
      ∧ (sysOk 0x40 true 1 = true ∧ sysOk 0x45 true 1 = true ∧ sysOk 0x4B true 1 = true ∧ sysOk 0x57 true 1 = true ∧ sysOk 0x6F true 1 = true
        ∧ causeCodeOk (fld (5 : Word) 5 0) = true ∧ respCodeOk (fld (5 : Word) 21 19) = true)
      ∧ (coreOf modeSet.vol 3).modeChg = some (0, true) ∧ (coreOf up 3).modeChg = none
      ∧ ((coreOf evecSet.vol 3).evecNew = some 0x100 ∧ executable evecSet.nv evecSet.vol 0x100 = true ∧ lineErr evecSet.nv evecSet.vol.free 0x100 < 2
        ∧ lineErr evecSet.nv evecSet.vol.free (0x100 + 128) < 2)
      ∧ (canMove userSys.vol 3 = true ∧ userMode (coreOf userSys.vol 3) = true ∧ (coreOf userSys.vol 3).ds = none
        ∧ fheldAt (coreOf userSys.vol 3) (xDepth (coreOf userSys.vol 3)) = none ∧ sysOk 0x51 true 0x100 = true ∧ sysOk 0x51 false 0 = true) := by decide +kernel
theorem test_user_retx_faults : fld (sysW (coreOf (nx (exec (.retx 3) userSys)).vol 3) 0x4A) 5 0 = 5 := by decide +kernel

/-- Core 3 in a handler, one frame deep. -/
def deep : State := withCore 3 fun c => setSys c 0x52 2
def full : State := withCore 3 fun c => setSys c 0x52 8
theorem witness_FrameSaveAndRestore :
    canMove up 3 = true ∧ userMode (coreOf up 3) = false ∧ imageOk 3 0x10300100 = true ∧ xDepth (coreOf up 3) < 4
      ∧ 0 < xDepth (coreOf deep.vol 3) ∧ canMove deep.vol 3 = true ∧ (∀ i, i < 63 → wrongBits deep.vol (0x10300100 + 4 * i) = 0)
      ∧ imageOk 3 0x10300104 = false ∧ xDepth (coreOf full.vol 3) = 4 ∧ xDepth (coreOf up 3) = 0 := by decide +kernel
theorem test_fifth_frame_is_refused : bit (sysW (coreOf (nx (exec (.fsave 3 ⟨0x10300100, 0⟩) full)).vol 3) 0x52) 4 = true := by decide +kernel

/-- A part whose flash holds, at offset 0x100, the bundle that moves g5 to g7 in lane 0; core 3 stands there. -/
def moveState : State :=
  { State.reset with
    nv := { State.reset.nv with flash := [(0x100, 0x03850000), (0x104, 0), (0x108, 0), (0x10C, 0)] }
    vol := onCore up 3 fun c => { c with pc := 0x100 } }
theorem witness_RegisterMoveBundleIssues :
    canMove moveState.vol 3 = true ∧ (coreOf moveState.vol 3).restart = false ∧ (coreOf moveState.vol 3).fl = []
      ∧ (coreOf moveState.vol 3).replay = 0 ∧ (coreOf moveState.vol 3).impr.isEmpty = true ∧ (coreOf moveState.vol 3).long = []
      ∧ (coreOf moveState.vol 3).ds = none ∧ (coreOf moveState.vol 3).le = false ∧ (coreOf moveState.vol 3).modeChg = none
      ∧ executable moveState.nv moveState.vol 0x100 = true
      ∧ lineErr moveState.nv moveState.vol.free 0x100 = 0 ∧ bunBadHeader (fetchedAt moveState.nv moveState.vol 0x100) = false
      ∧ bunFmt (fetchedAt moveState.nv moveState.vol 0x100) = 0
      ∧ bunMoves (fetchedAt moveState.nv moveState.vol 0x100) = [⟨0, 7, 5⟩]
      ∧ bunGen (fetchedAt moveState.nv moveState.vol 0x100) 0 = false := by decide +kernel

/-- A branch table of one target in config flash; core 3 has been told to load it. -/
def btbState : State :=
  { State.reset with
    nv := { State.reset.nv with flash := [(0x1000100, 1), (0x1000104, 0x80)] }
    vol := withRegs [(ra (pCore 3) 0x048, 0x1000100), (aCtl (pCore 3), 0x40)] up }
theorem witness_CoreControlActs :
    (pageOpen up 8 (pCore 3) = true ∧ rb up (aCtl (pCore 3)) 4 = false ∧ rb up (aCtl (pCore 3)) 5 = false ∧ rb up (aCtl (pCore 3)) 6 = false
        ∧ rb (rgOr up (aCtl (pCore 3)) 0x30) (aCtl (pCore 3)) 4 = true ∧ (coreOf up 3).startPend = false
        ∧ rb (rgOr up (aCtl (pCore 3)) 0x30) (aCtl (pCore 3)) 5 = true ∧ rb (rgOr up (aCtl (pCore 3)) 0x40) (aCtl (pCore 3)) 6 = true)
      ∧ (ctlBit btbState.vol 3 6 = true ∧ (rg btbState.vol (ra (pCore 3) 0x048)).toNat = 0x1000100
        ∧ flashWord btbState.nv 0x1000100 = 1 ∧ (∀ i, i < 2 → lineErr btbState.nv btbState.vol.free (0x1000100 + 4 * i) < 2)
        ∧ flashWord btbState.nv 0x1000104 = 0x80 ∧ activePlane btbState.vol = 0 ∧ executable btbState.nv btbState.vol 0x80 = true
        ∧ lineErr btbState.nv btbState.vol.free 0x80 < 2 ∧ lineErr btbState.nv btbState.vol.free 0x100 < 2) := by
  decide +kernel

/-! ### Flash, Whetstone, DMA, Tally and mailboxes -/

/-- FLC about to program a line of plane B, and with a program, an erase and a blank check that run. -/
def flashing : Vol := withRegs [(ra pFlc 0x044, 0x800080), (ra pFlc 0x100, 0x11)] up
def flashRuns (op : Nat) : State := st { up with flc := ⟨op, 0x800080, if op = 1 then List.replicate 32 9 else []⟩ }
theorem witness_FlashCommandsAct :
    (pageOpen flashing 8 pFlc = true ∧ flashing.flc.op = 0 ∧ (rg flashing (ra pFlc 0x044)).toNat = 0x800080
        ∧ ∀ op, op < 5 → flcRefusal (fuseField State.reset.nv 0) flashing op 0x800080 = none)
      ∧ (flcRefusal (fuseField State.reset.nv 0) flashing 2 0x100 = some 0 ∧ flcRefusal State.reset.nv flashing 1 0x800084 = some 2
        ∧ flcRefusal { State.reset.nv with flash := [(0x8000FC, 0)] } flashing 1 0x800080 = some 1)
      ∧ (pageOpen (flashRuns 1).vol 8 pFlc = true ∧ (flashRuns 1).vol.flc.op = 1 ∧ (flashRuns 2).vol.flc.op = 2
        ∧ (flashRuns 3).vol.flc.op = 3 ∧ (flashRuns 4).vol.flc.op = 4 ∧ (flashRuns 1).vol.flc.addr % 4 = 0)
      ∧ (flashRuns 1).vol.flc.buf.length = (flcSpan 1 0x800080).2 / 4 := by decide +kernel
theorem test_program_ends : smapGet flashBlank (nx (exec (.flcOpDone 64 true) (flashRuns 1))).nv.flash 0x8000FC = 9
    ∧ smapGet flashBlank (nx (exec (.flcOpDone 64 true) (flashRuns 1))).nv.flash 0x800100 = 0xFFFFFFFF := by decide +kernel
/-- R493: a BLANK part programs plane A, which is active; a provisioned one does not. -/
theorem test_active_plane_is_refused : flcRefusal (fuseField State.reset.nv 0) up 2 0x100 = some 0 ∧ flcRefusal State.reset.nv up 2 0x100 = none := by
  decide +kernel

/-- Whetstone with two memories selected, and with a region under test after four retries. -/
def walking : Vol := withRegs [(ra pWhs 0x040, 3), (aCtl pWhs, 5), (aEvEn pWhs, 7)] up
def testing : Vol := setWhs walking fun w => { w with testing := true, retries := 4 }
theorem witness_WhetstoneActs :
    walking.sramErr = [] ∧ walking.sys.downHeld = [] ∧ ready walking pWhs = true ∧ rb walking (aCtl pWhs) 0 = true
      ∧ walking.whs.testing = false ∧ fastBusy walking = false ∧ whsFrom walking 0 = some 0x10000000 ∧ testing.whs.testing = true
      ∧ (rg walking (ra pWhs 0x04C)).toNat = 0 ∧ (∀ i, i < 64 → wrongBits walking (0x10000000 + 4 * i) ≤ 2)
      ∧ fastBusy testing = false ∧ walking.stuck = [] ∧ (∀ u, u < 8 → unitErrAt State.reset.nv (16 * u) = 0)
      ∧ walking.whs.fline = 0 ∧ rb (rgOr walking (aStat pWhs) 4) (aStat pWhs) 2 = true
      ∧ pageOpen walking 8 pWhs = true ∧ fastBusy (rgOr walking (aCtl pWhs) 2) = true ∧ rb walking (aCtl pWhs) 2 = true
      ∧ (setWhs walking fun w => { w with fline := 65535 }).whs.fline = 65535 := by decide +kernel
theorem test_march_failure_is_recorded :
    rg (whsRegionDone testing (some ⟨3, 4, 5⟩)) (ra pWhs 0x060) = 0x405 := by
  dsimp only [whsRegionDone]
  generalize Config.stuckCell _ = b
  cases b <;> decide +kernel

/-- Channel 2 of engine 1: idle, before its descriptor, and before a burst of four words. -/
def dmaLive : Vol := (nx (exec (.dmaDescriptorRead 1 2) (st dmaGone))).vol
theorem witness_DmaChannelRuns :
    (pageOpen dmaIdleVol 8 (pDma 1) = true ∧ dmaActive dmaIdleVol 1 2 = false ∧ dmaActive dmaGone 1 2 = true
        ∧ dmaGrant dmaIdleVol 1 ≠ some 2 ∧ (dmaOf dmaIdleVol 1 2).burst = false)
      ∧ (dmaGrant dmaGone 1 = some 2 ∧ (dmaOf dmaGone 1 2).live = false
        ∧ (let r := beatsRead State.reset.nv 10 2 .word false 8 (rg dmaGone (aDma 1 2 0x100)).toNat
            (setDma (dmaGranted dmaGone 1 2) 1 2 dmaIdle)
          (r.2.2.1, r.2.2.2, dBad r.2.1) = (0, false, false)))
      ∧ (dmaGrant dmaLive 1 = some 2 ∧ (dmaOf dmaLive 1 2).live = true ∧ (dmaOf dmaLive 1 2).desc.getD 3 0 = 0x50
        ∧ (dmaOf dmaLive 1 2).moved + 16 < dLen (dmaOf dmaLive 1 2).desc
        ∧ (let r := beatsRead State.reset.nv 10 2 .word false 4 0x20001000 (setDma (dmaGranted dmaLive 1 2) 1 2
            { dmaOf dmaLive 1 2 with burst := true, left := 4, buf := [], rerr := 0, wait := none })
          let q := beatsWrite State.reset.nv 10 2 .word false r.2.1 0x20002000 r.1
          (r.2.2, q.2) = ((0, false), (4, 0, false)))) := by decide +kernel
/-- Channel 2 of engine 1 before the last of its four bursts. -/
def dmaLast : Vol := (nx (exec (.dmaBurst 1 2) (st (nx (exec (.dmaBurst 1 2) (st (nx (exec (.dmaBurst 1 2) (st dmaLive))).vol))).vol))).vol
theorem witness_DmaDescriptorEnds :
    dmaGrant dmaLast 1 = some 2 ∧ (dmaOf dmaLast 1 2).moved = 48
      ∧ (let d := dmaOf dmaLast 1 2
        let r := beatsRead State.reset.nv 10 2 .word false 4 0x20001030 (setDma (dmaGranted dmaLast 1 2) 1 2
            { d with burst := true, left := 4, buf := [], rerr := 0, wait := none })
        let q := beatsWrite State.reset.nv 10 2 .word false r.2.1 0x20002030 r.1
        let v := setDma q.1 1 2 { d with burst := false, left := 0, moved := 64, buf := [], rerr := 0, wait := none }
        let u := rgSet (rgSet (rgSet v (aDma 1 2 0x10C) 0x20001040) (aDma 1 2 0x110) 0x20002040) (aDma 1 2 0x108) 0
        (beatsWrite State.reset.nv 10 2 .word false [BitVec.ofNat 32 (2 ^ 31 + 64), u.tick.number.setWidth 32, 0]
          ((rg u (aDma 1 2 0x100)).toNat + 20) u).2 = (3, 0, false)) := by decide +kernel
theorem test_descriptor_is_written_back :
    (sramWord (nx (exec (.dmaBurst 1 2) (st dmaLast))).vol 0x20000014).data = 0x80000040 := by decide +kernel
theorem test_burst_moves_words : (sramWord (nx (exec (.dmaBurst 1 2) (st dmaLive))).vol 0x20002000).data = 7 := by decide +kernel

/-- Source 64 pending, routed to core 0 and to SAFE. -/
def pendingTo (route : Word) : Vol :=
  withRegs [(ra (pTal + 2) 0x048, 1), (ra (pTal + 1) 0x080, route)] { up with tally := { up.tally with soft := srcBit 64 } }
/-- The same while tracing. -/
def tracing (route : Word) : Vol := withRegs [(ra (pTal + 3) 0x040, 1)] (pendingTo route)
theorem witness_TallyRoutesAndLatches :
    srcPending up 64 = false ∧ srcPending (pendingTo 0) 64 = true ∧ (pendingTo 0).tally.handed.getLsbD 64 = false
      ∧ (pendingTo 0).sys.mode ≠ .cold
      ∧ rb (pendingTo 0) (ra (pTal + 3) 0x040) 0 = false ∧ rb (pendingTo 0) (ra (pTal + 2) (0x140 + 4 * (64 / 32))) (64 % 32) = false
      ∧ talRoute (pendingTo 0) 64 = 0 ∧ talRoute (pendingTo 8) 64 = 8 ∧ talRoute (pendingTo 9) 64 = 9
      ∧ safeAtOnce (pendingTo 9).sys.mode = true ∧ rb (pendingTo 9) (ra pTal 0x084) 31 = false
      ∧ (srcPending (tracing 8) 64 = true ∧ (tracing 8).tally.handed.getLsbD 64 = false ∧ rb (tracing 8) (ra (pTal + 3) 0x040) 0 = true
        ∧ (tracing 8).tally.stopped = false ∧ (tracing 8).tally.traced < 4)
      ∧ pageOpen up 8 (pTal + 2) = true ∧ 7 < up.cores.length := by decide +kernel
theorem test_safe_route_enters_safe : (nx (exec (.tallyLineRise 64) (st (pendingTo 9)))).vol.sys.mode = .safe := by decide +kernel

/-- Mailbox 3, of core 5, empty and with a message. -/
def mailFull : Vol := (nx (exec (.mbxPost 8 3 0x55) (st (withRegs [(aMbx 3 0x00, 5)] up)))).vol
/-- Mailbox 3 of core 5 while that core's page is in reset, and while its domain is down with WAKE set. -/
def mailLost : Vol := { withRegs [(aMbx 3 0x00, 5)] up with resetting := [pCore 5] }
def mailAsleep : Vol := withRegs [(aMbx 3 0x00, 0x15), (0x4000204C, 0xFFFFFFDF)] up
theorem witness_MailboxesPassMessages :
    pageOpen up 8 (pMbx + 3 / 12) = true ∧ mbxRecv up 3 ≠ 10 ∧ mbxFull up 3 = false
      ∧ pageOpen mailFull 8 (pMbx + 3 / 12) = true ∧ mbxFull mailFull 3 = true
      ∧ (domUp up (pageDom (recvPage (mbxRecv up 3))) && up.resetting.contains (recvPage (mbxRecv up 3))) = false
      ∧ pageOpen mailLost 8 (pMbx + 3 / 12) = true ∧ (domUp mailLost (pageDom (recvPage (mbxRecv mailLost 3)))
        && mailLost.resetting.contains (recvPage (mbxRecv mailLost 3))) = true
      ∧ (pageOpen mailAsleep 8 (pMbx + 3 / 12) = true ∧ domUp mailAsleep (pageDom (recvPage (mbxRecv mailAsleep 3))) = false
        ∧ rb mailAsleep (aMbx 3 0x00) 4 = true ∧ pageDom (recvPage (mbxRecv mailAsleep 3)) ≠ 0)
      ∧ bit (1 : Word) 0 = true ∧ bit (2 : Word) 0 = false := by decide +kernel
theorem test_done_empties : mbxFull (nx (exec (.mbxDone 8 3 1) (st mailFull))).vol 3 = false := by decide +kernel

/-! ### Measurement, trips and outputs -/

/-- Block 2 with its first channel off at the last boundary; with channel 3 in mode 2; in BANKED; and without its factory record. -/
def measuring : Vol :=
  meaCapture { withRegs [(aCtl (pMea 2), 1), (aChan 2 3 0x100, 0x80000002)] up with tick := { up.tick with running := true } } 2
def bankedMea : Vol :=
  { withRegs [(ra (pMea 2) 0x064, 0x80080000)] measuring with sys := { up.sys with mode := .banked } }
def settlingMea : Vol := meaCapture (withRegs [(aChan 2 0 0x100, 0x80000001)] measuring) 2
theorem witness_ConversionsDeliver :
    (ready measuring (pMea 2) = true ∧ measuring.tick.running = true ∧ (meaOf measuring 2).cap.isSome = true
        ∧ rb measuring (aCtl (pMea 2)) 0 = true ∧ rb up (aCtl (pMea 2)) 0 = false ∧ up.tick.running = false
        ∧ isPartner (meaOf measuring 2) 2 0 = false ∧ bit (capOf (meaOf measuring 2) (aCtl (pMea 2))) 0 = true
        ∧ bit (capOf (meaOf measuring 2) (aChan 2 0 0x100)) 31 = false)
      ∧ (ready settlingMea (pMea 2) = true ∧ rb settlingMea (aCtl (pMea 2)) 0 = true
        ∧ bit (capOf (meaOf settlingMea 2) (aChan 2 0 0x100)) 31 = true ∧ fld (capOf (meaOf settlingMea 2) (aChan 2 0 0x100)) 3 0 = 1
        ∧ isPartner (meaOf settlingMea 2) 2 0 = false ∧ smapGet noErr (meaOf settlingMea 2).settle 0 ≠ 0)
      ∧ (let cfg := meaSetting measuring 2 (aChan 2 3 0x100)
        bit cfg 31 = true ∧ fld cfg 3 0 = 2 ∧ bit (meaSetting measuring 2 (aCtl (pMea 2))) 2 = false)
      ∧ (domUp up (pageDom (pMea 2)) = true ∧ ({ up with resetting := [pMea 2] } : Vol).resetting.contains (pMea 2) = true
        ∧ noWaits up = true)
      ∧ pageOpen up 8 (pMea 2) = true
      ∧ (bankedMea.sys.mode = .banked ∧ ready bankedMea (pMea 2) = true ∧ rb bankedMea (ra (pMea 2) 0x064) 31 = true
        ∧ rf bankedMea (ra (pMea 2) 0x064) 23 16 = 8 ∧ up.sys.mode ≠ .banked) := by decide +kernel
theorem test_curve_word : smapGet (fun _ => 0) (meaOf (nx (exec (.meaCrvdata 8 2 (some 55)) (st up))).vol 2).curve 0 = 55 := by
  decide +kernel

/-- Comparator 0, of threshold 0 and group 3, and OTEMP input 16, active high with a filter of 20 cycles and of group 4, enabled;
group 3 masks outputs 0 to 31; and group 3 latched by 1 µV. -/
def guarded : Vol :=
  withRegs [(ra pTrp 0x040, 0x83001000), (ra pTrp 0x080, 0x04000007), (ra pTrp 0x1B0, 0xFFFFFFFF), (aEvEn pTrp, 0xFFFF)] up
def tripped : Vol := (nx (exec (.tripCrossing ⟨0, 1000, 0⟩) (st guarded))).vol
theorem witness_TripsLatchAndRelease :
    (domUp guarded 25 = true ∧ tripEnabled guarded 0 = true ∧ tripGroup guarded 0 = 3 ∧ rb guarded (ra pTrp 0x0A0) 3 = false
        ∧ cmpBeyond (tripCfg guarded 0) 1000 = true ∧ cmpBeyond (tripCfg guarded 0) 0 = false ∧ (tripMask guarded 3).getLsbD 31 = true
        ∧ rb guarded (aEvEn pTrp) 3 = true)
      ∧ (tripEnabled guarded 16 = true ∧ tripGroup guarded 16 = 4 ∧ rb guarded (ra pTrp 0x0A0) 4 = false
        ∧ 0 < tripFilter guarded 0 ∧ bit (tripCfg guarded 16) 1 = true)
      ∧ (domUp tripped 25 = true ∧ tapLost tripped 0 = false ∧ cmpBack (tripCfg tripped 0) (-400000000) = true
        ∧ cmpBack (tripCfg tripped 0) 0 = false ∧ rb tripped (ra pTrp 0x0A0) 3 = true)
      ∧ (pageOpen tripped 8 pTrp = true ∧ tripState tripped 0 = true ∧ tripGroup tripped 0 = 3
        ∧ ∀ n, n < 24 → tripState guarded n = true → tripGroup guarded n ≠ 3)
      ∧ rb (rgSet up (ra pTrp 0x0B0) 1) (ra pTrp 0x0B0) 0 = true := by decide +kernel
theorem test_trip_holds_its_outputs : tripHeld tripped 31 = true ∧ tripHeld tripped 32 = false := by decide +kernel
theorem test_clear_with_input_in_trip : rb (tripClear tripped 8) (aFault pTrp) 0 = true ∧ rb (tripClear tripped 8) (ra pTrp 0x0A0) 3 = true := by
  decide +kernel
theorem witness_TripTestLatches :
    pageOpen up 8 pTrp = true ∧ pageOpen (rgSet guarded (aCtl pTrp) 1) 8 pTrp = true ∧ rb (rgSet guarded (aCtl pTrp) 1) (aCtl pTrp) 0 = true
      ∧ rb guarded (aCtl pTrp) 0 = false ∧ rb guarded (ra pTrp 0x0A0) 3 = false
      ∧ rb guarded (ra pTrp (0x0C0 + 12)) 31 = false ∧ (tripMask guarded 3).getLsbD 0 = true := by decide +kernel
theorem witness_OutputCommandsAct :
    stageChan 0x40041040 = some 0 ∧ stageWide 0x40041040 = 1 ∧ pageOpen up 3 (pageNo 0x40041040) = true ∧ pageOpen up 8 pStk = true
      ∧ pageOpen up 8 (pStk + 1) = true ∧ valvePhase (rgSet up (aVlv 7 0x200) 1) 7 = 1 ∧ valvePhase (rgSet up (aVlv 7 0x200) 3) 7 = 3
      ∧ valvePhase up 47 = 0 ∧ ready up (pMot 2) = true ∧ bit (fg up (aMot 2 0x040)) 26 = false ∧ motEdge up 2 = false
      ∧ ready up pGio = true ∧ up.outs.live.getLsbD 3 ≠ true ∧ pinPad up 3 = none := by decide +kernel
theorem witness_WideStaging : (stageChan 0x4004E050).isSome = true ∧ stageWide 0x4004E050 ≠ 1 := by decide +kernel
/-- Pin 3 as an output that drives 0: an edge to 1 is none. -/
def driven : Vol := inForce [(aPin 3, 0x04000000)] up
theorem witness_DrivenPin : pinPad driven 3 = some false ∧ xor false (rb driven (aPin 3) 0) ≠ true := by decide +kernel
theorem test_staging_tag_of_masters : pendOf (nx (exec (.stagingWrite 3 0x40041040 ⟨5, 7⟩) (st up))).vol 0 = ⟨5, 7⟩
    ∧ pendOf (nx (exec (.stagingWrite 9 0x40041040 ⟨5, 7⟩) (st up))).vol 0 = ⟨5, 0⟩ := by decide +kernel
theorem test_accumulator_clamps : rg (nx (exec (.stkAcc 9 7 0x90000000) (st up))).vol (aAcc 7) = 0xC0000000 := by decide +kernel

/-- Stoker runs with phase 1 locked: channels 5 and 6 of phase 1, of 40 rated units each, a limit of 90, and demand. -/
def firing : Vol :=
  let v := inForce [(aStkCfg 5, 0x04500028), (aStkCfg 6, 0x04400028), (aStkCfg 7, 0x04400028), (ra pStk 0x044, 100), (ra pStk 0x054, 90)]
      (withRegs [(aCtl pStk, 1), (aStat pMns, 2), (ra pMns 0x040, 7), (aAcc 5, 0x50000000), (aAcc 6, 0x48000000), (aAcc 7, 0x47000000),
        (aDem 5, 0x1000), (aDem 6, 0x1000), (aDem 7, 0x1000)] up)
  { v with outs := { v.outs with missed := 0 } }
def granted : Vol := (nx (exec (.stokerDecision 1) (st firing))).vol
theorem witness_StokerAndMainsAct :
    (stkRunning firing = true ∧ phaseLocked firing 1 = true ∧ firePhase firing 5 = 1 ∧ phaseLocked firing 0 = false
        ∧ firing.outs.missed.getLsbD 0 = false ∧ firePhase firing 9 ≠ 1)
      ∧ (stkRunning granted = true ∧ dueOf granted 5 ≠ [] ∧ dueOf granted 9 = [] ∧ phaseLocked granted (firePhase granted 5) = true
        ∧ tripHeld granted 5 = false ∧ firePulse granted 5 = true)
      ∧ (let v := { firing with outs := { firing.outs with missed := 1 } }
        stkRunning v = true ∧ phaseLocked v 0 = false ∧ v.outs.missed.getLsbD 0 = true)
      ∧ (let v := rgSet firing (ra pStk 0x0B8) 64
        v.outs.holdSub = false ∧ ff v (ra pStk 0x0B4) 6 0 ≤ rf v (ra pStk 0x0B8) 6 0)
      ∧ (let v := { rgSet firing (ra pStk 0x05C) 3 with outs := { firing.outs with extCnt := 3 } }
        rf v (ra pStk 0x05C) 15 0 ≠ 0 ∧ rf v (ra pStk 0x05C) 15 0 ≤ v.outs.extCnt ∧ v.outs.extSub = false)
      ∧ (ready firing pMns = true ∧ rb firing (ra pMns 0x040) 1 = true ∧ firing.outs.phases.length = 3
        ∧ rb up (ra pMns 0x040) 1 = false) := by decide +kernel
theorem test_decision_keeps_the_limit : rf granted (ra pStk 0x094) 15 0 = 80 ∧ granted.outs.armed = 0x60 := by decide +kernel
theorem test_phase_lost_stops_its_grants : (nx (exec (.phaseLost 1) (st granted))).vol.outs.armed = 0 := by decide +kernel

/-! ### Clocks, resets, power and modes -/

/-- The crystal, then the PLLs, are waited for. -/
def crystalWait : Vol := { up with sys := { up.sys with wait := .crystal } }
def pllWait : Vol := rgSet { up with sys := { up.sys with wait := .plls } } (ra pClk 0x054) 0
theorem witness_ClocksAct :
    (up.sys.xtalOn = true ∧ up.sys.wait ≠ .crystal ∧ crystalWait.sys.xtalOn = true ∧ crystalWait.sys.wait = .crystal
        ∧ ({ up.sys with xtalOn := false } : Sys).xtalOn = false)
      ∧ (let v := rgSet up (ra pClk 0x054) 0
        rb v (ra pClk 0x04C) 0 = true ∧ domUp v 41 = true ∧ rb v (aStat pClk) 1 = true ∧ rb v (ra pClk 0x054) 0 = false
          ∧ v.sys.wait ≠ .plls)
      ∧ (rb pllWait (ra pClk 0x04C) 0 = true ∧ rb pllWait (aStat pClk) 1 = true ∧ pllWait.sys.wait = .plls
        ∧ rb pllWait (ra pClk 0x050) 0 = true ∧ rb pllWait (ra pClk 0x054) 0 = false)
      ∧ (pageOpen up 8 pClk = true ∧ rb up (ra pClk 0x040) 1 = true ∧ rb up (ra pClk 0x050) 0 = true ∧ rb up (ra pClk 0x054) 0 = true
        ∧ rb up (ra pClk 0x04C) 0 = true ∧ rb (rgSet up (ra pClk 0x040) 1) (ra pClk 0x040) 1 = false)
      ∧ (domUp up 23 = true ∧ rb up (ra pClk 0x048) 0 = true ∧ rb up (ra pClk 0x050) 1 = false ∧ monExpect 3 = 1311
        ∧ rf up (ra pClk 0x058) 7 0 < 800 - 700)
      ∧ (let w : Word := rg up (ra pClk 0x044)
        dropMinOf up (ta up) (rg (regWrite up pClk 0x044 .direct w) (ra pClk 0x044)) ≤ taf up 0x048 13 0)
      ∧ (let v := { up with tick := { up.tick with act := smapSet regReset up.tick.act (aTick 0x048) 0 } }
        taf v 0x048 13 0 < dropMinOf v (ta v) (rg (regWrite v pClk 0x044 .direct 0) (ra pClk 0x044))) := by decide +kernel
theorem test_clk_sel_without_lock : rb (nx (exec (.clkSel 8 3) (st (rgSet up (ra pClk 0x054) 0)))).vol (aStat pClk) 5 = true := by
  decide +kernel
/-- A crystal that a window of monitor 0 has seen, in force and waited for. -/
def crystalSeen (w : SeqWait) : Vol := { up with sys := { up.sys with xtalSeen := true, wait := w } }
theorem witness_CrystalReady :
    (crystalSeen .idle).sys.xtalOn = true ∧ (crystalSeen .idle).sys.xtalSeen = true ∧ (crystalSeen .idle).sys.wait ≠ .crystal
      ∧ (crystalSeen .crystal).sys.xtalOn = true ∧ (crystalSeen .crystal).sys.xtalSeen = true ∧ (crystalSeen .crystal).sys.wait = .crystal
      ∧ up.sys.xtalSeen = false ∧ rb (rgSet up (ra pClk 0x054) 2) (ra pClk 0x054) 1 = true := by decide +kernel
/-- R533: the crystal is ready after its start-up delay, 2 ms for the strap 00, and the PLLs start. -/
theorem test_crystal_ready_starts_the_plls :
    (nx (exec .crystalReady (st (crystalSeen .crystal)))).vol.sys.wait = .plls := by decide +kernel
theorem test_monitor_off_by_more : rb (nx (exec (.monitorWindow 0 700) (st up))).vol (aFault pClk) 0 = true := by decide +kernel
theorem witness_WholeResetsAct : up.sys.mode ≠ .cold ∧ up.sys.wdExpired = false ∧ ({ up.sys with mode := .cold } : Sys).mode = .cold ∧ ({ up.sys with wdExpired := true } : Sys).wdExpired = true
    ∧ pageOpen up 8 pRst = true := by decide +kernel
theorem test_soft_reset_cause : rg (nx (exec (.rstSoft 8 0xA5C3) (st up))).vol (ra pRst 0x040) = 16 := by decide +kernel

/-- The watchdog runs with a period of 100. -/
def guardedDog : Vol := (nx (exec (.rstWdcfg 8 0x80000064) (st up))).vol
theorem witness_DomainResetAndWatchdog :
    (pageOpen up 8 pRst = true ∧ domUp up 34 = true ∧ (32 * 1 + 1 + 1 = 34) ∧ bit (0x80000064 : Word) 31 = true
        ∧ smapGet (fun _ => 0) up.rwoUsed (ra pRst 0x054) = 0 ∧ rb up (ra pRst 0x054) 31 = false ∧ up.sys.wdRunning = false)
      ∧ (pageOpen guardedDog 8 pRst = true ∧ guardedDog.sys.wdRunning = true ∧ guardedDog.sys.wdExpired = false ∧ guardedDog.sys.mode ≠ .banked)
      ∧ (let v := { up with sys := { up.sys with domReset := [60] } }
        v.sys.domReset.contains 60 = true ∧ ∀ p, p ∈ domBlocks 60 → v.resetting.contains p = false) := by decide +kernel
theorem test_trip_domain_reset_is_refused : rb (nx (exec (.rstDom 8 0 (bitWord 24)) (st up))).vol (aFault pRst) 1 = true := by
  decide +kernel

/-- Every domain up and asked for; and domain 60 down. -/
def allOn : Vol := withRegs [(ra pPwr 0x040, 0xFFFFFFFF), (ra pPwr 0x044, 0xFFFFFFFF), (ra pPwr 0x048, 0xFFFFFFFF)] up
def oneDown : Vol := setPwrBit (setPwrBit allOn 0x04C 60 false) 0x040 60 false
def waking : Vol := { setPwrBit oneDown 0x040 60 true with sys := { oneDown.sys with powering := [60] } }
def busyDomain : Vol := onCore allOn 3 fun c => { c with held := some ⟨false, 4, 0x20000010, TWord.zero, false, 0, 0, 77, none, false, none, false⟩ }
theorem witness_PowerDomainsAct :
    (pageOpen oneDown 8 pPwr = true ∧ pwrBit oneDown 0x040 60 = false ∧ domUp oneDown 60 = false ∧ oneDown.sys.powering = [])
      ∧ (pageOpen allOn 8 pPwr = true ∧ pwrBit allOn 0x040 60 = true ∧ downRefusal allOn 60 = 0 ∧ domUp allOn 60 = true
        ∧ domBusy allOn 60 = false ∧ domBusy busyDomain 85 = true ∧ downRefusal busyDomain 85 = 0 ∧ domUp busyDomain 85 = true
        ∧ pageOpen busyDomain 8 pPwr = true ∧ downRefusal allOn 25 ≠ 0)
      ∧ (pageOpen waking 8 pPwr = true ∧ pwrBit waking 0x040 60 = true ∧ waking.sys.powering.contains 60 = true
        ∧ downRefusal waking 60 = 0 ∧ noWaits waking = true)
      ∧ (rb allOn (ra pPwr 0x080) 0 = false ∧ ready allOn pSys = true ∧ ready State.reset.vol pSys = ready allOn pSys) := by
  decide +kernel
theorem witness_PowerGoodTimeout : ∀ c, c < 16 → (dmaOf waking (c / 8) (c % 8)).wait = none := by decide +kernel
/-- A domain with an SRAM comes up behind its wipe (R550). -/
def wakingSram : Vol := { setPwrBit (setPwrBit allOn 0x04C 85 false) 0x040 85 true with sys := { allOn.sys with powering := [85] } }
theorem witness_PowerGoodOfSram : hasSram 85 = true ∧ wakingSram.sys.powering.contains 85 = true ∧ noWaits wakingSram = true := by
  decide +kernel
theorem test_sram_is_wiped_before_it_is_up : domUp (nx (exec (.powerGood 85) (st wakingSram))).vol 85 = false := by decide +kernel
theorem test_power_up_waits : domUp (nx (exec (.domainPowerUp 8 60) (st oneDown))).vol 60 = false := by decide +kernel

/-- The tick generator is enabled and PLL_SYS ready, in SERVICE; and the reset sequence waits for Locksmith. -/
def serving : Vol :=
  { withRegs [(aCtl pTick, 1), (ra pClk 0x050, 1)] up with
    sys := { up.sys with mode := .service }, tick := { up.tick with running := true } }
def booting : Vol := { up with sys := { up.sys with wait := .boot, mode := .reset } }
def torn : Nv := { State.reset.nv with otp := [(0x1080200, 1)] }
theorem witness_ModeRequestsAct :
    (pageOpen serving 8 pSys = true ∧ modeRefusal serving 4 = 0 ∧ serving.sys.mode ≠ .run ∧ serving.tick.running = true
        ∧ modeRefusal up 3 ≠ 0 ∧ pageOpen up 8 pSys = true ∧ modeRefusal serving 6 = 0 ∧ serving.sys.mode = .service)
      ∧ (safeAtOnce serving.sys.mode = true ∧ serving.cores.length = 9)
      ∧ (pageOpen (inMode .safe (st serving)).vol 8 pSys = true ∧ (inMode .safe (st serving)).vol.sys.mode = .safe
        ∧ pageOpen (inMode .banked (st serving)).vol 8 pSys = true ∧ (inMode .banked (st serving)).vol.sys.mode = .banked)
      ∧ (booting.sys.wait = .boot ∧ (∀ f, f < 4 → fuseOnes State.reset.nv f = 0) ∧ lifeCycle State.reset.nv = 0
        ∧ booting.cores.length = 9)
      ∧ (fuseOnes torn 0 ≠ 0 ∧ fuseOnes torn 0 < 192) := by decide +kernel
theorem test_safe_halts_control_cores : (coreOf (nx (exec (.modeReqSafe 8) (st serving))).vol 7).safeHalt = true := by decide +kernel
theorem test_blank_part_boots_into_service : (nx (exec .locksmithBootComplete (st booting))).vol.sys.mode = .service := by decide +kernel

/-! ### Twin operation -/

/-- The link is up and Yoke enabled; a role, with the twin and the token; and frames of a twin. -/
def linked : Vol := withRegs [(aCtl pYok, 1), (aYok 0x044, 0x80000000)] up
def yokSt (f : Yok → Yok) : State := st (setYok linked f)
def markOf : List Byte := yokFrame 1 0 7 (List.replicate 20 0 ++ [1] ++ List.replicate 11 0)
def snapBody : List Byte := [2, 3, 216, 0, 7, 0, 0, 0] ++ List.replicate 216 1
def snapOf : List Byte := snapBody ++ (wordBytes (crc32c snapBody) ++ [])
def rplyOf : List Byte := yokFrame 3 0 7 (List.replicate 32 5)
def nakOf (n : Nat) : List Byte := yokFrame 4 n 7 []
def mboxOf (op : Byte) : List Byte := yokFrame 5 0 7 ([3, op, 0, 0] ++ leBytes 4 9 ++ List.replicate 32 0)
def stateOf : List Byte := yokFrame 6 4 7 (leBytes 4 0x20000000 ++ [2, 0, 0, 0] ++ leBytes 4 77 ++ leBytes 4 88 ++ [0x21, 0])
def ctrlOf (op : Nat) (p : List Byte) : List Byte := yokFrame 7 op 7 (p ++ List.replicate (16 - p.length) 0)

theorem byteAt_past (a b : List Byte) (i : Nat) : byteAt (a ++ b) (a.length + i) = byteAt b i := by
  simp [byteAt, List.getD_eq_getElem?_getD, List.getElem?_append_right]

/-- The word read where a word's bytes stand. -/
theorem leWord_at (a b : List Byte) (c : Word) : leWord (a ++ (wordBytes c ++ b)) a.length = c := by
  have h0 := byteAt_past a (wordBytes c ++ b) 0
  have h (i : Nat) := byteAt_past a (wordBytes c ++ b) i
  simp only [Nat.add_zero] at h0
  simp only [leWord, h, h0]
  have e : ∀ i, i < 4 → byteAt (wordBytes c ++ b) i = c.toNat / 2 ^ (8 * i) % 256 := by
    intro i hi
    match i, hi with
    | 0, _ => simp [byteAt, wordBytes, BitVec.extractLsb'_toNat]
    | 1, _ => simp [byteAt, wordBytes, BitVec.extractLsb'_toNat, Nat.shiftRight_eq_div_pow]
    | 2, _ => simp [byteAt, wordBytes, BitVec.extractLsb'_toNat, Nat.shiftRight_eq_div_pow]
    | 3, _ => simp [byteAt, wordBytes, BitVec.extractLsb'_toNat, Nat.shiftRight_eq_div_pow]
  rw [e 0 (by omega), e 1 (by omega), e 2 (by omega), e 3 (by omega)]
  apply BitVec.eq_of_toNat_eq
  have := c.isLt
  simp only [BitVec.toNat_ofNat]
  omega

theorem snap_bytes : byteAt snapOf 0 = 2 ∧ byteAt snapOf 1 = 3 ∧ byteAt snapOf 2 = 216 ∧ byteAt snapOf 3 = 0
    ∧ snapOf.length = 228 ∧ snapBody.length = 224 := by decide +kernel

/-- A long frame is sound without its CRC being worked out. -/
theorem snap_sound : frameIs snapOf 2 none = true := by
  obtain ⟨b0, b1, b2, b3, bl, sl⟩ := snap_bytes
  have e : snapOf = snapBody ++ (wordBytes (crc32c snapBody) ++ []) := rfl
  have h := leWord_at snapBody [] (crc32c snapBody)
  rw [← e, sl] at h
  have k : snapOf.take 224 = snapBody := e ▸ List.take_left' sl
  simp [frameIs, frameOk, b0, b1, b2, b3, bl, h, k]
def holder : Vol := (yokSt fun y => { y with token := true, out := [snapOf], flight := [(2, [0x20000000], false)] }).vol
def joiner : Vol := (yokSt fun y => { y with role := 3, attPh := 1 }).vol
theorem witness_YokeDataFramesAct :
    (takesFrames linked = true ∧ takesFrames up = false ∧ takesFrames holder = true ∧ takesFrames joiner = true
        ∧ holder.yok.token = true ∧ linked.yok.token = false ∧ linked.yok.role ≠ 3 ∧ joiner.yok.role = 3)
      ∧ (frameIs markOf 1 none = true ∧ frameIs (markOf ++ [0]) 1 none = false ∧ frameIs markOf 2 none = false
        ∧ linked.yok.sof = false ∧ linked.yok.snapOpen = false
        ∧ (let v := { linked with tick := { up.tick with act := smapSet regReset up.tick.act (aTick 0x040) 2, running := true } }
          tickSource v = 2 ∧ takesFrames v = true ∧ v.yok.sof = false)
        ∧ (byteAt (payloadOf markOf) 20).testBit 0 = true ∧ (yokSt fun y => { y with role := 2 }).vol.yok.role = 2)
      ∧ (frameIs rplyOf 3 none = true ∧ frameIs (rplyOf ++ [0]) 3 none = false
        ∧ takesFrames (yokSt fun y => { y with role := 1, twin := true }).vol = true ∧ linked.whs.testing = false)
      ∧ (frameIs (nakOf 3) 4 none = true ∧ byteAt (nakOf 3) 1 < 5 ∧ frameIs (nakOf 130) 4 none = true ∧ 128 ≤ byteAt (nakOf 130) 1
        ∧ (holder.yok.out.find? fun g => byteAt g 0 == 2 && byteAt g 1 == byteAt (nakOf 3) 1).isSome = true
        ∧ holder.yok.out.countP (fun x => decide (byteAt x 0 ≤ 2)) < 8
        ∧ holder.yok.flight.find? (fun e => e.1 == byteAt (nakOf 130) 1 - 128) = some (2, [0x20000000], false)
        ∧ (holder.yok.flight.find? (fun e => e.1 == byteAt (nakOf 131) 1 - 128)).isNone = true)
      ∧ ([(1 : Byte), 2, 3, 4].all fun op => frameIs (mboxOf op) 5 none && byteAt (payloadOf (mboxOf op)) 1 == op.toNat) = true
      ∧ byteAt (payloadOf (mboxOf 1)) 0 < 24 ∧ mbxFull linked 3 = false ∧ mbxFull (rbSet linked (aMbx 3 0x04) 31 true) 3 = true
      ∧ (frameIs stateOf 6 none = true ∧ byteAt (payloadOf stateOf) 4 = 2 ∧ leWord (payloadOf stateOf) 0 = 0x20000000
        ∧ frameIs (stateOf ++ [0]) 6 none = false
        ∧ ((place 0x20000000).map fun q => decide (q.win = .direct) && q.tagged && domUp joiner q.dom) = some true) := by
  decide +kernel
theorem test_state_frame_writes_tagged_words :
    sramWord (nx (exec (.state stateOf) (yokSt fun y => { y with role := 3 }))).vol 0x20000000 = ⟨77, 1⟩
      ∧ sramWord (nx (exec (.state stateOf) (yokSt fun y => { y with role := 3 }))).vol 0x20000004 = ⟨88, 2⟩ := by decide +kernel
theorem test_mark_with_takeover : (nx (exec (.mark markOf) (yokSt fun y => { y with role := 2 }))).vol.yok.takeDue = true := by
  decide +kernel

theorem witness_YokeControlFramesAct :
    (takesFrames linked = true ∧ takesFrames up = false
        ∧ ([1, 2, 3, 4, 5, 6, 7, 8, 9].all fun n => frameIs (ctrlOf n []) 7 (some n)) = true ∧ frameIs markOf 7 (some 1) = false)
      ∧ ((yokSt fun y => { y with echoAt := some 5 }).vol.yok.echoAt = some 5 ∧ linked.yok.echoAt = none
        ∧ linked.yok.role ≠ 3 ∧ linked.yok.attPh = 0 ∧ joiner.yok.role = 3 ∧ joiner.yok.attPh = 1 ∧ joiner.yok.attCold = false)
      ∧ (let p := payloadOf (ctrlOf 4 [])
        holder.yok.token = true ∧ holder.yok.attPh = 0 ∧ byteAt p 8 ≠ 1 ∧ leWord p 0 = yokImg holder 0 ∧ leWord p 4 = yokImg holder 1
          ∧ attWords holder ≤ 65536 ∧ holder.yok.st = 0)
      ∧ leWord (payloadOf (ctrlOf 4 [1])) 0 ≠ yokImg holder 0 ∧ byteAt (payloadOf (ctrlOf 4 [0, 0, 0, 0, 0, 0, 0, 0, 1])) 8 = 1
      ∧ leWord (payloadOf (ctrlOf 5 [0, 0, 0, 0, 0, 0, 0, 0, 1])) 8 ≠ 0 ∧ leWord (payloadOf (ctrlOf 5 [])) 8 = 0
      ∧ byteAt (payloadOf (ctrlOf 6 [1])) 0 = 1
      ∧ (frameTick (ctrlOf 7 []) + 2 ^ 32 - (yokSt fun y => { y with attPh := 4, cutAt := 7 }).vol.yok.cutAt) % 2 ^ 32 < 2 ^ 31
      ∧ joiner.tick.number.toNat < (leWord (payloadOf (ctrlOf 9 [5])) 0).toNat
      ∧ (leWord (payloadOf (ctrlOf 9 [])) 0).toNat + (leWord (payloadOf (ctrlOf 9 [])) 4).toNat * 2 ^ 32 ≤ joiner.tick.number.toNat
      ∧ joiner.sys.mode = .run ∧ (inMode .safe (st joiner)).vol.sys.mode ≠ .run := by decide +kernel
/-- Aligned lanes with an ECHO on its way; a joining part in its cut; a lead in its cut. -/
def alignedLanes : Vol := rgSet (setYok linked fun y => { y with echoAt := some 5 }) (aStat pYok) 1
theorem witness_YokeEcho :
    linkAligned alignedLanes = true ∧ rb alignedLanes (aCtl pYok) 0 = true ∧ alignedLanes.yok.echoAt = some 5
      ∧ (rgSet linked (aStat pYok) 1).yok.echoAt = none ∧ linkAligned linked = false
      ∧ frameIs (ctrlOf 1 [7, 0, 0, 0]) 7 (some 1) = true ∧ frameIs (ctrlOf 2 []) 7 (some 2) = true
      ∧ (yokSt fun y => { y with attPh := 4, cutAt := 7, cutTicks := 15 }).vol.yok.cutTicks = 15
      ∧ (setYok holder fun y => { y with st := 2 }).yok.st ≠ 0 ∧ (setYok joiner fun y => { y with attCold := true }).yok.attCold = true
      ∧ linked.yok.twin = false ∧ (setYok linked fun y => { y with twin := true }).yok.twin = true := by decide +kernel
/-- R406: the link is up only after the answer to its ECHO; the distance is half of what the exchange took beyond 64 c. -/
theorem test_echo_brings_the_link_up :
    rf (nx (exec (.echoa (ctrlOf 2 [])) (st { alignedLanes with now := 169 }))).vol (aYok 0x044) 9 0 = 50 ∧ rb alignedLanes (aYok 0x044) 31 = true
      ∧ rb (nx (exec .linkUp (st (rgSet linked (aYok 0x044) 0)))).vol (aYok 0x044) 31 = false := by decide +kernel
theorem test_cutend_makes_a_shadow :
    (nx (exec (.cutend (ctrlOf 9 [])) (yokSt fun y => { y with role := 3, attPh := 2 }))).vol.sys.mode = .shadow := by decide +kernel
theorem test_attach_of_other_image_is_refused :
    (nx (exec (.attreq (ctrlOf 4 [1])) (yokSt fun y => { y with token := true }))).vol.yok.attPh = 0 := by decide +kernel

/-- A shadow that is due to take over; a part paired as lead; a part alone. -/
def shadow : State := inMode .shadow (yokSt fun y => { y with role := 2, takeDue := true, twin := true })
def lead : State := yokSt fun y => { y with role := 1, token := true, twin := true, noRply := 2 }
theorem witness_YokeRolesChange :
    (ready shadow.vol pYok = true ∧ shadow.vol.yok.role = 2 ∧ shadow.vol.yok.takeDue = true ∧ shadow.vol.sys.mode = .shadow)
      ∧ (linked.yok.token = false ∧ linked.yok.tokI = false ∧ linked.sys.mode = .run ∧ rb linked (aCtl pYok) 2 = false
        ∧ ready linked pYok = true
        ∧ (if linked.yok.prime then 2 else 8) ≤ (yokSt fun y => { y with noMark := 8 }).vol.yok.noMark
        ∧ linked.yok.noMark < if linked.yok.prime then 2 else 8)
      ∧ (ready lead.vol pYok = true ∧ lead.vol.yok.token = true ∧ lead.vol.yok.twin = true ∧ lead.vol.yok.attPh = 0
        ∧ lead.vol.yok.role = 1 ∧ 2 ≤ lead.vol.yok.noRply ∧ linkUp lead.vol = true ∧ rb lead.vol (aCtl pYok) 3 = false
        ∧ lead.vol.yok.st = 0 ∧ rb lead.vol (aCtl pYok) 4 = false ∧ pageOpen lead.vol 8 pYok = true)
      ∧ (let v := rgSet linked (aYok 0x044) 0
        ready v pYok = true ∧ rb v (aCtl pYok) 0 = true ∧ rb v (aYok 0x044) 31 = false ∧ linkUp v = false)
      ∧ (linked.yok.twin = false ∧ linked.yok.attPh = 0 ∧ linkUp linked = true
        ∧ (yokSt fun y => { y with relayRx := [77] }).vol.yok.relayRx = [77])
      ∧ rf (yokSt fun y => { y with attPh := 2, attTicks := 2 ^ 20 }).vol (aYok 0x088) 19 0 ≤ 2 ^ 20
      ∧ (linked.yok.role = 0 ∧ linked.yok.token = false ∧ rb linked (aCtl pYok) 2 = false ∧ rb linked (aCtl pYok) 31 = false
        ∧ pageOpen linked 8 pYok = true ∧ linked.yok.relayRx = []) := by decide +kernel
theorem test_takeover_of_the_token : (nx (exec (.takeover true) shadow)).vol.sys.mode = .run
    ∧ (nx (exec (.takeover false) shadow)).vol.sys.mode = .safe := by decide +kernel
theorem test_handover_waits : rb (nx (exec (.handover 8) lead)).vol (aCtl pYok) 4 = true := by decide +kernel
/-- A part that may claim the token, alone and paired; and a lead that releases it at c1120. -/
def claiming (paired : Bool) : Vol := setYok linked fun y => { y with noMark := 8, twin := paired, role := b2n paired }
def releasing (n : Nat) : Vol := { setYok lead.vol (fun y => { y with relAt := some (1120, true) }) with now := n }
theorem witness_YokeTokenMoves :
    (∀ p, ready (claiming p) pYok = true ∧ (claiming p).yok.token = false ∧ (claiming p).sys.mode = .run
        ∧ rb (claiming p) (aCtl pYok) 2 = false ∧ (if (claiming p).yok.prime then 2 else 8) ≤ (claiming p).yok.noMark
        ∧ (claiming p).yok.twin = p ∧ (claiming p).yok.attPh = 0 ∧ (claiming p).yok.role ≠ 3)
      ∧ (releasing 0).yok.relAt = some (1120, true) ∧ (releasing 0).now < 1120 ∧ 1120 ≤ (releasing 1120).now
      ∧ (releasing 1120).yok.token = true ∧ safeAtOnce (releasing 1120).sys.mode = true := by decide +kernel
/-- R433: the lead that hands over releases the token and enters SAFE in cycle 1120 of its tick, not before. -/
theorem test_handover_releases_at_1120 :
    (nx (step (st (releasing 1118)))).vol.yok.token = true ∧ (nx (step (st (releasing 1119)))).vol.sys.mode = .safe := by decide +kernel

/-! ### Ledger -/

/-- Ledger enabled and mounted on one target with blocks of four pages, stream 3 enabled with a block of its own; format 1 holds one
field of four bytes; the ring holds one entry, of stream 3 and format 1. -/
def ledger : Vol :=
  let v := withRegs [(aCtl pLdg, 1), (aStat pLdg, 1), (aLdg 0x040, 1), (aLdg 0x044, 0x00010004), (aLdg 0x048, 4), (aLdg 0x070, 0x20000000),
    (aLdg 0x074, 1), (aLdg 0x078, 1), (aLdg (0x100 + 12), 0x80000000), (aLdg 0x084, 3)] up
  let v := setLdg v fun l => { l with fmt := [(32, 0x80010004), (33, 4)] }
  let v := setLst v 3 fun x => { x with blocks := [1], segTicks := some (0, 0) }
  sramPut v 0x20000000 ⟨0x03010000, 0⟩
def ring : Vol := sramPut (sramPut ledger 0x20000004 ⟨0x20000100, 0⟩) 0x20000100 ⟨77, 0⟩
def foundScan : NandScan := { params := [(0, ⟨true, 40, true, 16384, 2176, 1, 4, 4⟩)], marks := [], found := [] }
def leafOf : List Byte := [0x4C, 0x45, 0x41, 0x46] ++ List.replicate 16 0
def ldgAt (op : Nat) : Vol := setLdg ledger fun l => { l with op := op, scan := some foundScan }
def unmounted (op : Nat) : Vol := rgSet (setLks (ldgAt op) fun l => { l with slots := [(0, [1])] }) (aStat pLdg) 0

def keyed (v : Vol) : Vol := setLks v fun l => { l with slots := [(0, [1])] }
theorem witness_LedgerCommandsRun :
    (pageOpen ledger 8 pLdg = true ∧ noAbort ledger = true ∧ rb ledger (aLdg 0x094) 31 = false ∧ ledger.ldg.op = 0 ∧ ldgMounted ledger = true
        ∧ ldgRuns ledger = true ∧ (rg ledger (aLdg 0x084)).toNat < 64 ∧ (lst ledger 3).segTicks.isSome = true
        ∧ (lst ledger 3).signing.isNone = true ∧ canSign (keyed ledger) = true ∧ nandClocked ledger = true)
      ∧ (let v := rgSet (ldgAt 6) (ra pClk 0x040) 1
        nandClocked v = false ∧ ldgRuns v = true ∧ v.ldg.op = 6)
      ∧ (ldgRuns (unmounted 2) = true ∧ (unmounted 2).ldg.op = 2 ∧ ldgMounted (unmounted 2) = false ∧ nandClocked (unmounted 2) = true
        ∧ accepted (unmounted 2) ((unmounted 2).ldg.scan.getD emptyScan) ≠ [] ∧ accepted (unmounted 2) emptyScan = []
        ∧ ldgMounted (ldgAt 2) = true ∧ (unmounted 6).ldg.op = 6 ∧ ldgMounted (unmounted 6) = false)
      ∧ (canSign (unmounted 1) = true ∧ idNext (unmounted 1) = none ∧ canSign (ldgAt 1) = false ∧ ldgMounted (ldgAt 1) = true
        ∧ ldgMounted (unmounted 1) = false ∧ nandClocked (unmounted 1) = true
        ∧ (idNext (setLks (unmounted 1) fun l => { l with idq := [64] })).isSome = true
        ∧ accepted (unmounted 1) foundScan ≠ [] ∧ accepted (unmounted 1) emptyScan = []
        ∧ canSign (rgSet (ldgAt 1) (aStat pLdg) 0) = false ∧ ldgMounted (rgSet (ldgAt 1) (aStat pLdg) 0) = false)
      ∧ (ldgRuns (ldgAt 3) = true ∧ ldgMounted (ldgAt 3) = true ∧ (lst (ldgAt 3) 3).progs = [] ∧ canSign (ldgAt 4) = false
        ∧ canSign (keyed (ldgAt 4)) = true ∧ (lst (ldgAt 4) 3).due = 0 ∧ ldgMounted (ldgAt 10) = true ∧ (ldgAt 7).ldg.ending = false)
      ∧ (32 ≤ fmtIdx (rgSet ledger (aLdg 0x068) 40) ∧ fmtIdx ledger < 32
        ∧ (lst (setLst ledger 0 fun x => { x with durable := some 77 }) 0).durable = some 77 ∧ (lst ledger 0).durable = none) := by
  decide +kernel
theorem witness_LedgerUnmountEnds :
    let v := keyed (setLdg (ldgAt 7) fun l => { l with ending := true, streams := [] })
    ldgRuns v = true ∧ ldgMounted v = true ∧ v.ldg.op = 7 ∧ v.ldg.ending = true ∧ canSign v = true
      ∧ ∀ j, j < 64 → (lst v j).progs = [] ∧ (lst v j).signing.isNone = true ∧ (lst v j).due = 0 ∧ (lst v j).segTicks.isNone = true := by
  decide +kernel
def staging : Vol := rgSet (setLdg (ldgAt 8) fun l => { l with stg := [2] }) (aLdg 0x090) 0x20001000
theorem witness_LedgerStaging :
    staging.ldg.op = 8 ∧ ldgMounted staging = true ∧ nandClocked staging = true ∧ ldgArg staging 1 < stagingUnits staging
      ∧ tgtOffline staging (blkTarget staging 2) = false
      ∧ (beatsRead State.reset.nv 12 0 .word false 1024 (ldgArg staging 3) staging).2.2 = (0, false) := by decide +kernel
/-- R444: a target that went offline takes no FORMAT before the next MOUNT. -/
theorem test_offline_target_is_not_formatted :
    let v := rgSet (unmounted 1) (ra (pNand 0) 0x044) 0xD0000000
    accepted v foundScan = [] ∧ accepted (targetsAgain v) foundScan = [0] := by decide +kernel
/-- R446: the page tag of the first page of a block, bytes 2018 to 2041 of the spare area. -/
theorem test_page_tag_is_laid_out :
    let v := setLdg ledger fun l => { l with counts := [(1, 5)] }
    (spareOf (pageTag v 3 0 0 0 1) [leafOf]).length = 2176
      ∧ ((spareOf (pageTag v 3 0 7 2 1) [leafOf]).drop 2018).take 24
        = [0x1D, 0x7E, 3, 1, 0, 0, 0, 0, 7, 0, 0, 0, 0, 0, 0, 0, 2, 0, 0, 0, 5, 0, 0, 0] := by decide +kernel
/-- R443: a target whose geometry differs from the first one's is not taken, nor one whose spare area is too small. -/
theorem test_geometry_is_compared :
    let p : TargetParams := ⟨true, 40, true, 16384, 2176, 1, 4, 4⟩
    accepted (unmounted 1) { foundScan with params := [(0, p), (1, { p with blocks := 5 }), (2, { p with spare := 2175 }), (3, p)] } = [0, 3] := by
  decide +kernel
/-- A staging area that is read; and a command whose LUN has other work. -/
def stagingRead : Vol := setLdg (rgSet staging (aLdg 0x080) 9) fun l => { l with op := 9 }
theorem witness_LedgerWaits :
    (stagingRead.ldg.op = 9 ∧ ldgMounted stagingRead = true ∧ nandClocked stagingRead = true ∧ cmdWaits stagingRead = false
        ∧ stagingRead.ldg.waiting = false ∧ ldgArg stagingRead 1 < stagingUnits stagingRead
        ∧ tgtOffline stagingRead (blkTarget stagingRead (stagingBlock stagingRead (ldgArg stagingRead 1))) = false
        ∧ (readEcc State.reset.nv stagingRead (stagingBlock stagingRead (ldgArg stagingRead 1)) (some 0)).2 = 0
        ∧ (readEcc State.reset.nv stagingRead (stagingBlock stagingRead (ldgArg stagingRead 1)) none).2 ≠ 0)
      ∧ cmdWaits (lunQueue (lunQueue (ldgAt 8) (some 3) 1) (some 64) 1) = true
      ∧ (setLdg (ldgAt 6) fun l => { l with waiting := true }).ldg.waiting = true := by decide +kernel
/-- R444: a LUN has one operation; the command that came second waits for the page in flight. -/
theorem test_command_waits_for_its_lun :
    let v := lunQueue (lunQueue (ldgAt 10) (some 3) 1) (some 64) 1
    nx (exec (.ldgCommandDone none) (st v)) = st v := by decide +kernel
theorem test_scan_is_kept : ((nx (exec (.mount 8 foundScan) (st (rgSet ledger (aStat pLdg) 0)))).vol.ldg.scan) = some foundScan := by
  decide +kernel
theorem test_format_entry_autoincrements :
    rg (nx (exec (.ldgFmtdata 8 (some 9)) (st (rgSet ledger (aLdg 0x068) 0x80000028)))).vol (aLdg 0x068) = 0x80000029 := by decide +kernel

/-- Stream 3 reads a leaf from its store. -/
def reading : Vol := withRegs [(aLdg 0x090, 0x20001000)] (setLst (ldgAt 6) 3 fun x => { x with store := [(0, leafOf)] })
theorem witness_LedgerRead :
    nandClocked reading = true ∧ (readEcc State.reset.nv reading (slotBlock (lst reading 3) 0) (some 0)).2 = 0
      ∧ (readEcc State.reset.nv reading (slotBlock (lst reading 3) 0) none).2 = 5
      ∧ ldgRuns reading = true ∧ reading.ldg.op = 6 ∧ ldgMounted reading = true ∧ (rg reading (aLdg 0x084)).toNat = 3
      ∧ ((lst reading 3).store.find? fun e => isLeaf e.2 && le64 e.2 8 == ldgArg64 reading) = some (0, leafOf)
      ∧ ldgArg reading 3 = 0x20001000
      ∧ (beatsWrite State.reset.nv 12 0 .word false (wordsOf (padTo 4096 leafOf)) (ldgArg reading 3) reading).2.2 = (0, false) := by
  decide +kernel

/-- A stream with a signed seal to place; with a page in flight; and a LUN with an erase in flight. -/
def signing : Vol := setLks (setLst ledger 3 fun x => { x with signing := some [1] }) fun l => { l with slots := [(0, [1])], idq := [3] }
def flightPage : PageProg := ⟨0, 1, 0, 0, [leafOf]⟩
def inFlight : Vol := lunQueue (setLst ledger 3 fun x => { x with progs := [flightPage] }) (some 3) 1
def erasing : Vol := rgSet (lunQueue (setLdg ledger fun l => { l with erasing := [2] }) none 2) (ra (pNand 0) 0x044) 0xC0000000
theorem witness_LedgerStreamsAdvance :
    (ldgRuns ring = true ∧ ring.ldg.held = false ∧ ring.ldg.ending = false ∧ ring.ldg.op ≠ 7 ∧ rf ring (aLdg 0x07C) 9 0 = 0
        ∧ rf ring (aLdg 0x078) 9 0 % 2 ^ rf ring (aLdg 0x074) 3 0 ≠ 0)
      ∧ (let r := beatsRead State.reset.nv 12 0 .word false 8 0x20000000 ring
        r.2.2 = (0, false) ∧ entryStatus r.1 (r.2.1.getD 0 0) = 0 ∧ fld (r.2.1.getD 0 0) 29 24 = 3 ∧ fld (r.2.1.getD 0 0) 21 16 = 1
          ∧ fld (r.2.1.getD 0 0) 15 14 = 0 ∧ segmentFull r.1 3 = false
          ∧ (let g := gatherAll State.reset.nv (r.2.1.getD 1 0).toNat (fmtFields r.1 1) r.1
            g.2 = ([77, 0, 0, 0], 0, false) ∧ (streamHasBlock g.1 3).2 = true ∧ (streamHasBlock g.1 3).1.ldg.fmtNew = false
            ∧ segmentFull (fitRecord State.reset.nv (streamHasBlock g.1 3).1 3 (32 + 4)) 3 = false))
      ∧ (let v := rgSet ring (aLdg (0x100 + 12)) 0
        let r := beatsRead State.reset.nv 12 0 .word false 8 0x20000000 v
        r.2.2 = (0, false) ∧ entryStatus r.1 (r.2.1.getD 0 0) = 1)
      ∧ (ldgRuns ledger = true ∧ ldgMounted ledger = true ∧ (lst ledger 3).segTicks.isSome = true ∧ (lst ledger 3).due &&& 2 = 0
        ∧ (lst ledger 4).segTicks.isNone = true ∧ (setLdg ledger fun l => { l with held := true }).ldg.held = true)
      ∧ (ldgRuns signing = true ∧ (lst signing 3).signing = some [1] ∧ canSign signing = true ∧ (lst signing 3).due = 0
        ∧ idNext signing = some 3 ∧ idNext (setLks signing fun l => { l with idq := [64, 3] }) = some 64
        ∧ canSign (setLks signing fun l => { l with noSign := true }) = false)
      ∧ (let v := rgSet ledger (ra pClk 0x040) 1
        nandClocked v = false ∧ ldgRuns v = true)
      ∧ (ldgRuns inFlight = true ∧ nandClocked inFlight = true ∧ (lst inFlight 3).progs = [flightPage]
        ∧ lunTurn inFlight (some 3) 1 = true ∧ lunTurn (lunQueue erasing (some 3) 1) (some 3) 1 = false)
      ∧ (ldgRuns erasing = true ∧ erasing.ldg.erasing.contains 2 = true ∧ blkTarget erasing 2 = 0 ∧ blkLun erasing 2 = 0
        ∧ nandClocked erasing = true ∧ lunTurn erasing none 2 = true ∧ erasing.ldg.op ≠ 1 ∧ erasing.ldg.op ≠ 10
        ∧ lunBusy erasing 0 0 = true ∧ lunBusy ledger 0 0 = false
        ∧ rb erasing (ra (pNand 0) 0x044) 30 = true ∧ rb erasing (ra (pNand 0) 0x044) 28 = false) := by decide +kernel
theorem test_page_makes_its_leaf_readable :
    ((lst (nx (exec (.pageProgramDone 3 true) (st inFlight))).vol 3).store.map fun e => e.1) = [0] := by decide +kernel
theorem test_failed_erase_retires : (nx (exec (.blockEraseDone 2 false) (st erasing))).vol.ldg.retired.contains 2 = true := by
  decide +kernel

/-! ### Locksmith -/

/-- Locksmith busy with an operation and its arguments; in PROVISIONED. -/
def locking (op a0 a1 a3 : Nat) : Vol :=
  setLks (withRegs [(aLks 0 0x054, 0x80000000), (aLks 0 0x044, BitVec.ofNat 32 a0), (aLks 0 0x048, BitVec.ofNat 32 a1),
    (aLks 0 0x050, BitVec.ofNat 32 a3)] up) fun l => { l with op := op }
def provisioned : Nv := fuseField State.reset.nv 0

theorem witness_LocksmithCommandsStart :
    (pageOpen up 8 pLks = true ∧ rb up (aLks 0 0x054) 31 = false ∧ rb (locking 1 0 0 0) (aLks 0 0x054) 31 = true
        ∧ pageOpen (locking 1 0 0 0) 8 pLks = true)
      ∧ (pageOpen up 8 pDbg = true ∧ rb up (ra pDbg 0x044) 31 = false ∧ up.lks.op = 0 ∧ pageOpen (locking 1 0 0 0) 8 pDbg = true
        ∧ (locking 1 0 0 0).lks.op ≠ 0 ∧ rb (rgSet up (ra pDbg 0x044) 0x80000000) (ra pDbg 0x044) 31 = true)
      ∧ (let v := setLks up fun l => { l with pauseAt := some 0 }
        v.lks.pauseAt.isSome = true ∧ v.lks.switchTo.isNone = true ∧ pageOpen v 8 pLks = true) := by decide +kernel
theorem test_lks_cmd_starts : (nx (exec (.hash 8) (st up))).vol.lks.op = 7 ∧ (nx (exec (.revoke 8) (st up))).vol.lks.op = 20 := by
  decide +kernel

/-- A read that the bus answers goes on with its bytes. -/
theorem lksGet_goes {nv : Nv} {v : Vol} {a n : Nat} (h : (beatsRead nv 13 0 .word false (n / 4) a v).2.2 = (0, false))
    (h' : (beatsRead nv 13 0 .byte false (n % 4) ((a + n / 4 * 4) % 2 ^ 32) (beatsRead nv 13 0 .word false (n / 4) a v).1).2.2 = (0, false)) :
    ∃ v1 bs, ∀ k, lksGet nv v a n k = k v1 bs := by
  unfold lksGet
  rcases hx : beatsRead nv 13 0 .word false (n / 4) a v with ⟨v1, ws, c, p⟩
  rw [hx] at h h'
  obtain ⟨rfl, rfl⟩ := Prod.mk.inj h
  rcases hy : beatsRead nv 13 0 .byte false (n % 4) ((a + n / 4 * 4) % 2 ^ 32) v1 with ⟨v2, bs, c, p⟩
  rw [hy] at h'
  obtain ⟨rfl, rfl⟩ := Prod.mk.inj h'
  exact ⟨v2, bytesOf ws ++ bs.map fun w => w.setWidth 8, fun k => by simp only [hy]⟩

/-- A write that the bus answers goes on. -/
theorem lksPut_goes {nv : Nv} {v : Vol} {a : Nat} {bs : List Byte} (hl : bs.length % 4 = 0)
    (h : (beatsWrite nv 13 0 .word false (wordsOf bs) a v).2.2 = (0, false)) : ∃ v1, ∀ k, lksPut nv v a bs k = k v1 := by
  have e : bs.length / 4 * 4 = bs.length := by omega
  unfold lksPut
  simp only [e, List.take_length, List.drop_length, List.map_nil]
  rcases hx : beatsWrite nv 13 0 .word false (wordsOf bs) a v with ⟨v1, n, c, p⟩
  rw [hx] at h
  obtain ⟨rfl, rfl⟩ := Prod.mk.inj h
  exact ⟨v1, fun k => rfl⟩

theorem witness_LocksmithHash :
    ready (locking 7 0 0 0x20001000) pLks = true ∧ rb (locking 7 0 0 0x20001000) (aLks 0 0x054) 31 = true
      ∧ (locking 7 0 0 0x20001000).lks.tokBuf = false := by decide +kernel
theorem witness_LocksmithHashWrites :
    ∃ v2, ∀ k, lksPut State.reset.nv (locking 7 0 0 0x20001000) 0x20001000 (padTo 48 (Config.sha384 [])) k = k v2 :=
  lksPut_goes (by decide +kernel) (by decide +kernel)
theorem witness_LocksmithRandom :
    ∃ v2, ∀ k, lksPut State.reset.nv (randomBytes (locking 8 0 4 0x20001000) 4).1 0x20001000 (randomBytes (locking 8 0 4 0x20001000) 4).2 k
      = k v2 := lksPut_goes (by decide +kernel) (by decide +kernel)
theorem witness_LocksmithRootset : ∃ v1 h, ∀ k, lksGet State.reset.nv (locking 16 1 0x20001000 0) 0x20001000 48 k = k v1 h :=
  lksGet_goes (by decide +kernel) (by decide +kernel)

/-- In PROVISIONED with a key to sign with, a QUOTE first in the order. -/
def quoting : Vol := setLks (locking 6 0x20000000 0 0x20001000) fun l => { l with slots := [(0, [1])], idq := [64] }
theorem witness_LocksmithQuote : ready quoting pLks = true ∧ rb quoting (aLks 0 0x054) 31 = true ∧ quoting.lks.glitched = false
    ∧ lksAllowed provisioned quoting 6 = true ∧ canSign quoting = true ∧ idNext quoting = some 64
    ∧ idNext (setLks quoting fun l => { l with idq := [] }) ≠ some 64
    ∧ canSign (locking 6 0 0 0) = false ∧ lksAllowed provisioned (locking 6 0 0 0) 6 = true := by decide +kernel
theorem witness_LocksmithQuoteReads : ∃ v1 nonce, ∀ k, lksGet provisioned quoting 0x20000000 32 k = k v1 nonce :=
  lksGet_goes (by decide +kernel) (by decide +kernel)
theorem witness_LocksmithHashReads : ∃ v1 bs, ∀ k, lksGet State.reset.nv (locking 7 0x20000000 5 0) 0x20000000 5 k = k v1 bs :=
  lksGet_goes (by decide +kernel) (by decide +kernel)
theorem witness_LocksmithCommandsEnd :
    (ready (locking 7 0 0 0) pLks = true ∧ rb (locking 7 0 0 0) (aLks 0 0x054) 31 = true ∧ rb up (aLks 0 0x054) 31 = false
        ∧ (setLks (locking 7 0 0 0) fun l => { l with glitched := true }).lks.glitched = true)
      ∧ (ready (locking 20 0 0 0) pLks = true ∧ rb (locking 20 0 0 0) (aLks 0 0x054) 31 = true
        ∧ (locking 20 0 0 0).lks.glitched = false ∧ lksAllowed State.reset.nv (locking 20 0 0 0) 20 = false
        ∧ lksAllowed State.reset.nv (locking 6 0 0 0) 6 = false ∧ canSign (locking 6 0 0 0) = false)
      ∧ (locking 7 0 (2 ^ 20) 0).lks.op = 7 ∧ lksArg (locking 7 0 (2 ^ 20) 0) 1 ≤ 2 ^ 20 ∧ lksArg (locking 8 0 4096 0) 1 ≤ 4096
      ∧ (lksAllowed provisioned (locking 14 4 0 0) 14 = true ∧ lksArg (locking 14 4 0 0) 0 = 4 ∧ lksArg (locking 14 7 0 0) 0 = 7
        ∧ counterOf provisioned 4 < 1024 ∧ (locking 14 4 0 0).lks.tokBuf = false)
      ∧ (probRuns (rgSet (locking 4 0 0 0) (aLks 0 0x05C) 16) = true ∧ planeSv { State.reset.nv with flash := [(manifestAt 0 + 24, 3)] } 0 = 3)
      ∧ counterOf { provisioned with otp := (List.range 32).map fun j => (0x1080680 + 4 * j, 0xFFFFFFFF) } 5 = 1024
      ∧ (lcCode State.reset.nv = 1 ∧ lksArg (locking 16 1 0x20001000 0) 0 ≤ 2 ∧ rootFilled State.reset.nv 1 = false)
      ∧ (lcCode provisioned = 2 ∧ lksArg (locking 19 3 0 0) 0 = 3) := by decide +kernel
theorem test_incr_counts_one (h : Config.burnFails up.free = false) : counterOf (counterStep provisioned up 5).1 5 = 1 := by
  have e : counterStep provisioned up 5 = burnWord provisioned up 0x680 1 := by rfl
  rw [e, burnWord, h]
  decide +kernel
theorem test_incr_of_reserved_counter : rg (nx (exec .lksCommandDone { st (locking 14 3 0 0) with nv := provisioned })).vol (aLks 0 0x054) = 18 := by
  decide +kernel

/-! ### Update messages and Locksmith's events -/

/-- A message of the update endpoint, whose check value need not be worked out. -/
def headOf (op : Byte) (n : Nat) : List Byte := magicUpdate ++ [op, 0, 0, 0] ++ leBytes 4 n
def messageOf (op : Byte) (pay : List Byte) : List Byte :=
  headOf op pay.length ++ (wordBytes (crc32c (headOf op pay.length ++ pay)) ++ pay)
theorem messageOf_ok (op : Byte) (pay : List Byte) (n : Nat) (hn : pay.length = n)
    (h : (headOf op n).length = 12 ∧ (headOf op n).take 4 = magicUpdate ∧ (leWord (headOf op n) 8).toNat = n) :
    messageOk magicUpdate (messageOf op pay) = true ∧ byteAt (messageOf op pay) 4 = op.toNat ∧ (messageOf op pay).drop 16 = pay := by
  obtain ⟨h1, h2, h3⟩ := h
  have hm : ∀ i, i < 12 → byteAt (messageOf op pay) i = byteAt (headOf op n) i := by
    intro i hi
    simp [messageOf, hn, byteAt, List.getD_eq_getElem?_getD, List.getElem?_append_left, h1, hi]
  have hw : leWord (messageOf op pay) 8 = leWord (headOf op n) 8 := by simp [leWord, hm]
  have hc := leWord_at (headOf op n) pay (crc32c (headOf op n ++ pay))
  rw [h1] at hc
  have hl : (messageOf op pay).length = 16 + n := by simp [messageOf, hn, h1, wordBytes]; omega
  have hd : (messageOf op pay).drop 16 = pay := by
    simp [messageOf, hn, List.drop_append, h1, wordBytes]
  have ht : (messageOf op pay).take 12 = headOf op n := by
    simp [messageOf, hn, h1]
  have ht4 : (messageOf op pay).take 4 = magicUpdate := by
    have : (messageOf op pay).take 4 = ((messageOf op pay).take 12).take 4 := by simp [List.take_take]
    rw [this, ht, h2]
  have h5 : byteAt (messageOf op pay) 5 = 0 := by rw [hm 5 (by decide)]; rfl
  have hc' : leWord (messageOf op pay) 12 = crc32c (headOf op n ++ pay) := by simpa [messageOf, hn] using hc
  refine ⟨?_, ?_, hd⟩
  · simp [messageOk, hl, ht4, h5, hw, h3, hc', ht, hd]
  · rw [hm 4 (by decide)]; rfl

/-- A BLOCK message's payload: block 0 with its ciphertext, check value and tag. -/
def blockOf (ct tag : List Byte) : List Byte := ([0, 0, 0, 0] ++ ct) ++ (wordBytes (crc32c (ct ++ tag)) ++ tag)
theorem blockOf_ok (ct tag : List Byte) (hc : ct.length = 4096) (ht : tag.length = 16) :
    (blockOf ct tag).length = 4120 ∧ ((blockOf ct tag).drop 4).take 4096 = ct ∧ ((blockOf ct tag).drop 4104).take 16 = tag
      ∧ leWord (blockOf ct tag) 4100 = crc32c (ct ++ tag) ∧ leWord (blockOf ct tag) 0 = 0 := by
  have h := leWord_at ([0, 0, 0, 0] ++ ct) tag (crc32c (ct ++ tag))
  have hl : ([0, 0, 0, 0] ++ ct : List Byte).length = 4100 := by simp [hc]
  rw [hl] at h
  refine ⟨by simp [blockOf, hc, ht, wordBytes], by simp [blockOf, List.take_left' hc], ?_, h, by simp [blockOf, leWord, byteAt]⟩
  have e : blockOf ct tag = ([0, 0, 0, 0] ++ ct ++ wordBytes (crc32c (ct ++ tag))) ++ tag := by simp [blockOf]
  rw [e, List.drop_left' (by simp [hc, wordBytes]), ← ht, List.take_length]

/-- The service port up, in a session of a phase. -/
def session (ph : Nat) (staged : Bool) : Vol :=
  setLks (svcSet (withRegs [(aStat pLdg, 1)] up) 4) fun l =>
    { l with session := true, phase := ph, staged := staged, man := List.replicate 28 0 ++ [1, 0, 0, 0], stored := if staged then [0] else [],
             slots := [(0, [1])] }
theorem witness_UpdateMessagesAct :
    (svcUp (session 1 false) = true ∧ svcUp up = false ∧ ready (session 1 false) pLks = true ∧ 2 ≤ lcCode provisioned
        ∧ lcCode provisioned ≤ 4 ∧ lcCode State.reset.nv = 1)
      ∧ messageOk magicUpdate [] = false
      ∧ ((session 1 false).lks.session = true ∧ up.lks.session = false ∧ probRuns (session 1 false) = false
        ∧ (session 2 false).lks.phase = 2 ∧ probRuns (rgSet (session 1 false) (aLks 0 0x05C) 16) = true)
      ∧ ((session 3 false).lks.phase = 3 ∧ (session 3 false).lks.staged = false ∧ (session 3 false).flc.op = 0
        ∧ 0 < manN (session 3 false).lks.man ∧ (session 3 false).lks.stored.contains 0 = false
        ∧ flashIsBlank provisioned 0x800000 16 = true ∧ flashIsBlank { provisioned with flash := [(0x80000C, 0)] } 0x800000 16 = false)
      ∧ ((session 3 true).lks.staged = true ∧ manN (session 3 true).lks.man ≤ (session 3 true).lks.stored.length
        ∧ ldgMounted (session 3 true) = true ∧ (session 3 true).flc.op = 0 ∧ (session 4 false).lks.phase = 4)
      ∧ ((session 5 false).lks.recovery = false ∧ activateStatus provisioned (rgSet (session 5 false) (aStat pFlc) 3) = 0
        ∧ activateStatus provisioned (session 5 false) ≠ 0 ∧ (session 5 false).lks.phase = 5 ∧ canSign (session 5 false) = true
        ∧ idNext (session 5 false) = none ∧ canSign (up) = false
        ∧ (idNext (setLks (session 5 false) fun l => { l with idq := [64] })).isSome = true)
      ∧ (let man : List Byte := List.replicate 28 0 ++ [1, 0, 0, 0] ++ List.replicate 624 0
        man.length = 608 + 48 * manN man ∧ manN man = 1
          ∧ manArrived provisioned (setLks (session 2 false) fun l => { l with man := man }) ≠ 0) := by decide +kernel
theorem witness_UpdateMessages :
    (∀ op : Byte, op ∈ ([1, 5, 6, 8, 9] : List Byte) → messageOk magicUpdate (messageOf op []) = true ∧ byteAt (messageOf op []) 4 = op.toNat)
      ∧ messageOk magicUpdate (messageOf 2 [0, 0, 0, 0]) = true
      ∧ (let pay := (messageOf 3 [32, 0, 0, 0, 7]).drop 16
        messageOk magicUpdate (messageOf 3 [32, 0, 0, 0, 7]) = true ∧ 5 ≤ pay.length ∧ pay.length ≤ 4100 ∧ (leWord pay 0).toNat = 32)
      ∧ messageOk magicUpdate (messageOf 7 [0, 0, 0, 0, 0, 0, 0, 0]) = true
      ∧ messageOk magicUpdate (messageOf 10 (List.replicate 32 0)) = true := by decide +kernel
theorem witness_UpdateBlock :
    ∃ ct tag : List Byte, (messageOk magicUpdate (messageOf 4 (blockOf ct tag)) = true ∧ byteAt (messageOf 4 (blockOf ct tag)) 4 = 4
        ∧ (messageOf 4 (blockOf ct tag)).drop 16 = blockOf ct tag)
      ∧ (blockOf ct tag).length = 4120 ∧ ((blockOf ct tag).drop 4).take 4096 = ct ∧ ((blockOf ct tag).drop 4104).take 16 = tag
      ∧ leWord (blockOf ct tag) 4100 = crc32c (ct ++ tag) ∧ leWord (blockOf ct tag) 0 = 0 :=
  have h := blockOf_ok (List.replicate 4096 0) (List.replicate 16 0) List.length_replicate List.length_replicate
  ⟨List.replicate 4096 0, List.replicate 16 0, messageOf_ok 4 _ 4120 h.1 (by decide +kernel), h⟩
theorem test_begin_opens_phase_two :
    (nx (exec (.begin (messageOf 2 [0, 0, 0, 0])) { st (session 1 false) with nv := provisioned })).vol.lks.phase = 2 := by decide +kernel
theorem test_begin_of_staging_without_ledger :
    (nx (exec (.begin (messageOf 2 [1, 0, 0, 0])) { st (rgSet (session 1 false) (aStat pLdg) 0) with nv := provisioned })).vol.lks.phase = 1 := by
  decide +kernel

/-- A switch that waits; probation; a session; debug access; COLD with the mesh on. -/
def switching : Vol := setLks up fun l => { l with pauseAt := some 0, switchTo := some (1, 3), atS := true }
theorem witness_LocksmithEventsAct :
    (switching.lks.atS = true ∧ switching.lks.pauseAt = some 0 ∧ switching.lks.switchTo = some (1, 3) ∧ switching.lks.fallback = false
        ∧ (coreOf switching 8).sbuf = [] ∧ switching.cores.length = 9 ∧ up.lks.pauseAt.isNone = true)
      ∧ (let v := { switching with tick := { up.tick with boundary := 600000 } }
        v.lks.pauseAt = some 0 ∧ v.lks.resumeDue = false ∧ 0 + 600000 ≤ v.tick.boundary ∧ safeAtOnce v.sys.mode = true)
      ∧ switching.tick.boundary < 0 + 600000
      ∧ (let v := rgSet up (aLks 0 0x05C) 16
        probRuns v = true ∧ v.lks.op ≠ 4 ∧ v.lks.switchTo.isNone = true ∧ probRuns up = false)
      ∧ (ready up pLks = true ∧ rf (rgSet up (aLks 0 0x094) 1) (aLks 0 0x094) 1 0 ≠ 0 ∧ rf up (aLks 0 0x094) 1 0 = 0)
      ∧ (let v := { up with sys := { up.sys with mode := .cold, mesh2 := true } }
        v.sys.mode = .cold ∧ v.sys.mesh2 = true ∧ up.sys.mode ≠ .cold)
      ∧ (session 1 false).lks.session = true ∧ rg (rgSet up (aLks 2 0x054) 3) (aLks 2 0x054) ≠ 0 ∧ rg up (aLks 2 0x054) = 0 := by
  decide +kernel
theorem test_late_resume_brings_safe :
    (nx (exec .pauseTimeout (st { switching with tick := { up.tick with boundary := 700000 } }))).vol.sys.mode = .safe := by decide +kernel
theorem test_glitch_ends_signing : (nx (exec .glitch (st up))).vol.lks.noSign = true := by decide +kernel
/-- A part in probation, one whose fallback has switched, and one with a service-port QUOTE behind a seal. -/
def probation : Vol := setLks (rgSet up (aLks 0 0x05C) 16) fun l => { l with probEnd := 50000000000 }
def fallen : Vol := setLks probation fun l => { l with fellDue := true }
theorem witness_LocksmithProbation :
    (probOpen probation = true ∧ probation.lks.op ≠ 4 ∧ switchWaits probation = false ∧ probation.lks.quoteQ = none
        ∧ (∀ j, j < 64 → (lst probation j).segTicks = none ∧ (lst probation j).signing.isNone = true))
      ∧ switchWaits (setLks probation fun l => { l with switchTo := some (1, 9) }) = true
      ∧ fallen.lks.fellDue = true ∧ probOpen up = false := by decide +kernel
/-- R513: the record and the end of probation follow the procedure of the fallback, not its start. -/
theorem test_fallback_ends_probation_last :
    probRuns (nx (exec .probationExpiry (st probation))).vol = true ∧ probRuns (fellBack State.reset.nv fallen).2 = false := by decide +kernel
/-- R483: a service-port QUOTE takes its place behind the seals that asked for the key before it. -/
theorem test_quote_waits_for_a_seal :
    let v := setLks (session 5 false) fun l => { l with idq := [64] }
    (nx (exec (.servicePortQuote (messageOf 10 (List.replicate 32 0))) { st v with nv := provisioned })).vol.lks.idq = [64, 65] := by
  decide +kernel

/-! ### Host interfaces -/

theorem witness_OtpBitsAreNeverCleared : ∃ t, step State.reset = .next t := ⟨_, rfl⟩

/-- Every host interface enabled, with its events. -/
def ports : Vol :=
  withRegs [(aCtl pEth, 3), (aCtl (pCan 1), 1), (aCtl pPtp, 1), (aCtl pHsp, 3), (aCtl pSvc, 1), (aEvEn pEth, 0xFF), (aEvEn (pCan 1), 0xFF),
    (aEvEn pPtp, 0xFF), (aEvEn pHsp, 0xFF), (aEvEn pSvc, 0xFF), (aEvEn pDbg, 0xFF), (ra pEth 0x05C, 60), (ra (pCan 1) 0x100, 0x80000123),
    (ra (pCan 1) 0x104, 0x1FFFFFFF)] up
/-- A broadcast frame of 64 bytes. -/
def ethFrame : List Byte := List.replicate 6 0xFF ++ (List.range 58).map fun i => BitVec.ofNat 8 i
def pauseFrame : List Byte := [0x01, 0x80, 0xC2, 0x00, 0x00, 0x01] ++ List.replicate 6 0 ++ [0x88, 0x08, 0, 1, 0, 9] ++ List.replicate 42 0
def ethSends : Vol := { ports with eth := { ports.eth with txQ := [ethFrame], mdio := true } }
theorem witness_EthernetAct :
    (ready ports pEth = true ∧ ioClocked ports = true ∧ rb ports (aCtl pEth) 1 = true ∧ 60 ≤ ethFrame.length ∧ ethFrame.length ≤ 1518
        ∧ ethFrame.take 6 ≠ [0x01, 0x80, 0xC2, 0x00, 0x00, 0x01] ∧ ethAdmits ports ethFrame = true ∧ ptpHeaderAt ethFrame = none
        ∧ ethAdmits ports (2 :: ethFrame.drop 1) = false ∧ 1518 < (List.replicate 1519 (0 : Byte)).length)
      ∧ (pauseFrame.take 6 = [0x01, 0x80, 0xC2, 0x00, 0x00, 0x01] ∧ be16 pauseFrame 12 = 0x8808 ∧ be16 pauseFrame 14 = 1
        ∧ pauseFrame.length = 60)
      ∧ ((ports.eth.rx.map frameWords).sum + frameWords ethFrame ≤ 2048 ∧ frameWords ethFrame = 16
        ∧ ports.eth.mdio = false ∧ pageOpen ports 8 pEth = true ∧ ports.eth.rx = [] ∧ ports.eth.txQ = [])
      ∧ (ready ethSends pEth = true ∧ ioClocked ethSends = true ∧ rb ethSends (aCtl pEth) 0 = true ∧ ethSends.eth.txQ = [ethFrame]
        ∧ ethSends.eth.tsq.length < 16 ∧ ethSends.eth.mdio = true ∧ ioClocked (rgSet ports (ra pClk 0x040) 1) = false) := by
  decide +kernel
theorem witness_EthernetFull :
    2048 < ((List.replicate 130 ethFrame).map frameWords).sum + frameWords ethFrame := by decide +kernel
theorem test_short_frame_is_padded :
    ((nx (exec (.ethTxdata 8 0x01020304) (st { rgSet ports (ra pEth 0x05C) 16 with
      eth := { ports.eth with tx := List.replicate 12 0 } }))).vol.eth.txQ.map List.length) = [60] := by decide +kernel
theorem test_mdio_reads_its_data :
    rf (nx (exec (.mdioDone 0x1234) (nx (exec (.ethMdio 8 0x04000000) (st ports))))).vol (ra pEth 0x078) 15 0 = 0x1234 := by decide +kernel

theorem witness_PtpClockActs :
    (pageOpen ports 8 pPtp = true ∧ rb ports (aCtl pPtp) 1 = false ∧ rb ports (aCtl pPtp) 2 = false ∧ rb ports (aCtl pPtp) 3 = false
        ∧ ready ports pPtp = true)
      ∧ (let v := { withRegs [(aCtl pPtp, 9), (aStat pPtp, 1)] ports with
            tick := { up.tick with act := smapSet regReset up.tick.act (aTick 0x040) 1, running := true } }
        pageOpen v 8 pPtp = true ∧ rb v (aCtl pPtp) 3 = true ∧ rb v (aStat pPtp) 0 = true ∧ v.tick.running = true ∧ tickSource v = 1)
      ∧ (let v := withRegs [(ra pPtp 0x060, 5), (aStat pPtp, 1)] ports
        rf v (ra pPtp 0x060) 15 0 ≠ 0 ∧ rb v (aStat pPtp) 0 = true)
      ∧ ready { ports with resetting := [pPtp] } pPtp = false := by decide +kernel
theorem test_ptp_step_back_borrows :
    (nx (execStep 8 (st (rgSet { ports with ptp := { ports.ptp with sec := 7 } } (ra pPtp 0x05C) 0xFFFFFFFF)))).vol.ptp.sec = 6 := by decide +kernel

/-- A CAN frame of 12 data bytes; and a controller with a full FIFO, 19 words of a record and one buffer in use. -/
def canFrame : CanFrame := ⟨false, true, true, 0x123, 9, false, false, (List.range 12).map fun i => BitVec.ofNat 8 i⟩
def canFull : Vol :=
  canPut ports 1 { canOf ports 1 with rx := List.replicate 32 (List.replicate 20 5), txPart := List.replicate 19 7, tx := [(0, [0x123])] }
theorem witness_CanControllersAct :
    ports.can.length = 2
      ∧ (canOnBus ports 1 = true ∧ rb ports (aCtl (pCan 1)) 2 = false ∧ (canFrame.fdf && canFrame.rtr) = false
        ∧ (canMatch ports 1 canFrame).isSome = true ∧ (canOf ports 1).rx.length < 32 ∧ 32 ≤ (canOf canFull 1).rx.length
        ∧ (canMatch canFull 1 canFrame).isSome = true
        ∧ (canMatch ports 1 { canFrame with id := 0x124 }).isNone = true ∧ canOnBus up 1 = false)
      ∧ (pageOpen canFull 8 (pCan 1) = true ∧ (canOf canFull 1).txPart.length = 19 ∧ canFreeBuf (canOf canFull 1) = some 1
        ∧ (canOf ports 1).txPart.length < 19 ∧ (canOf ports 1).rx = [] ∧ (canOf ports 1).tx = []
        ∧ canFreeBuf { canOf canFull 1 with tx := (List.range 16).map fun i => (i, [0]) } = none)
      ∧ (canOnBus canFull 1 = true ∧ rb canFull (aCtl (pCan 1)) 1 = false ∧ canNext (canOf canFull 1).tx = some (0, [0x123]))
      ∧ (ready ports (pCan 1) = true ∧ rb ports (aCtl (pCan 1)) 0 = true)
      ∧ (let v := withRegs [(aCtl (pCan 1), 9), (ra (pCan 1) 0x04C, 0x02000000)] ports
        ready v (pCan 1) = true ∧ rb v (aCtl (pCan 1)) 3 = true ∧ rf v (ra (pCan 1) 0x04C) 25 24 = 2) := by decide +kernel
theorem test_full_fifo_loses_the_frame :
    (canOf (nx (exec (.canFrameReceived 1 canFrame) (st canFull))).vol 1).rx.length = 32 := by decide +kernel

/-- The service port attached, reset, addressed and configured. -/
def svcAt (n : Nat) : Vol := { svcSet ports n with svc := { ports.svc with vbus := true, prev := 4 } }
def asleep : Vol := withRegs [(0x40002054, 0xFFFEFFFF), (ra pPwr 0x060, 0xFFFFFFFF)] ports
theorem witness_HostPortsAct :
    (ready ports pHsp = true ∧ rb ports (aCtl pHsp) 0 = true ∧ rb ports (aCtl pHsp) 1 = true
        ∧ ready { ports with resetting := [pHsp] } pHsp = false)
      ∧ (rb (rgSet ports (aCtl pHsp) 1) (aCtl pHsp) 1 = false ∧ rb (rgSet ports (aCtl pHsp) 0) (aCtl pHsp) 0 = false)
      ∧ (let x := busAccess State.reset.nv (hspBegin ports 2) ⟨15, 1, false, .word, 0x20000000, ⟨0, Tag.raw⟩⟩
        let y := busAccess State.reset.nv x ⟨15, 1, false, .word, 0x20000004, ⟨0, Tag.raw⟩⟩
        x.parked = [] ∧ x.ans.code = 0 ∧ ready x pHsp = true ∧ rb x (aCtl pHsp) 0 = true ∧ y.parked = [])
      ∧ (let x := busAccess State.reset.nv (hspBegin asleep 2) ⟨15, 1, false, .word, 0x20000000, ⟨0, Tag.raw⟩⟩
        ready asleep pHsp = true ∧ rb asleep (aCtl pHsp) 0 = true ∧ (x.parked.any fun q => q.master == 15 && q.id == 1) = true)
      ∧ (let x := busAccess State.reset.nv (hspBegin ports 2) ⟨15, 1, false, .word, 0x3FFFF000, ⟨0, Tag.raw⟩⟩
        x.parked = [] ∧ x.ans.code ≠ 0)
      ∧ ({ ports.hsp with kind := 2 } : Hsp).kind = 2
      ∧ (ready ports pSvc = true ∧ rb ports (aCtl pSvc) 0 = true ∧ lifeCycle State.reset.nv ≠ 4 ∧ svcState ports = 0
        ∧ rb (rgSet ports (aCtl pSvc) 0) (aCtl pSvc) 0 = false ∧ ioClocked ports = true ∧ ioClocked (rgSet ports (ra pClk 0x040) 1) = false)
      ∧ (svcState (svcAt 2) = 2 ∧ svcState (svcAt 3) = 3 ∧ svcState (svcAt 4) = 4 ∧ svcState (svcAt 5) = 5 ∧ (svcAt 5).svc.prev < 8
        ∧ ready (svcAt 5) pSvc = true ∧ ioClocked (svcAt 5) = true) := by decide +kernel
theorem test_hsp_write_reaches_sram : (sramWord (nx (exec (.hspWrite 0x20000000 [7]) (st ports))).vol 0x20000000).data = 7 := by decide +kernel
theorem test_address_is_kept :
    rg (nx (exec (.usbStandardRequest [0, 5, 77, 0, 0, 0, 0, 0]) (st (svcAt 2)))).vol (ra pSvc 0x040) = 0x4D03 := by decide +kernel

def diagOf (op : Byte) (pay : List Byte) : List Byte :=
  let h := magicDiag ++ [op, 0, 0, 0] ++ leBytes 4 pay.length
  h ++ (wordBytes (crc32c (h ++ pay)) ++ pay)
theorem witness_ScanAndDebugAct :
    ready up pDbg = true
      ∧ (svcUp (svcAt 4) = true ∧ svcUp up = false ∧ lcCode State.reset.nv ≠ 5 ∧ (svcAt 4).svc.diag = [])
      ∧ (messageOk magicDiag (diagOf 1 []) = true ∧ (diagOf 1 []).drop 16 = [] ∧ messageOk magicDiag [] = false)
      ∧ (let msg := diagOf 2 [0, 0, 0, 0x20, 4, 0, 0, 0]
        let r := busOne State.reset.nv (svcAt 4) ⟨15, 2, false, .word, 0x20000000, ⟨0, Tag.raw⟩⟩
        messageOk magicDiag msg = true ∧ byteAt msg 4 = 2 ∧ (msg.drop 16).length = 8 ∧ (leWord (msg.drop 16) 4).toNat = 4
          ∧ (leWord (msg.drop 16) 0).toNat = 0x20000000 ∧ r.2 = false ∧ r.1.ans.code = 0
          ∧ (leWord ((diagOf 2 [0, 0, 0, 0x20, 0, 0, 0, 0]).drop 16) 4).toNat < 4
          ∧ 4096 < (leWord ((diagOf 2 [0, 0, 0, 0x20, 4, 0x10, 0, 0]).drop 16) 4).toNat)
      ∧ (let msg := diagOf 3 [0, 0, 0, 0x20, 4, 9, 0, 0]
        let r := busOne State.reset.nv (svcAt 4) ⟨15, 2, true, .word, 0x20000000, ⟨0x904, Tag.raw⟩⟩
        messageOk magicDiag msg = true ∧ byteAt msg 4 = 3 ∧ (msg.drop 16).length = 8 ∧ r.2 = false ∧ r.1.ans.code = 0
          ∧ lcCode State.reset.nv ≠ 3 ∧ lcCode (fuseField provisioned 1) = 3)
      ∧ dbgAllows State.reset.nv up 0x20000000 = true ∧ dbgAllows (fuseField provisioned 1) up 0x20000000 = false
      ∧ inputBall 386 = true ∧ inputBall 325 = false ∧ ownPad driven 325 = some (some false) := by decide +kernel
theorem test_scan_captures_a_driven_pin :
    let cells := (nx (exec (.samplePreload false (List.replicate 1236 true)) (st driven))).vol.jtag.cells
    cells.getD 976 true = false ∧ cells.getD 977 false = true ∧ cells.getD 1159 true = false := by decide +kernel
theorem test_idcode_word : (nx (exec .idcode (st up))).vol.jtag.dr = 0x19640E77 := by decide +kernel
theorem test_extest_needs_reset : (nx (exec (.extest false) (st up))).vol.jtag.drive = false := by decide +kernel

end Sys2Proof.Tests
end

section
/-! SUPPORT. Accesses to a register page that is performed at once: what its decoding, its checks and its unassigned offsets give
(R1-R4, R10). -/

namespace Sys2Proof.Machine

/-! ### Pages and addresses -/

theorem pageInfo_lt {p : Nat} (h : (pageInfo p).isSome = true) : p < 0xB8 := by
  by_contra hp
  have : pageInfo p = none := by
    unfold pageInfo
    repeat rw [if_neg (by omega)]
  simp [this] at h

theorem pageDom_lt (p : Nat) : pageDom p < 97 := by
  by_cases h : (pageInfo p).isSome = true
  · have key : ∀ q, q < 0xB8 → pageDom q < 97 := by decide +kernel
    exact key p (pageInfo_lt h)
  · simp [pageDom, Option.not_isSome_iff_eq_none.mp h]

/-- The address of a register, as a word of the bus. -/
theorem toNat_ra {p off : Nat} (hp : p < 0xB8) (hoff : off < 0x1000) : (BitVec.ofNat 32 (ra p off)).toNat = ra p off := by
  rw [BitVec.toNat_ofNat]; exact Nat.mod_eq_of_lt (by simp only [ra]; omega)

/-- The block of a page, from the page's entry. -/
theorem blk_of_page {p : Nat} {inf : PageInfo} {b : Blk} (hp : pageInfo p = some inf) (h : (pageInfo p).map PageInfo.blk = some b) :
    inf.blk = b := by
  rw [hp] at h
  exact Option.some.inj h

/-- What an open page gives: the bus is open, the page exists, its domain is up, its block READY and its gate open. -/
theorem pageOpen_iff {v : Vol} {m p : Nat} : pageOpen v m p = true ↔
    busOpen v m = true ∧ (pageInfo p).isSome = true ∧ ready v (blockPage p) = true ∧ domUp v (pageDom p) = true
      ∧ rg v (aGate (blockPage p)) = 0 := by
  simp [pageOpen, and_assoc]

theorem pageOpen_info {v : Vol} {m p : Nat} (h : pageOpen v m p = true) : ∃ inf, pageInfo p = some inf :=
  Option.isSome_iff_exists.mp (pageOpen_iff.mp h).2.1

theorem pageOpen_lt {v : Vol} {m p : Nat} (h : pageOpen v m p = true) : p < 0xB8 := pageInfo_lt (pageOpen_iff.mp h).2.1

/-! ### Commands that write a register of an open page -/

theorem exec_registerWrite_open (s : State) (m : Fin 16) (p off : Nat) (inf : PageInfo) (w : TWord) (hp : pageInfo p = some inf)
    (ho : pageOpen s.vol m p = true) (hoff : off < 0x400) (h4 : off % 4 = 0) :
    exec (.registerWrite m .word (BitVec.ofNat 32 (ra p off)) w) s
      = .next (written s m (ra p off) .word w 0 (pageWrite s.nv s.vol inf m p off .direct w)) := by
  simp only [exec, execRegisterWrite, onVol, toNat_ra (pageOpen_lt ho) (by omega : off < 0x1000)]
  rw [busWrite_open s.nv s.vol m p off w inf hp ho hoff h4]; rfl

theorem exec_aliasWrite_set (s : State) (m : Fin 16) (p off : Nat) (inf : PageInfo) (w : TWord) (hp : pageInfo p = some inf)
    (ho : pageOpen s.vol m p = true) (hoff : off < 0x400) (h4 : off % 4 = 0) :
    exec (.aliasWrite m .word (BitVec.ofNat 32 (ra p off + 0x400)) w) s
      = .next (written s m (ra p off + 0x400) .word w 0 (pageWrite s.nv s.vol inf m p off .setBits w)) := by
  have ha : (BitVec.ofNat 32 (ra p off + 0x400)).toNat = ra p off + 0x400 := by
    rw [ra, Nat.add_assoc, ← ra, toNat_ra (pageOpen_lt ho) (by omega)]
  simp only [exec, execAliasWrite, onVol, ha]
  rw [busWrite_open_set s.nv s.vol m p off w inf hp ho hoff h4]; rfl

theorem exec_aliasWrite_clear (s : State) (m : Fin 16) (p off : Nat) (inf : PageInfo) (w : TWord) (hp : pageInfo p = some inf)
    (ho : pageOpen s.vol m p = true) (hoff : off < 0x400) (h4 : off % 4 = 0) :
    exec (.aliasWrite m .word (BitVec.ofNat 32 (ra p off + 0x800)) w) s
      = .next (written s m (ra p off + 0x800) .word w 0 (pageWrite s.nv s.vol inf m p off .clearBits w)) := by
  have ha : (BitVec.ofNat 32 (ra p off + 0x800)).toNat = ra p off + 0x800 := by
    rw [ra, Nat.add_assoc, ← ra, toNat_ra (pageOpen_lt ho) (by omega)]
  simp only [exec, execAliasWrite, onVol, ha]
  rw [busWrite_open_clear s.nv s.vol m p off w inf hp ho hoff h4]; rfl

/-- A write command that names a register of an open page by its address. -/
theorem wr_open (nv : Nv) (v : Vol) (m p off : Nat) (w : Word) (inf : PageInfo) (hp : pageInfo p = some inf)
    (ho : pageOpen v m p = true) (hoff : off < 0x400) (h4 : off % 4 = 0) :
    wr nv v m (ra p off) w =
      finish nv (answer (pageWrite nv v inf m p off .direct (TWord.ofWord w)) 0 TWord.zero)
        ⟨m, masterId v m, true, .word, ra p off, TWord.ofWord w⟩ :=
  busWrite_open nv v m p off _ inf hp ho hoff h4

/-! ### What a page does with a write -/

/-- A write that no other rule of the page takes reaches the block: not a staging register, EV_FORCE, CTL.SOFTRST, an unassigned
offset or the STAT of a block's later page. -/
theorem pageWrite_block (nv : Nv) (v : Vol) (inf : PageInfo) (m p off : Nat) (via : Via) (w : TWord) (hst : stageChan (ra p off) = none)
    (hspec : (specAt p off).isSome = true) (h1 : off ≠ 0x01C) (h2 : off = 0x008 → bit w.data 31 = false)
    (h3 : off = 0x00C → p = blockPage p) : pageWrite nv v inf m p off via w = blockWrite nv v inf m p off via w.data := by
  have hs : (specAt p off).isNone = false := by
    obtain ⟨r, hr⟩ := Option.isSome_iff_exists.mp hspec
    simp [hr]
  have hrst : ¬ (off = 0x008 ∧ bit w.data 31 = true ∧ via ≠ .clearBits) := by
    rintro ⟨ho, hb, -⟩; rw [h2 ho] at hb; exact Bool.false_ne_true hb
  have hstat : ¬ (off = 0x00C ∧ p ≠ blockPage p) := fun h => h.2 (h3 h.1)
  unfold pageWrite
  simp only [hst, Option.isSome_none, Bool.false_eq_true, if_false, h1, hrst, hs, hstat]

/-- Every page has a CTL register (R6). -/
theorem specAt_ctl {p : Nat} (h : (pageInfo p).isSome = true) : (specAt p 0x008).isSome = true := by
  have key : ∀ q, q < 0xB8 → (pageInfo q).isSome = true → (specAt q 0x008).isSome = true := by decide +kernel
  exact key p (pageInfo_lt h) h

/-- An unassigned offset lies in no register array of its block. -/
theorem findSpec_of_specAt_none {p off : Nat} {inf : PageInfo} (hp : pageInfo p = some inf) (h : specAt p off = none) :
    findSpec (blkSpecs inf.blk) off = none := by
  unfold specAt at h
  simp only [hp] at h
  split_ifs at h
  exact h

/-- A write of an unassigned offset changes nothing (R3). -/
theorem pageWrite_unassigned (nv : Nv) (v : Vol) (inf : PageInfo) (m p off : Nat) (via : Via) (w : TWord) (hp : pageInfo p = some inf)
    (hst : stageChan (ra p off) = none) (hspec : specAt p off = none) (h1 : off ≠ 0x01C) :
    pageWrite nv v inf m p off via w = v := by
  have h8 : off ≠ 0x008 := by
    rintro rfl
    have := specAt_ctl (p := p) (by simp [hp])
    simp [hspec] at this
  simp [pageWrite, hst, hspec, h1, h8]

/-- A read of an unassigned offset has no effect beside its answer: the registers whose read has one are assigned. -/
theorem pageOnRead_unassigned (v : Vol) {p off : Nat} {inf : PageInfo} (hp : pageInfo p = some inf) (hspec : specAt p off = none) :
    pageOnRead v inf off = v := by
  have hf := findSpec_of_specAt_none hp hspec
  have ne {o : Nat} (ho : (findSpec (blkSpecs inf.blk) o).isSome = true) : off ≠ o := by
    rintro rfl; simp [hf] at ho
  unfold pageOnRead
  cases hb : inf.blk <;> simp only [hb] at ne <;> try rfl
  case tick => simp [tickOnRead, ne (o := 0x068) (by decide), ne (o := 0x090) (by decide)]
  case mea => simp [meaOnRead, ne (o := 0x060) (by decide)]
  case yok => simp [yokOnRead, ne (o := 0x070) (by decide)]
  case ldg => simp [ldgOnRead, ne (o := 0x06C) (by decide), ne (o := 0x0A4) (by decide), ne (o := 0x0AC) (by decide)]
  case eth => simp [ethOnRead, ne (o := 0x058) (by decide), ne (o := 0x074) (by decide)]
  case ptp => simp [ptpOnRead, ne (o := 0x040) (by decide)]
  case can => simp [canOnRead, ne (o := 0x050) (by decide)]

/-- A read of an unassigned offset, EV_RAW aside, gives 0 (R3). -/
theorem pageRead_unassigned (nv : Nv) (v : Vol) (inf : PageInfo) {p off : Nat} (hst : stageChan (ra p off) = none)
    (hspec : specAt p off = none) (h1 : off ≠ 0x010) : pageRead nv v inf p off = TWord.zero := by
  simp [pageRead, hst, hspec, h1]

end Sys2Proof.Machine
end

section
/-! PROOFS. The state after reset, and what a register page does with its accesses (O5, O7 to O11). -/

namespace Sys2Proof.Machine

/-! ### The reset state -/

/-- The service core alone has been started, and no core holds a register value. -/
theorem coreOf_reset (k : Nat) : coreOf State.reset.vol k = if k = 8 then Core.booted else Core.reset := by
  by_cases hk : k < 9
  · interval_cases k <;> rfl
  · rw [if_neg (by omega)]
    exact List.getD_eq_default _ _ (by simpa [State.reset] using hk)

/-! ### Staging registers -/

/-- The pages without outputs hold no staging register (R362). -/
theorem stageChan_ra_none {p off : Nat} (hoff : off < 0x1000) (h : p < 0x41 ∨ p = 0x42 ∨ 0x4F ≤ p) : stageChan (ra p off) = none := by
  have e1 : (ra p off - 0x40000000) / 0x1000 = p := by simp only [ra]; omega
  unfold stageChan
  simp only [e1, pStk, pMot, pVlv, pGio, Nat.reduceAdd, show p ≠ 0x41 by omega, show ¬ (0x44 ≤ p ∧ p ≤ 0x4B) by omega,
    show ¬ (0x4C ≤ p ∧ p ≤ 0x4D) by omega, show p ≠ 0x4E by omega, if_false, ite_self]

/-! ### Register writes -/

/-- What a register without reserved codes and write-once bits takes of a write (R4, R11). -/
def takenValue (sp : RegSpec) (via : Via) (old w : Word) : Word :=
  match via with
  | .direct => ((old &&& ~~~BitVec.ofNat 32 sp.rw) ||| (w &&& BitVec.ofNat 32 sp.rw)) &&& ~~~(w &&& BitVec.ofNat 32 sp.w1c)
  | .setBits => old ||| (w &&& BitVec.ofNat 32 sp.rw)
  | .clearBits => (old &&& ~~~(w &&& BitVec.ofNat 32 sp.rw)) &&& ~~~(w &&& BitVec.ofNat 32 sp.w1c)

theorem writeValue_plain (sp : RegSpec) (via : Via) (old used w : Word) (hc : sp.chk = []) (ho : sp.rwo = 0) :
    writeValue sp via old used w = (takenValue sp via old w, 0, 0) := by
  cases via <;> simp [writeValue, takenValue, rejectFields, hc, ho]

/-- A write of such a register changes its value and nothing else. -/
theorem regWrite_plain (v : Vol) (p off : Nat) (via : Via) (w : Word) (sp : RegSpec) (hs : specAt p off = some sp) (hc : sp.chk = [])
    (ho : sp.rwo = 0) : regWrite v p off via w = rgSet v (ra p off) (takenValue sp via (rg v (ra p off)) w) := by
  simp [regWrite, hs, writeValue_plain _ _ _ _ _ hc ho]

/-! ### The checks of a page (R10) -/

/-- An access to a register page of an open bus is decided by the page's own checks. -/
theorem exec_registerWrite_page (s : State) (m : Fin 16) (sz : Size) (a : Word) (w : TWord) (p : Nat) (inf : PageInfo)
    (hb : busOpen s.vol m = true) (ha : 0x40000000 ≤ a.toNat) (hp : p = (a.toNat - 0x40000000) / 0x1000) (hinf : pageInfo p = some inf)
    (code : Nat) (h : pageAccess s.nv s.vol inf p ⟨m, masterId s.vol m, true, sz, a.toNat, w⟩ = (answer s.vol code TWord.zero, false)) :
    exec (.registerWrite m sz a w) s = .next (written s m a.toNat sz w code s.vol) := by
  have hr : route s.nv s.vol ⟨m, masterId s.vol m, true, sz, a.toNat, w⟩ = (answer s.vol code TWord.zero, false) := by
    simp only [route, ha, if_true, ← hp, hinf, h]
  simp only [exec, execRegisterWrite, onVol, busWrite]
  rw [busAccess_open s.nv s.vol _ hb rfl, hr]
  rfl

end Sys2Proof.Machine

namespace Sys2Proof

open Sys2Proof.Machine

/-- Settles O5: nothing is stored yet. -/
theorem memoryFormAtReset : Obligations.MemoryFormAtReset := by
  unfold Obligations.MemoryFormAtReset
  rfl

/-- Settles O7: the fields as the reset sequence leaves them, the cores by `coreOf_reset`. -/
theorem resetState : Obligations.ResetState := by
  refine ⟨rfl, rfl, by decide +kernel, rfl, rfl, by decide +kernel, ?_, ?_, ?_, ?_⟩
  · rw [coreOf_reset]; rfl
  · intro k hk
    rw [coreOf_reset, if_neg (by omega)]; rfl
  · rw [coreOf_reset]; decide
  · intro k n
    rw [coreOf_reset]
    split <;> rfl

/-- Settles O8: on these blocks nothing but the register takes the write. -/
theorem registerWritesReachTheRegister : Obligations.RegisterWritesReachTheRegister := by
  intro s m p off inf w ho hp hblk hspec hoff h4 h1 h2
  have hpage : p = 0x20 ∨ 0x61 ≤ p ∧ p < 0x65 ∨ p = 0x84 := by
    have key : ∀ q, q < 0xB8 → ∀ b ∈ [Blk.mtx, .nand, .hsp], (pageInfo q).map PageInfo.blk = some b →
        q = 0x20 ∨ 0x61 ≤ q ∧ q < 0x65 ∨ q = 0x84 := by decide +kernel
    exact key p (pageOpen_lt ho) inf.blk (by simpa using hblk) (by rw [hp]; rfl)
  have hst : stageChan (ra p off) = none := stageChan_ra_none (by omega) (by omega)
  have hfirst : p = blockPage p := by
    unfold blockPage
    repeat rw [if_neg (by omega)]
  have hwrite (via : Via) : pageWrite s.nv s.vol inf m p off via w = regWrite s.vol p off via w.data := by
    rw [pageWrite_block _ _ _ _ _ _ _ _ hst hspec h1 h2 fun _ => hfirst]
    rcases hblk with h | h | h <;> simp [blockWrite, h]
  refine ⟨?_, ?_, ?_⟩
  · rw [exec_registerWrite_open s m p off inf w hp ho hoff h4, hwrite]
  · rw [exec_aliasWrite_set s m p off inf w hp ho hoff h4, hwrite]
  · rw [exec_aliasWrite_clear s m p off inf w hp ho hoff h4, hwrite]

/-- Settles O9: the value taken, bit by bit. -/
theorem registerTakesItsAccessMasks : Obligations.RegisterTakesItsAccessMasks := by
  intro v p off sp w hs hc ho
  dsimp only
  have hw (via : Via) := regWrite_plain v p off via w sp hs hc ho
  refine ⟨?_, ?_, ?_, ?_⟩
  · intro i hi
    rw [hw, rb, rg_rgSet_same]
    simp only [takenValue, bit, BitVec.getLsbD_and, BitVec.getLsbD_or, BitVec.getLsbD_not, hi, decide_true, Bool.true_and]
    cases (BitVec.ofNat 32 sp.w1c).getLsbD i <;> cases w.getLsbD i <;> cases (BitVec.ofNat 32 sp.rw).getLsbD i <;> simp
  · intro i hi
    rw [hw, rb, rg_rgSet_same]
    simp only [takenValue, bit, BitVec.getLsbD_and, BitVec.getLsbD_or]
    rw [Bool.and_comm (w.getLsbD i)]
  · intro i hi
    rw [hw, rb, rg_rgSet_same]
    simp only [takenValue, bit, BitVec.getLsbD_and, BitVec.getLsbD_not, hi, decide_true, Bool.true_and]
    cases (BitVec.ofNat 32 sp.w1c).getLsbD i <;> cases w.getLsbD i <;> cases (BitVec.ofNat 32 sp.rw).getLsbD i <;> simp
  · intro via a ha
    rw [regWrite_plain v p off via w sp hs hc ho, rg_rgSet_ne _ _ ha]

/-- Settles O10: the reserved quarter by the page's decoding, the unassigned offsets by their missing register. -/
theorem unassignedOffsetsReadZero : Obligations.UnassignedOffsetsReadZero := by
  intro s m p off w ho hoff h4 hcase
  obtain ⟨inf, hp⟩ := pageOpen_info ho
  rcases hcase with hres | ⟨hlow, h10, h1C, hspec, hst⟩
  · obtain ⟨hb, -, hrdy, hup, hgate⟩ := pageOpen_iff.mp ho
    have hacc (wr : Bool) (x : TWord) : pageAccess s.nv s.vol inf p ⟨m, masterId s.vol m, wr, .word, ra p off, x⟩
        = (answer s.vol 0 TWord.zero, false) := by
      have hd : domUp s.vol inf.dom = true := by simpa [pageDom, hp] using hup
      have e3 : ra p off % 0x1000 = off := by simp only [ra]; omega
      have e4 : ra p off % 4 = 0 := by simp only [ra]; omega
      have hvia : offVia off = none := by unfold offVia; repeat rw [if_neg (by omega)]
      simp [pageAccess, hd, e3, e4, hvia, hrdy, gateOpened, hgate]
    have hpage : (ra p off - 0x40000000) / 0x1000 = p := by simp only [ra]; omega
    have hge : 0x40000000 ≤ ra p off := by simp only [ra]; omega
    have hnat := toNat_ra (pageOpen_lt ho) hoff
    constructor
    · rw [exec_registerWrite_page s m .word _ w p inf hb (by rw [hnat]; exact hge) (by rw [hnat, hpage]) hp 0
        (by rw [hnat]; exact hacc true w), hnat]
    · have hr : route s.nv s.vol ⟨m, masterId s.vol m, false, .word, ra p off, TWord.zero⟩ = (answer s.vol 0 TWord.zero, false) := by
        simp only [route, hge, if_true, hpage, hp, hacc]
      simp only [withVol, busRead, performedRead]
      rw [busAccess_open s.nv s.vol _ hb rfl, hr]
  · constructor
    · rw [exec_registerWrite_open s m p off inf w hp ho hlow h4, pageWrite_unassigned s.nv s.vol inf m p off .direct w hp hst hspec h1C]
    · simp only [withVol, busRead_open s.nv s.vol m p off inf hp ho hlow h4, pageRead_unassigned s.nv s.vol inf hst hspec h10,
        pageOnRead_unassigned s.vol hp hspec, performedRead]

/-- Settles O11: each check answers before the ones behind it are made. -/
theorem pageChecksInOrder : Obligations.PageChecksInOrder := by
  intro s m sz a w p hb ha hp hinf
  obtain ⟨inf, hinf⟩ := Option.isSome_iff_exists.mp hinf
  have hdom : pageDom p = inf.dom := by simp [pageDom, hinf]
  refine ⟨fun hdown hwake => ?_, fun hup hbad => ?_, fun hup hsz hal hrst hgate => ?_⟩
  all_goals refine exec_registerWrite_page s m sz a w p inf hb ha hp hinf _ ?_
  · rw [hdom] at hdown hwake
    simp [pageAccess, hdown, toDown, hwake]
  · rw [hdom] at hup
    simp [pageAccess, hup, hbad]
  · rw [hdom] at hup
    simp only [pageAccess, hup, hsz, hal, gateOpened, hgate]
    cases offVia (a.toNat % 0x1000) <;> simp [hrst]

end Sys2Proof
end

section
/-! PROOFS. The two-operand operations of the ALU units (O16): a move to an ALU port meets no hold and no check, and the rest is the
tag algebra of R142 to R144. -/

namespace Sys2Proof.Machine

/-! ### A move to an ALU port -/

/-- The trigger ports of the ALU units (R96). -/
def isAluPort (d : Nat) : Prop := 33 ≤ d ∧ d ≤ 50 ∨ 52 ≤ d ∧ d ≤ 67

theorem trigUnit_alu {d : Nat} (h : isAluPort d) : trigUnit d = some .alu0 ∨ trigUnit d = some .alu1 := by
  rcases h with h | h
  · left; simp [trigUnit, h]
  · right
    have h1 : ¬ (33 ≤ d ∧ d ≤ 50) := by omega
    simp [trigUnit, h1, h]

/-- Nothing holds a move to an ALU port (R127). -/
theorem trigHolds_alu {d : Nat} (h : isAluPort d) (k : Nat) (a : TWord) (c : Core) : trigHolds k d a c = false := by
  rcases trigUnit_alu h with hu | hu <;> simp [trigHolds, hu]

theorem trigReserved_alu {d : Nat} (h : isAluPort d) (a : TWord) (c : Core) : trigReserved d a c = false := by
  rcases trigUnit_alu h with hu | hu <;> simp [trigReserved, hu]

theorem not_transfer_alu {d : Nat} (h : isAluPort d) : (isTransfer d || d == 91) = false := by
  unfold isAluPort at h
  simp only [isTransfer, Bool.or_eq_false_iff, Bool.and_eq_false_iff, decide_eq_false_iff_not, beq_eq_false_iff_ne]
  omega

/-- No check of R190 finds a fault in a move to an ALU port: it is no privileged, poisoned-control, stack, loop, memory or frame
operation. -/
theorem execFault_alu {d : Nat} (h : isAluPort d) (v : Vol) (k pc : Nat) (a : TWord) (c : Core) :
    execFault v k pc none [(⟨0, d, 0⟩, a)] c = none := by
  unfold isAluPort at h
  have hpriv : trigPriv d c = false := by
    simp [trigPriv, show d ≠ 86 by omega, show d ≠ 103 by omega, show d ≠ 104 by omega]
  have hctl : isControl d = false := by
    simp only [isControl, Bool.or_eq_false_iff, Bool.and_eq_false_iff, decide_eq_false_iff_not, beq_eq_false_iff_ne]
    omega
  have hpois : movePoison d a c = false := by simp [movePoison, hctl, show ¬ 80 ≤ d by omega]
  have hstack : trigStack v k d c = none := by simp [trigStack, show d ≠ 84 by omega, show d ≠ 85 by omega, show d ≠ 91 by omega]
  have hlsu : lsuFault v k 0 d a c pc = none := by
    rcases trigUnit_alu h with hu | hu <;> simp [lsuFault, hu]
  have himg : imageFault v k 0 d a c pc = none := by simp [imageFault, show d ≠ 103 by omega]
  simp [execFault, hpriv, hpois, hstack, hlsu, himg]

theorem modeDue_records (c : Core) : (modeDue c).busf = c.busf ∧ (modeDue c).trapNo = c.trapNo ∧ (modeDue c).pc = c.pc := by
  unfold modeDue; split <;> exact ⟨rfl, rfl, rfl⟩

theorem canMove_iff {v : Vol} {k : Nat} : canMove v k = true ↔
    issuing v k = true ∧ (coreOf v k).busf = none ∧ (coreOf v k).trapNo = none := by
  simp [canMove, and_assoc]

/-- What an ALU trigger makes of its core. -/
theorem trigAlu_eq (v : Vol) (k d : Nat) (a : TWord) : trigAlu v k 0 d a = onCore v k fun c =>
    aluTaken c (if 51 < d then 33 else 32) d (curBundle v k) (aluOp (aluOfDst d) a (opnd c (if 51 < d then 51 else 32))) := by
  unfold trigAlu
  congr 1
  funext c
  by_cases hd : 51 < d <;> simp only [hd, decide_true, decide_false, if_true, if_false, Bool.false_eq_true, aluTaken] <;> split <;>
    simp [orFlags, setSys, setSysT, setRes]

/-- A move to an ALU port of a core that may take a trigger delivers its result (R96, R128). -/
theorem triggerMove_alu (nv : Nv) (v : Vol) (k d : Nat) (w : TWord) (hd : isAluPort d) (hok : dstOk k d = true)
    (hm : canMove v k = true) : triggerMove nv v k d w = onMove v k fun c =>
      aluTaken c (if 51 < d then 33 else 32) d (curBundle v k) (aluOp (aluOfDst d) (untag k w) (opnd c (if 51 < d then 51 else 32))) := by
  obtain ⟨hi, hbus, htrap⟩ := canMove_iff.mp hm
  obtain ⟨hb', ht', -⟩ := modeDue_records (coreOf v k)
  rw [triggerMove_plain nv v k d w _ rfl hi (trigHolds_alu hd ..) hok (by simp [not_transfer_alu hd]) (trigReserved_alu hd ..)
    (execFault_alu hd ..)]
  have htrig (u : Vol) : trig u k 0 d (untag k w) = trigAlu u k 0 d (untag k w) := by
    rcases trigUnit_alu hd with hu | hu <;> simp [trig, hu]
  rw [htrig, trigAlu_eq]
  have hcomp : setCore v k { modeDue (coreOf v k) with last := none } = onCore v k fun c => { modeDue c with last := none } := rfl
  rw [hcomp, onCore_onCore]
  rw [afterIssue_onCore]
  · rfl
  · simp [aluTaken, orFlags, setSys, setSysT, setRes, hb', hbus]
  · simp [aluTaken, orFlags, setSys, setSysT, setRes, ht', htrap]

/-- A move to `alu0.tset` or `alu0.tchk` of the service core is a reserved operation (R144). -/
theorem triggerMove_noTag (nv : Nv) (v : Vol) (d : Nat) (w : TWord) (hd : d = 49 ∨ d = 50) (hm : canMove v 8 = true) :
    triggerMove nv v 8 d w = takePrecise nv v 8 (cfault 3 0 d (coreOf v 8).pc) := by
  obtain ⟨hi, -, -⟩ := canMove_iff.mp hm
  have hok : dstOk 8 d = false := by rcases hd with rfl | rfl <;> rfl
  have hp : isAluPort d := by unfold isAluPort; omega
  simp [triggerMove, triggerWith, hi, trigHolds_alu hp, hok, (modeDue_records (coreOf v 8)).2.2]

/-! ### The tag algebra -/

/-- The low four bits of a word name a tag by their number. -/
theorem setWidth4_eq (b : Word) : b.setWidth 4 = BitVec.ofNat 4 (b.toNat % 16) := by
  apply BitVec.eq_of_toNat_eq; simp

theorem ofNat4_inj {x y : Nat} (hx : x < 16) (hy : y < 16) : BitVec.ofNat 4 x = BitVec.ofNat 4 y ↔ x = y := by
  constructor
  · intro h
    have := congrArg BitVec.toNat h
    simpa [Nat.mod_eq_of_lt hx, Nat.mod_eq_of_lt hy] using this
  · rintro rfl; rfl

/-- An operation whose tag rule gives a tag delivers the data and the flags. -/
theorem aluOp_of_tag {op : Alu} {a b : TWord} {t : Tag} (h : aluTag op a b = .tag t) (ht : t ≠ Tag.poison) :
    aluOp op a b = ⟨⟨(aluData op a.data b.data).1, t⟩, TWord.zero, (aluData op a.data b.data).2, false⟩ := by
  unfold aluOp; rw [h]; exact if_neg ht

theorem aluOp_of_poison {op : Alu} {a b : TWord} (h : aluTag op a b = .tag Tag.poison) : aluOp op a b = OpRes.poison false := by
  unfold aluOp; rw [h]; exact if_pos rfl

theorem aluOp_of_fault {op : Alu} {a b : TWord} (h : aluTag op a b = .fault) : aluOp op a b = OpRes.poison true := by
  unfold aluOp; rw [h]

theorem isPoison_iff {t : TWord} : t.isPoison = true ↔ t.tag = Tag.poison := beq_iff_eq
theorem not_isPoison_iff {t : TWord} : t.isPoison = false ↔ t.tag ≠ Tag.poison := beq_eq_false_iff_ne

/-- POISON in an operand comes before every other rule (R140). -/
theorem aluTag_poison (op : Alu) {a b : TWord} (h : a.isPoison = true ∨ b.isPoison = true) : aluTag op a b = .tag Tag.poison := by
  have htag : a.tag = Tag.poison ∨ b.tag = Tag.poison := h.imp isPoison_iff.mp isPoison_iff.mp
  have hor : (a.isPoison || b.isPoison) = true := by rcases h with h | h <;> rw [h] <;> simp
  cases op
  case tset | tchk => exact if_pos hor
  all_goals exact if_pos htag

/-- The rules of R142 behind POISON, in their order: tag 14, agreement, a fault. -/
theorem tagTwo_reserved (compare : Bool) {a b : Tag} (ha : a ≠ Tag.poison) (hb : b ≠ Tag.poison) (h : a = 14 ∨ b = 14) :
    tagTwo compare a b = .fault := by
  unfold tagTwo
  rw [if_neg (by simp only [ha, hb, or_self, not_false_eq_true]), if_pos h]

theorem tagTwo_agree (compare : Bool) {a b : Tag} (ha : a ≠ Tag.poison) (hb : b ≠ Tag.poison) (ha' : a ≠ 14) (hb' : b ≠ 14)
    (h : a = b ∨ a = Tag.raw ∨ b = Tag.raw) :
    tagTwo compare a b = .tag (if compare then Tag.raw else if a = Tag.raw then b else a) := by
  unfold tagTwo
  rw [if_neg (by simp only [ha, hb, or_self, not_false_eq_true]), if_neg (fun hh => hh.elim ha' hb')]
  by_cases hab : a = b
  · subst hab; simp only [if_true, ite_self]
  · by_cases har : a = Tag.raw
    · simp only [har, if_true]
      rw [if_neg (har ▸ hab)]
    · have hbr : b = Tag.raw := (h.resolve_left hab).resolve_left har
      rw [if_neg hab, if_neg har, if_pos hbr, if_neg har]

theorem tagTwo_differ (compare : Bool) {a b : Tag} (ha : a ≠ Tag.poison) (hb : b ≠ Tag.poison) (hab : a ≠ b) (har : a ≠ Tag.raw)
    (hbr : b ≠ Tag.raw) : tagTwo compare a b = .fault := by
  unfold tagTwo
  rw [if_neg (by simp only [ha, hb, or_self, not_false_eq_true]), if_neg hab, if_neg har, if_neg hbr, ite_self]

/-- The rule of R143 behind POISON. -/
theorem tagShift_eq {a b : Tag} (ha : a ≠ Tag.poison) (hb : b ≠ Tag.poison) :
    tagShift a b = if a ≠ 14 ∧ (b = Tag.raw ∨ b = Tag.count) then .tag a else .fault := by
  unfold tagShift
  rw [if_neg (by simp only [ha, hb, or_self, not_false_eq_true])]
  by_cases h : a = Tag.reserved
  · rw [if_pos h, if_neg (fun hh => hh.1 h)]
  · rw [if_neg h]; simp only [ne_eq, h, not_false_eq_true, true_and]

/-- Which rule an operation follows. -/
theorem aluTag_two {op : Alu} (hs : ¬ (op = .shl ∨ op = .shr ∨ op = .sar ∨ op = .rol)) (h1 : op ≠ .tset) (h2 : op ≠ .tchk) (a b : TWord) :
    aluTag op a b = tagTwo (decide (op = .ceq ∨ op = .clt ∨ op = .cltu)) a.tag b.tag := by
  cases op
  case shl | shr | sar | rol => exact absurd (by decide) hs
  case tset => exact absurd rfl h1
  case tchk => exact absurd rfl h2
  all_goals rfl

theorem aluTag_shift {op : Alu} (hs : op = .shl ∨ op = .shr ∨ op = .sar ∨ op = .rol) (a b : TWord) :
    aluTag op a b = tagShift a.tag b.tag := by
  rcases hs with rfl | rfl | rfl | rfl <;> rfl

theorem aluTag_tset {a b : TWord} (ha : a.isPoison = false) (hb : b.isPoison = false) :
    aluTag .tset a b = if b.data.toNat % 16 = 14 then .fault else .tag (BitVec.ofNat 4 (b.data.toNat % 16)) := by
  have h14 : (BitVec.ofNat 4 (b.data.toNat % 16) = Tag.reserved) = (b.data.toNat % 16 = 14) :=
    propext (ofNat4_inj (Nat.mod_lt _ (by decide)) (by decide))
  simp only [aluTag, ha, hb, Bool.or_self, Bool.false_eq_true, if_false, setWidth4_eq, h14]

theorem aluTag_tchk {a b : TWord} (ha : a.isPoison = false) (hb : b.isPoison = false) :
    aluTag .tchk a b = if a.tag ≠ 14 ∧ b.data.toNat % 16 ≠ 14 ∧ (a.tag = BitVec.ofNat 4 (b.data.toNat % 16) ∨ a.tag = Tag.raw)
      then .tag a.tag else .fault := by
  have h14 : (BitVec.ofNat 4 (b.data.toNat % 16) = Tag.reserved) = (b.data.toNat % 16 = 14) :=
    propext (ofNat4_inj (Nat.mod_lt _ (by decide)) (by decide))
  simp only [aluTag, ha, hb, Bool.or_self, Bool.false_eq_true, if_false, setWidth4_eq, h14]
  by_cases h1 : a.tag = Tag.reserved
  · rw [if_pos (.inl h1), if_neg (fun hh => hh.1 h1)]
  · by_cases h2 : b.data.toNat % 16 = 14
    · rw [if_pos (.inr h2), if_neg (fun hh => hh.2.1 h2)]
    · rw [if_neg (fun hh => hh.elim h1 h2)]
      simp only [ne_eq, h1, h2, not_false_eq_true, true_and]

end Sys2Proof.Machine

namespace Sys2Proof

open Sys2Proof.Machine

/-- The first part of O16: each of the sixteen commands is a move to its unit's port of that operation. -/
theorem aluCommands_deliver (s : State) (k : Fin 9) (u : Fin 2) (a : TWord) (i : Instr) (op : Alu) (d : Nat)
    (hi : (i, op, d) ∈ aluCommands k u a) (hm : canMove s.vol k = true) :
    exec i s = .next (withVol s (onMove s.vol k fun c => aluTaken c (32 + u.val) d (curBundle s.vol k)
      (aluOp op (untag k a) (opnd c (if u.val = 0 then 32 else 51))))) := by
  have hport : isAluPort d ∧ (51 < d ↔ u.val = 1) ∧ aluOfDst d = op ∧ d ≠ 49 ∧ d ≠ 50
      ∧ exec i s = .next (withVol s (triggerMove s.nv s.vol k d a)) := by
    have hu : u = 0 ∨ u = 1 := by omega
    rcases hu with rfl | rfl <;>
      (simp only [aluCommands, List.mem_cons, List.not_mem_nil, or_false, Prod.mk.injEq] at hi
       rcases hi with h | h | h | h | h | h | h | h | h | h | h | h | h | h | h | h <;>
         (obtain ⟨rfl, rfl, rfl⟩ := h; exact ⟨by unfold isAluPort; decide, by decide, rfl, by decide, by decide, rfl⟩))
  obtain ⟨hd, hunit, hop, h49, h50, hex⟩ := hport
  have hok : dstOk k d = true := by
    unfold isAluPort at hd
    simp only [dstOk, h49, h50, show d ≠ 89 by omega, show d < 112 by omega, decide_true, Bool.or_self, Bool.and_false,
      beq_eq_false_iff_ne.mpr, ne_eq, not_false_eq_true, Bool.not_false, Bool.and_self]
  rw [hex, triggerMove_alu s.nv s.vol k d a hd hok hm, hop]
  have hu : u.val = 0 ∨ u.val = 1 := by omega
  rcases hu with h | h
  · simp only [h, show ¬ 51 < d by omega, if_true, if_false]
  · simp only [h, show 51 < d by omega, if_true, if_false, one_ne_zero]

/-- Settles O16: the ports by `aluCommands_deliver`, the tags by the rule that each operation follows. -/
theorem aluCommandsDeliver : Obligations.AluCommandsDeliver := by
  refine ⟨aluCommands_deliver, ?_, ?_⟩
  · intro s k a hm
    have h49 : isAluPort 49 := by unfold isAluPort; decide
    have h50 : isAluPort 50 := by unfold isAluPort; decide
    constructor
    · intro hk
      have hok (d : Nat) (hd : d < 112) : dstOk k d = true := by
        simp [dstOk, hd, show k.val ≠ 8 by omega]
      have hun : untag k a = a := by simp [untag, show k.val ≠ 8 by omega]
      refine ⟨?_, ?_⟩
      · simp only [exec, execTset, onVol]
        rw [triggerMove_alu s.nv s.vol k 49 a h49 (hok 49 (by decide)) hm, hun]; rfl
      · simp only [exec, execTchk, onVol]
        rw [triggerMove_alu s.nv s.vol k 50 a h50 (hok 50 (by decide)) hm, hun]; rfl
    · intro hk
      obtain ⟨k, hk9⟩ := k
      obtain rfl : k = 8 := hk
      refine ⟨?_, ?_⟩
      · simp only [exec, execTset, onVol]
        rw [triggerMove_noTag s.nv s.vol 49 a (.inl rfl) hm]
      · simp only [exec, execTchk, onVol]
        rw [triggerMove_noTag s.nv s.vol 50 a (.inr rfl) hm]
  · intro op a b compares shifts r gives x
    refine ⟨fun h => aluOp_of_poison (aluTag_poison op h), fun ha hb => ?_⟩
    have ha' := not_isPoison_iff.mp ha
    have hb' := not_isPoison_iff.mp hb
    have gives_of {t : Tag} (h : aluTag op a b = .tag t) (ht : t ≠ Tag.poison) : gives t := by
      simp only [gives, r, aluOp_of_tag h ht, and_self]
    refine ⟨fun hs h1 h2 => ?_, fun hs => ?_, fun ho => ?_, fun ho => ?_⟩
    · have hrule := aluTag_two hs h1 h2 a b
      refine ⟨fun h => ?_, fun hna hnb h => ?_, fun hab har hbr => ?_⟩
      · exact aluOp_of_fault (hrule.trans (tagTwo_reserved _ ha' hb' h))
      · rw [tagTwo_agree _ ha' hb' hna hnb h] at hrule
        have ht : (if compares then Tag.raw else if a.tag = Tag.raw then b.tag else a.tag) ≠ Tag.poison := by
          split_ifs
          · decide
          · exact hb'
          · exact ha'
        refine gives_of (hrule.trans ?_) ht
        simp only [decide_eq_true_eq, compares]
      · exact aluOp_of_fault (hrule.trans (tagTwo_differ _ ha' hb' hab har hbr))
    · have hrule := (aluTag_shift hs a b).trans (tagShift_eq ha' hb')
      split_ifs with h
      · rw [if_pos h] at hrule; exact gives_of hrule ha'
      · rw [if_neg h] at hrule; exact aluOp_of_fault hrule
    · subst ho
      have hrule := aluTag_tset ha hb
      have hlt : b.data.toNat % 16 < 16 := Nat.mod_lt _ (by decide)
      by_cases h15 : x = 15
      · rw [if_pos h15]
        have h14 : ¬ b.data.toNat % 16 = 14 := fun h => by simp only [x] at h15; omega
        rw [if_neg h14, show b.data.toNat % 16 = 15 from h15] at hrule
        exact aluOp_of_poison hrule
      · rw [if_neg h15]
        by_cases h14 : x = 14
        · rw [if_pos h14]
          rw [if_pos h14] at hrule
          exact aluOp_of_fault hrule
        · rw [if_neg h14]
          rw [if_neg h14] at hrule
          have ht : BitVec.ofNat 4 (b.data.toNat % 16) ≠ Tag.poison := fun h => h15 ((ofNat4_inj hlt (by decide)).mp h)
          simp only [r, aluOp_of_tag hrule ht, aluData, and_self, x]
    · subst ho
      have hrule := aluTag_tchk ha hb
      split_ifs with h
      · rw [if_pos h] at hrule
        simp only [r, aluOp_of_tag hrule ha', aluData, and_self]
      · rw [if_neg h] at hrule; exact aluOp_of_fault hrule

end Sys2Proof
end

section
/-! SUPPORT. A frame for the operations of the outputs and trips: they change registers of a known set, the output state and Tally's
latches, and nothing else of the part. -/

namespace Sys2Proof.Machine

/-- v' comes from v by changes to registers of the set W, to the outputs and to Tally's latches alone. -/
structure Touches (W : Nat → Prop) (v v' : Vol) : Prop where
  rest : v' = { v with regs := v'.regs, outs := v'.outs, tally := v'.tally }
  regs : ∀ a, ¬ W a → rg v' a = rg v a

namespace Touches

variable {W W' : Nat → Prop} {v v' v'' : Vol}

theorem refl (W : Nat → Prop) (v : Vol) : Touches W v v := ⟨rfl, fun _ _ => rfl⟩

theorem trans (h : Touches W v v') (h' : Touches W v' v'') : Touches W v v'' where
  rest := by
    have h2 := h'.rest
    rw [h.rest] at h2
    exact h2
  regs a ha := (h'.regs a ha).trans (h.regs a ha)

theorem mono (h : Touches W v v') (hW : ∀ a, W a → W' a) : Touches W' v v' := ⟨h.rest, fun a ha => h.regs a fun hw => ha (hW a hw)⟩

theorem now (h : Touches W v v') : v'.now = v.now := by rw [h.rest]
theorem free (h : Touches W v v') : v'.free = v.free := by rw [h.rest]
theorem resetting (h : Touches W v v') : v'.resetting = v.resetting := by rw [h.rest]
theorem sram (h : Touches W v v') : v'.sram = v.sram := by rw [h.rest]
theorem parked (h : Touches W v v') : v'.parked = v.parked := by rw [h.rest]
theorem tick (h : Touches W v v') : v'.tick = v.tick := by rw [h.rest]
theorem sys (h : Touches W v v') : v'.sys = v.sys := by rw [h.rest]
theorem dma (h : Touches W v v') : v'.dma = v.dma := by rw [h.rest]
theorem hsp (h : Touches W v v') : v'.hsp = v.hsp := by rw [h.rest]
theorem svc (h : Touches W v v') : v'.svc = v.svc := by rw [h.rest]
theorem cores (h : Touches W v v') : v'.cores = v.cores := by rw [h.rest]
theorem yok (h : Touches W v v') : v'.yok = v.yok := by rw [h.rest]

theorem rb_eq (h : Touches W v v') {a : Nat} (ha : ¬ W a) (i : Nat) : rb v' a i = rb v a i := by rw [rb, rb, h.regs a ha]
theorem rf_eq (h : Touches W v v') {a : Nat} (ha : ¬ W a) (hi lo : Nat) : rf v' a hi lo = rf v a hi lo := by rw [rf, rf, h.regs a ha]

/-- Whether a domain is up and a block READY rests on PWR and CLK, which lie below the register pages of trips and outputs. -/
theorem domUp_eq (h : Touches W v v') (hW : ∀ a, W a → 0x40003000 ≤ a) {d : Nat} (hd : d < 97) : domUp v' d = domUp v d := by
  have hreg : rb v' (ra pPwr (0x04C + 4 * ((d - 1) / 32))) = rb v (ra pPwr (0x04C + 4 * ((d - 1) / 32))) :=
    funext fun i => h.rb_eq (fun hw => by have := hW _ hw; simp only [ra, pPwr] at this; omega) i
  simp only [domUp, domOn, hreg, h.sys, h.now]

theorem ready_eq (h : Touches W v v') (hW : ∀ a, W a → 0x40003000 ≤ a) (p : Nat) : ready v' p = ready v p := by
  have hd := pageDom_lt p
  have hreg : rb v' (ra pClk (0x07C + 4 * ((pageDom p - 1) / 32))) = rb v (ra pClk (0x07C + 4 * ((pageDom p - 1) / 32))) :=
    funext fun i => h.rb_eq (fun hw => by have := hW _ hw; simp only [ra, pClk] at this; omega) i
  simp only [ready, gateForced, h.domUp_eq hW hd, h.resetting, hreg]

end Touches

/-! ### The named updates -/

section
variable {W : Nat → Prop}

theorem touches_outs (v : Vol) (o : Outs) : Touches W v { v with outs := o } := ⟨rfl, fun _ _ => rfl⟩

theorem touches_rgSet (v : Vol) {a : Nat} (w : Word) (ha : W a) : Touches W v (rgSet v a w) :=
  ⟨rfl, fun _ hb => rg_rgSet_ne _ _ fun e => hb (e ▸ ha)⟩

theorem touches_rbSet (v : Vol) {a : Nat} (i : Nat) (b : Bool) (ha : W a) : Touches W v (rbSet v a i b) := by
  unfold rbSet; split
  · exact touches_rgSet v _ ha
  · exact touches_rgSet v _ ha

theorem touches_setFault (v : Vol) {p : Nat} (i : Nat) (ha : W (aFault p)) : Touches W v (setFault v p i) := touches_rgSet v _ ha

theorem noteLine_rest (n : Nat) (v v' : Vol) : noteLine n v v' = { v' with tally := (noteLine n v v').tally } := by
  unfold noteLine
  split <;> rfl

theorem touches_raiseEvent (v : Vol) {p : Nat} (i : Nat) (ha : W (aEvPend p)) : Touches W v (raiseEvent v p i) where
  rest := by
    unfold raiseEvent
    split
    · dsimp only
      split
      · rw [noteLine_rest]; rfl
      · rfl
    · rfl
  regs b hb := rg_raiseEvent_ne v p i fun e => hb (e ▸ ha)

theorem touches_raiseIf (c : Bool) (v : Vol) {p : Nat} (i : Nat) (ha : W (aEvPend p)) : Touches W v (raiseIf c v p i) := by
  cases c
  · exact .refl W v
  · exact touches_raiseEvent v i ha

theorem touches_putPair (v : Vol) {a : Nat} (b : BitVec 64) (ha : W a) (ha' : W (a + 4)) : Touches W v (putPair v a b) :=
  (touches_rgSet v _ ha).trans (touches_rgSet _ _ ha')

theorem touches_ite {c : Prop} [Decidable c] {v a b : Vol} (ha : Touches W v a) (hb : Touches W v b) :
    Touches W v (if c then a else b) := by
  split
  · exact ha
  · exact hb

/-- A fold of changes within the frame stays within it. -/
theorem touches_foldl {β : Type} (f : Vol → β → Vol) (l : List β) (h : ∀ x ∈ l, ∀ v, Touches W v (f v x)) (v : Vol) :
    Touches W v (l.foldl f v) := by
  induction l generalizing v with
  | nil => exact .refl W v
  | cons x l ih =>
    exact (h x List.mem_cons_self v).trans (ih (fun y hy => h y (List.mem_cons_of_mem _ hy)) (f v x))

end

/-! ### The outputs -/

/-- The addresses of the pages of the motor groups, the valves and general I/O (R36). -/
def OutRegs (a : Nat) : Prop := 0x40044000 ≤ a ∧ a < 0x4004F000

theorem motShow_touches (v : Vol) {m : Nat} (hm : m < 8) : Touches OutRegs v (motShow v m) := by
  refine (touches_foldl _ _ (fun u hu v => touches_rgSet v _ ?_) v).trans (touches_rgSet _ _ ?_)
  · have := List.mem_range.mp hu
    simp only [OutRegs, aMot, ra, pMot]; omega
  · simp only [OutRegs, aMot, ra, pMot]; omega

theorem valveApply_touches (v : Vol) {x : Nat} (hx : x < 48) : Touches OutRegs v (valveApply v x) := by
  have hst : OutRegs (aVlv x 0x200) := by simp only [OutRegs, aVlv, ra, pVlv]; omega
  have hev : OutRegs (aEvPend (pVlv (x / 24))) := by simp only [OutRegs, aEvPend, ra, pVlv]; omega
  unfold valveApply
  extract_lets st tim on next starts ends o v1 v2
  have h1 : Touches OutRegs v v1 := touches_ite (touches_outs v _) (.refl _ v)
  exact touches_ite (.refl _ v) (h1.trans ((touches_raiseIf _ v1 2 hev).trans (touches_rgSet v2 _ hst)))

theorem gioEdge_touches (v : Vol) (n : Nat) (level : Bool) : Touches OutRegs v (gioEdge v n level) := by
  have hev (e : Nat) : OutRegs (aEvPend pGio) := by simp only [OutRegs, aEvPend, ra, pGio]; omega
  unfold gioEdge
  extract_lets was on o v1 hit v2
  have h1 : Touches OutRegs v v1 := touches_outs v _
  have h2 : Touches OutRegs v1 v2 := touches_foldl _ _ (fun k _ u => touches_ite (touches_outs u _) (.refl _ u)) v1
  exact touches_ite h1 ((h1.trans h2).trans (touches_foldl _ _ (fun e _ u => touches_raiseIf _ u e (hev e)) v2))

theorem gioDrive_touches (v : Vol) (n : Nat) : Touches OutRegs v (gioDrive v n) := by
  unfold gioDrive
  split
  · exact touches_outs v _
  · extract_lets want o v1
    have h1 : Touches OutRegs v v1 := touches_ite (.refl _ v) (touches_outs v _)
    exact touches_ite h1 (touches_ite (h1.trans (gioEdge_touches v1 n want)) (h1.trans (touches_outs v1 _)))

theorem gioSettle_touches (v : Vol) (t : Nat) : Touches OutRegs v (gioSettle v t) := by
  refine touches_foldl _ _ (fun d _ v => ?_) v
  split
  · exact (touches_outs v _).trans (gioEdge_touches _ _ _)
  · exact .refl _ v

theorem gioShow_touches (v : Vol) : Touches OutRegs v (gioShow v) := by
  unfold gioShow
  split
  · exact .refl _ v
  · refine (touches_outs v _).trans ((touches_putPair _ _ ?_ ?_).trans (touches_putPair _ _ ?_ ?_)) <;>
      simp only [OutRegs, ra, pGio] <;> omega

theorem gioApply_touches (v : Vol) : Touches OutRegs v (gioApply v) := by
  unfold gioApply
  split
  · exact .refl _ v
  · exact ((gioSettle_touches v v.now).trans (gioShow_touches _)).trans (touches_foldl _ _ (fun n _ v => gioDrive_touches v n) _)

theorem outApply_touches (v : Vol) : Touches OutRegs v (outApply v) := by
  unfold outApply
  refine (touches_foldl _ _ (fun m hm v => ?_) v).trans
    ((touches_foldl _ _ (fun x hx v => valveApply_touches v (List.mem_range.mp hx)) _).trans (gioApply_touches _))
  split
  · exact motShow_touches v (List.mem_range.mp hm)
  · exact .refl _ v

theorem motStart_touches (W : Nat → Prop) (v : Vol) (m : Nat) : Touches W v (motStart v m) := touches_outs v _

/-! ### The trips -/

theorem tripForce_touches (v : Vol) : Touches OutRegs v (tripForce v) := by
  unfold tripForce
  extract_lets new o v1 v2 v3 v4
  have h1 : Touches OutRegs v v2 := (touches_outs v _).trans (touches_outs v1 _)
  have h3 : Touches OutRegs v2 v3 := touches_foldl _ _ (fun x hx u =>
    touches_ite (valveApply_touches u (List.mem_range.mp hx)) (.refl _ u)) v2
  have h4 : Touches OutRegs v3 v4 := touches_foldl _ _ (fun b hb u => touches_raiseIf _ u 1 (by
    have := List.mem_range.mp hb
    simp only [OutRegs, aEvPend, ra, pVlv]; omega)) v3
  have h5 := touches_foldl (W := OutRegs) (fun v m => raiseIf (new.getLsbD (maskMotor m)) v (pMot m) 2) (List.range 8) (fun m hm u =>
    touches_raiseIf _ u 2 (by
      have := List.mem_range.mp hm
      simp only [OutRegs, aEvPend, ra, pMot]; omega)) v4
  exact touches_ite (.refl _ v) (h1.trans (h3.trans (h4.trans h5)))

/-- What a latching trip writes beside the outputs' pages: TRP_LATCH, the trip records and TRP's pending events (R345, R348). -/
def LatchRegs (a : Nat) : Prop :=
  OutRegs a ∨ a = ra pTrp 0x0A0 ∨ a = aEvPend pTrp ∨ ra pTrp 0x0C0 ≤ a ∧ a < ra pTrp 0x180

/-- A look at the trip inputs writes TRP_IN and FAULT too. -/
def TripRegs (a : Nat) : Prop := LatchRegs a ∨ a = ra pTrp 0x0A8 ∨ a = aFault pTrp

theorem tripRegs_ge {a : Nat} (h : TripRegs a) : 0x40038000 ≤ a := by
  simp only [TripRegs, LatchRegs, OutRegs, aEvPend, aFault, ra, pTrp] at h; omega

theorem tripLatch_touches (v : Vol) {g : Nat} (hg : g < 16) (cause : Nat) : Touches LatchRegs v (tripLatch v g cause) := by
  have hrec (off : Nat) (h0 : 0x0C0 ≤ off) (h1 : off < 0x180) : LatchRegs (ra pTrp off) := by
    simp only [LatchRegs, ra, pTrp]; omega
  unfold tripLatch
  extract_lets v1 w1 w2 v2
  have h1 : Touches LatchRegs v v1 := touches_rbSet v g true (.inr (.inl rfl))
  have h2 : Touches LatchRegs v1 v2 := touches_ite (.refl _ v1)
    (((touches_rgSet v1 _ (hrec _ (by omega) (by omega))).trans (touches_rgSet w1 _ (hrec _ (by omega) (by omega)))).trans
      (touches_rgSet w2 _ (hrec _ (by omega) (by omega))))
  exact touches_ite (.refl _ v) ((h1.trans h2).trans
    ((touches_raiseEvent v2 g (.inr (.inr (.inl rfl)))).trans ((tripForce_touches _).mono fun a => .inl)))

theorem tripGroup_lt (v : Vol) (i : Nat) : tripGroup v i < 16 := by
  unfold tripGroup fld
  exact Nat.mod_lt _ (by decide)

theorem tripEval_touches (v : Vol) : Touches TripRegs v (tripEval v) := by
  unfold tripEval
  extract_lets gone v1 cmps o v2 ins v3 v4
  have h1 : Touches TripRegs v v1 := touches_ite (.refl _ v) (touches_setFault v 3 (.inr (.inr rfl)))
  have h2 : Touches TripRegs v1 v2 := touches_outs v1 _
  have h3 : Touches TripRegs v2 v3 := touches_rgSet v2 _ (.inr (.inl rfl))
  have h4 : Touches TripRegs v3 v4 := touches_foldl _ _ (fun i _ u =>
    touches_ite ((tripLatch_touches u (tripGroup_lt u i) i).mono fun a => .inl) (.refl _ u)) v3
  exact touches_ite (.refl _ v) ((h1.trans h2).trans ((h3.trans h4).trans ((tripForce_touches v4).mono fun a h => .inl (.inl h))))

end Sys2Proof.Machine
end

section
/-! PROOFS. The whole-part resets (O43): what the reset builds outlasts the look at trips and outputs that ends it, which touches their
own registers alone. -/

namespace Sys2Proof.Machine

/-- The strap code that a whole-part reset of v leaves: the one sampled with it, else the one in force (R533). -/
def strapAfter (v : Vol) (xt : Option Nat) : Nat := xt.getD (rf v (ra pClk 0x088) 1 0)

/-- What a whole-part reset with RST_CAUSE bit b leaves of v (R19, R544). -/
structure AfterReset (v : Vol) (b : Nat) (xt : Option Nat) (r : Vol) : Prop where
  cause : rg r (ra pRst 0x040) = bitWord b
  strap : rg r (ra pClk 0x088) = BitVec.ofNat 32 (strapAfter v xt)
  xtrdy : xt.isSome = true → rb r (aStat pClk) 1 = false
  mode : r.sys.mode = .reset
  wdRunning : r.sys.wdRunning = false
  rtcSec : r.sys.rtcSec = v.sys.rtcSec
  sram : r.sram = []
  cores : r.cores = List.replicate 9 Core.reset
  tick : r.tick = Tick.reset
  parked : r.parked = []
  now : r.now = v.now
  prime : r.yok.prime = v.yok.prime

/-- The look at trips and outputs keeps all of it. -/
theorem AfterReset.of_touches {v r r' : Vol} {b : Nat} {xt : Option Nat} (h : AfterReset v b xt r) (ht : Touches TripRegs r r') :
    AfterReset v b xt r' := by
  have low {a : Nat} (ha : a < 0x40004000) : ¬ TripRegs a := fun hw => by have := tripRegs_ge hw; omega
  constructor
  · rw [ht.regs _ (low (by decide)), h.cause]
  · rw [ht.regs _ (low (by decide)), h.strap]
  · rw [ht.rb_eq (low (by decide))]; exact h.xtrdy
  · rw [ht.sys, h.mode]
  · rw [ht.sys, h.wdRunning]
  · rw [ht.sys, h.rtcSec]
  · rw [ht.sram, h.sram]
  · rw [ht.cores, h.cores]
  · rw [ht.tick, h.tick]
  · rw [ht.parked, h.parked]
  · rw [ht.now, h.now]
  · rw [ht.yok, h.prime]

theorem afterReset_wholeReset (v : Vol) (b : Nat) (xt : Option Nat) : AfterReset v b xt (wholeReset v b xt) := by
  unfold wholeReset
  extract_lets strap xtrdy s₀ s o₀ o v₀ svc₀ yok₀ lks₀ r0 r1 r2 r3 r4
  have hstrap : strap = strapAfter v xt := by cases xt <;> rfl
  have h3 {a : Nat} (h50 : a ≠ ra pClk 0x050) (h54 : a ≠ ra pClk 0x054) : rg r3 a = rg r1 a :=
    (rg_rgSet_ne _ _ h54).trans (rg_rgSet_ne _ _ h50)
  have hcause3 : rg r3 (ra pRst 0x040) = bitWord b :=
    (h3 (by decide) (by decide)).trans ((rg_rgSet_ne _ _ (by decide)).trans (rg_rgSet_same _ _ _))
  have hstrap3 : rg r3 (ra pClk 0x088) = BitVec.ofNat 32 (strapAfter v xt) :=
    (h3 (by decide) (by decide)).trans ((rg_rgSet_same _ _ _).trans (congrArg _ hstrap))
  have hbase : AfterReset v b xt r4 := by
    by_cases hx : xtrdy = true
    · have hxt : xt.isSome = false := by cases xt with
        | none => rfl
        | some n => exact absurd hx Bool.false_ne_true
      have hr4 : r4 = seqPlls r3 := if_pos hx
      have hregs {a : Nat} (ha : a ≠ ra pClk 0x048) (hb : a ≠ ra pClk 0x04C) : rg (seqPlls r3) a = rg r3 a :=
        (rg_rgSet_ne _ _ hb).trans (rg_rgSet_ne _ _ ha)
      rw [hr4]
      exact ⟨(hregs (by decide) (by decide)).trans hcause3, (hregs (by decide) (by decide)).trans hstrap3,
        fun h => absurd h (by rw [hxt]; decide), rfl, rfl, rfl, rfl, rfl, rfl, rfl, rfl, rfl⟩
    · have hr4 : r4 = rgClr r3 (aStat pClk) 2 := if_neg hx
      rw [hr4]
      refine ⟨(rg_rgSet_ne _ _ (by decide)).trans hcause3, (rg_rgSet_ne _ _ (by decide)).trans hstrap3, fun _ => ?_,
        rfl, rfl, rfl, rfl, rfl, rfl, rfl, rfl, rfl⟩
      rw [rb, rgClr, rg_rgSet_same]
      simp
  refine hbase.of_touches ?_
  have hstart := touches_foldl (W := TripRegs) motStart (List.range 8) (fun m _ u => motStart_touches _ u m) r4
  exact (hstart.trans (tripEval_touches _)).trans ((outApply_touches _).mono fun a h => Or.inl (Or.inl h))

/-- A power-on reset is a whole-part reset of a state whose strap YPRIME is sampled, and whose RTC starts again where VBAT was lost. -/
theorem powerOn_eq (v : Vol) (xtsel : Nat) (vbatLost prime : Bool) :
    ∃ u : Vol, powerOn v xtsel vbatLost prime = wholeReset u 0 (some xtsel) ∧ u.yok.prime = prime
      ∧ u.sys.rtcSec = if vbatLost then 0 else v.sys.rtcSec := by
  refine ⟨_, rfl, rfl, ?_⟩
  cases vbatLost <;> rfl

/-- What COLD makes of the state r that the whole-part reset of v leaves (R553). -/
def coldAfter (v r : Vol) : Vol :=
  let r := rgSet r (ra pRst 0x040) 0
  setSysP { r with lks := { r.lks with meshAt := wall r } } fun s =>
    { s with mode := .cold, cause := 0, wait := .idle, xtalOn := false, mesh2 := rf v (ra pLks 0x094) 1 0 == 2 }

theorem coreSupplyLost_eq (v : Vol) : coreSupplyLost v = coldAfter v (wholeReset v 0 (some 0)) := by
  unfold coreSupplyLost coldAfter
  with_reducible rfl

theorem coldAfter_mode (v r : Vol) : (coldAfter v r).sys.mode = .cold := rfl
theorem coldAfter_sram (v r : Vol) : (coldAfter v r).sram = r.sram := rfl
theorem coldAfter_rtcSec (v r : Vol) : (coldAfter v r).sys.rtcSec = r.sys.rtcSec := rfl
theorem coldAfter_regs (v r : Vol) : (coldAfter v r).regs = (rgSet r (ra pRst 0x040) 0).regs := rfl

/-- Stated for every volatile part, so that the kernel does not look into a long one. -/
theorem withVol_nv (s : State) (v : Vol) : (withVol s v).nv = s.nv := rfl

theorem exec_coreSupplyLoss (s : State) : exec .coreSupplyLoss s = .next (withVol s (coreSupplyLost s.vol)) := rfl

theorem rstWrite_soft (v : Vol) (w : Word) : rstWrite v 0x044 .direct w = if w == 0xA5C3 then wholeReset v 4 none else v := by
  unfold rstWrite
  rw [if_pos rfl, show ((Via.direct == Via.direct) = true) from rfl, Bool.true_and]

theorem exec_rstSoft_open (s : State) (m : Fin 16) (w : Word) (ho : pageOpen s.vol m pRst = true) :
    exec (.rstSoft m w) s = .next (performed s m (ra pRst 0x044) w (rstWrite s.vol 0x044 .direct w)) := by
  obtain ⟨inf, hp⟩ := pageOpen_info ho
  have hblk : inf.blk = .rst := blk_of_page hp (by decide +kernel)
  have hw : pageWrite s.nv s.vol inf m pRst 0x044 .direct (TWord.ofWord w) = rstWrite s.vol 0x044 .direct w := by
    rw [pageWrite_block _ _ _ _ _ _ _ _ (stageChan_ra_none (by decide) (by decide)) (by decide +kernel) (by decide)
      (fun h => absurd h (by decide)) (fun _ => by decide)]
    simp [blockWrite, hblk]
  simp only [exec, execRstSoft, onVol]
  rw [wr_open s.nv s.vol m pRst 0x044 w inf hp ho (by decide) (by decide), hw]
  rfl

end Sys2Proof.Machine

namespace Sys2Proof

open Sys2Proof.Machine

/-- Settles O43: each reset is `wholeReset` of the state that its command meets, and `afterReset_wholeReset` says what that leaves. -/
theorem wholeResetsAct : Obligations.WholeResetsAct := by
  intro s m strap vbatLost prime w v done
  have hdone {u : Vol} {b : Nat} {xt : Option Nat} {r : Vol} (h : AfterReset u b xt r) : done r b :=
    ⟨h.cause, h.mode, h.sram, h.cores, h.tick, h.parked, h.wdRunning⟩
  have hstrap (u : Vol) (b : Nat) : rg (wholeReset u b (some strap.toNat)) (ra pClk 0x088) = strap.setWidth 32 := by
    rw [(afterReset_wholeReset u b (some strap.toNat)).strap]
    exact BitVec.eq_of_toNat_eq (by simp [strapAfter])
  refine ⟨?_, ?_, ?_, ?_, ?_, ?_, ?_, ?_⟩
  · obtain ⟨u, hu, hprime, hrtc⟩ := powerOn_eq v strap.toNat vbatLost prime
    have h := afterReset_wholeReset u 0 (some strap.toNat)
    refine ⟨withVol s (wholeReset u 0 (some strap.toNat)), ?_, hdone h, withVol_nv s _, h.prime.trans hprime, hstrap u 0, h.xtrdy rfl,
      h.rtcSec.trans hrtc⟩
    rw [← hu]; rfl
  · intro hm
    have h := afterReset_wholeReset v 1 (some strap.toNat)
    refine ⟨withVol s (wholeReset v 1 (some strap.toNat)), ?_, hdone h, withVol_nv s _, hstrap v 1, h.rtcSec⟩
    simp [exec, execBrownOut, onVol, unlessCold, hm, v]
  · intro hm
    have h := afterReset_wholeReset v 2 none
    refine ⟨withVol s (wholeReset v 2 none), ?_, hdone h, withVol_nv s _, h.rtcSec⟩
    simp [exec, execPinReset, onVol, unlessCold, hm, v]
  · intro hm
    constructor <;> simp [exec, execBrownOut, execPinReset, onVol, unlessCold, hm, v]
  · intro hw
    have h := afterReset_wholeReset (wallTo v (wall v + 40000)) 3 none
    refine ⟨withVol s (wholeReset (wallTo v (wall v + 40000)) 3 none), ?_, hdone h, withVol_nv s _, h.now⟩
    simp [exec, execWatchdogReset, onVol, wdReset, hw, v]
  · intro hw
    simp [exec, execWatchdogReset, onVol, wdReset, hw, v]
  · intro ho
    constructor
    · refine ⟨wholeReset v 4 none, ?_, hdone (afterReset_wholeReset v 4 none)⟩
      rw [exec_rstSoft_open s m _ ho, rstWrite_soft, if_pos (by decide)]
    · intro hw
      rw [exec_rstSoft_open s m w ho, rstWrite_soft, if_neg (by simpa using hw)]
  · have h := afterReset_wholeReset s.vol 0 (some 0)
    have hexec := exec_coreSupplyLoss s
    rw [coreSupplyLost_eq] at hexec
    generalize wholeReset s.vol 0 (some 0) = r at h hexec
    refine ⟨_, hexec, ?_, ?_, ?_, ?_, ?_⟩
    · exact coldAfter_mode _ r
    · exact (coldAfter_sram _ r).trans h.sram
    · exact (coldAfter_rtcSec _ r).trans h.rtcSec
    · exact (rg_congr (coldAfter_regs s.vol r) _).trans (rg_rgSet_same _ _ _)
    · exact withVol_nv s _

end Sys2Proof
end

section
/-! SUPPORT. The trips (R344-R350): what a look at the inputs shows, what a latching group leaves and keeps, and what forcing holds. -/

namespace Sys2Proof.Machine

/-! ### Bits -/

theorem bit_bitWord (i j : Nat) : bit (bitWord i) j = (decide (j < 32) && decide (i = j)) := by
  rw [bit, bitWord, BitVec.getLsbD_ofNat, Nat.testBit_two_pow]

theorem rb_rbSet_true (v : Vol) (a : Nat) {i : Nat} (hi : i < 32) (j : Nat) :
    rb (rbSet v a i true) a j = (rb v a j || decide (i = j)) := by
  rw [rbSet, if_pos rfl, rb, rb, rgOr, rg_rgSet_same, bit, BitVec.getLsbD_or, ← bit, ← bit, bit_bitWord]
  by_cases h : i = j
  · subst h; simp [hi]
  · simp [h]

theorem rb_rbSet_false (v : Vol) (a : Nat) (i : Nat) {j : Nat} (hj : j < 32) :
    rb (rbSet v a i false) a j = (rb v a j && !decide (i = j)) := by
  rw [rbSet, if_neg Bool.false_ne_true, rb, rb, rgClr, rg_rgSet_same, bit, BitVec.getLsbD_and, BitVec.getLsbD_not,
    ← bit, ← bit, bit_bitWord]
  simp [hj]

theorem rg_rbSet_ne (v : Vol) {a b : Nat} (i : Nat) (x : Bool) (h : b ≠ a) : rg (rbSet v a i x) b = rg v b := by
  cases x <;> exact rg_rgSet_ne _ _ h

theorem rg_rgSet_off (v : Vol) {p o o' : Nat} (w : Word) (h : o' ≠ o) : rg (rgSet v (ra p o) w) (ra p o') = rg v (ra p o') :=
  rg_rgSet_ne _ _ (by simp only [ra]; omega)

/-- A number gathered from bits holds them. -/
theorem testBit_gather (f : Nat → Bool) (n i : Nat) :
    ((List.range n).map fun j => b2n (f j) * 2 ^ j).sum.testBit i = (decide (i < n) && f i) := by
  have key : ∀ n, ((List.range n).map fun j => b2n (f j) * 2 ^ j).sum < 2 ^ n
      ∧ ∀ i, ((List.range n).map fun j => b2n (f j) * 2 ^ j).sum.testBit i = (decide (i < n) && f i) := by
    intro n
    induction n with
    | zero => simp
    | succ n ih =>
      obtain ⟨hlt, hbit⟩ := ih
      have hb : b2n (f n) ≤ 1 := by cases f n <;> decide
      simp only [List.range_succ, List.map_append, List.map_cons, List.map_nil, List.sum_append, List.sum_cons, List.sum_nil, add_zero]
      refine ⟨?_, fun i => ?_⟩
      · have := Nat.mul_le_mul_right (2 ^ n) hb
        rw [pow_succ]; omega
      · rw [Nat.add_comm, Nat.mul_comm, Nat.testBit_two_pow_mul_add _ hlt, hbit]
        by_cases h : i < n
        · simp [h, Nat.lt_succ_of_lt h]
        · obtain rfl | h' := Nat.eq_or_lt_of_le (Nat.le_of_not_lt h)
          · cases f n <;> rw [Nat.sub_self] <;> simp [b2n]
          · have h1 : ¬ i < n + 1 := by omega
            have h2 : (b2n (f n)).testBit (i - n) = false := Nat.testBit_lt_two_pow (lt_of_le_of_lt hb (Nat.one_lt_two_pow (by omega)))
            simp [h, h1, h2]
  exact (key n).2 i

theorem or_foldl_mono {β : Type} (c : β → Bool) (f : β → BitVec 128) (l : List β) (b : BitVec 128) (o : Nat)
    (h : b.getLsbD o = true) : (l.foldl (fun b x => if c x = true then b ||| f x else b) b).getLsbD o = true := by
  induction l generalizing b with
  | nil => exact h
  | cons x l ih =>
    refine ih _ ?_
    dsimp only
    split
    · simp [h]
    · exact h

/-- The union of selected masks holds each of them. -/
theorem or_foldl_mem {β : Type} (c : β → Bool) (f : β → BitVec 128) (l : List β) (b : BitVec 128) (o : Nat) {x : β} (hx : x ∈ l)
    (hc : c x = true) (h : (f x).getLsbD o = true) :
    (l.foldl (fun b x => if c x = true then b ||| f x else b) b).getLsbD o = true := by
  induction l generalizing b with
  | nil => cases hx
  | cons y l ih =>
    rcases List.mem_cons.mp hx with rfl | hx
    · refine or_foldl_mono c f l _ o ?_
      simp [hc, h]
    · exact ih _ hx

/-! ### Forcing -/

/-- What forcing keeps beside its frame: the sensed levels and the outputs already held. -/
structure Forces (u u' : Vol) : Prop where
  touches : Touches OutRegs u u'
  cmpIn : u'.outs.cmpIn = u.outs.cmpIn
  digLvl : u'.outs.digLvl = u.outs.digLvl
  held : ∀ o, tripHeld u o = true → tripHeld u' o = true

namespace Forces

theorem refl (u : Vol) : Forces u u := ⟨.refl _ u, rfl, rfl, fun _ h => h⟩

theorem trans {u u' u'' : Vol} (h : Forces u u') (h' : Forces u' u'') : Forces u u'' :=
  ⟨h.touches.trans h'.touches, h'.cmpIn.trans h.cmpIn, h'.digLvl.trans h.digLvl, fun o ho => h'.held o (h.held o ho)⟩

theorem foldl {β : Type} (f : Vol → β → Vol) (l : List β) (h : ∀ x ∈ l, ∀ u, Forces u (f u x)) (u : Vol) : Forces u (l.foldl f u) := by
  induction l generalizing u with
  | nil => exact .refl u
  | cons x l ih => exact (h x List.mem_cons_self u).trans (ih (fun y hy => h y (List.mem_cons_of_mem _ hy)) (f u x))

end Forces

theorem raiseIf_outs (c : Bool) (v : Vol) (p i : Nat) : (raiseIf c v p i).outs = v.outs := by
  cases c
  · rfl
  · exact raiseEvent_outs v p i

theorem raiseIf_forces (c : Bool) (v : Vol) {p : Nat} (i : Nat) (hp : OutRegs (aEvPend p)) : Forces v (raiseIf c v p i) := by
  refine ⟨touches_raiseIf c v i hp, ?_, ?_, fun o ho => ?_⟩
  · rw [raiseIf_outs]
  · rw [raiseIf_outs]
  · rw [tripHeld, raiseIf_outs]; exact ho

/-- A valve that starts or ends notes when; it changes no other part of the outputs. -/
theorem valveApply_outs (v : Vol) (x : Nat) : ∃ t, (valveApply v x).outs = { v.outs with vlvAt := t } := by
  unfold valveApply
  extract_lets st tim on next starts ends o v1 v2
  split
  · exact ⟨v.outs.vlvAt, rfl⟩
  · have h2 : v2.outs = v1.outs := raiseIf_outs _ _ _ _
    rw [rgSet_outs, h2]
    show ∃ t, (if (starts || ends) = true then _ else v).outs = _
    split
    · exact ⟨_, rfl⟩
    · exact ⟨v.outs.vlvAt, rfl⟩

theorem valveApply_forces (v : Vol) {x : Nat} (hx : x < 48) : Forces v (valveApply v x) := by
  obtain ⟨t, ht⟩ := valveApply_outs v x
  refine ⟨valveApply_touches v hx, ?_, ?_, fun o ho => ?_⟩
  · rw [ht]
  · rw [ht]
  · rw [tripHeld, ht]; exact ho

/-- The outputs that a trip newly holds. -/
def newlyHeld (v : Vol) : BitVec 128 := tripWanted v &&& ~~~v.outs.held

/-- The state in which they are noted, the firing outputs among them inactive. -/
def heldNoted (v : Vol) : Vol :=
  fireOff { v with outs := { v.outs with held := v.outs.held ||| newlyHeld v } } ((newlyHeld v).setWidth 64)

theorem heldNoted_held (v : Vol) : (heldNoted v).outs.held = v.outs.held ||| newlyHeld v := rfl

theorem heldNoted_forces (v : Vol) : Forces v (heldNoted v) := by
  refine ⟨⟨rfl, fun _ _ => rfl⟩, rfl, rfl, fun o ho => ?_⟩
  rw [tripHeld] at ho
  rw [tripHeld, heldNoted_held, BitVec.getLsbD_or, ho, Bool.true_or]

/-- Forcing notes what is newly held, and goes on from there. -/
theorem tripForce_from (v : Vol) : tripForce v = v ∧ newlyHeld v = 0 ∨ Forces (heldNoted v) (tripForce v) := by
  unfold tripForce
  extract_lets new o v1 v2 v3 v4
  split
  · exact .inl ⟨rfl, by assumption⟩
  · right
    have h3 : Forces v2 v3 := .foldl _ _ (fun x hx u => by
      split
      · exact valveApply_forces u (List.mem_range.mp hx)
      · exact .refl u) v2
    have h4 : Forces v3 v4 := .foldl _ _ (fun b hb u => raiseIf_forces _ u 1 (by
      have := List.mem_range.mp hb
      simp only [OutRegs, aEvPend, ra, pVlv]; omega)) v3
    have h5 := Forces.foldl (fun v m => raiseIf (new.getLsbD (maskMotor m)) v (pMot m) 2) (List.range 8) (fun m hm u =>
      raiseIf_forces _ u 2 (by
        have := List.mem_range.mp hm
        simp only [OutRegs, aEvPend, ra, pMot]; omega)) v4
    exact h3.trans (h4.trans h5)

theorem tripForce_forces (v : Vol) : Forces v (tripForce v) := by
  rcases tripForce_from v with ⟨h, -⟩ | h
  · rw [h]; exact .refl v
  · exact (heldNoted_forces v).trans h

/-- Forcing leaves every output held that a latched group masks (R345). -/
theorem tripForce_wanted (v : Vol) {o : Nat} (ho : (tripWanted v).getLsbD o = true) : tripHeld (tripForce v) o = true := by
  have hlt : o < 128 := BitVec.lt_of_getLsbD ho
  have hnew : (newlyHeld v).getLsbD o = !v.outs.held.getLsbD o := by
    simp [newlyHeld, ho, hlt]
  rcases tripForce_from v with ⟨h, h0⟩ | h
  · rw [h, tripHeld]
    rw [h0] at hnew
    simpa using hnew
  · refine h.held o ?_
    rw [tripHeld, heldNoted_held, BitVec.getLsbD_or, hnew]
    cases v.outs.held.getLsbD o <;> rfl

theorem tripMask_wanted (v : Vol) {g o : Nat} (hg : g < 16) (hl : rb v (ra pTrp 0x0A0) g = true) (ho : (tripMask v g).getLsbD o = true) :
    (tripWanted v).getLsbD o = true :=
  or_foldl_mem (fun g => rb v (ra pTrp 0x0A0) g) (tripMask v) (List.range 16) 0 o (List.mem_range.mpr hg) hl ho

/-! ### Latching -/

/-- What a latching trip keeps beside its frame: the sensed levels, the latches, pending events and kept records of the groups, and
the outputs already held. -/
structure Trips (u u' : Vol) : Prop where
  touches : Touches LatchRegs u u'
  cmpIn : u'.outs.cmpIn = u.outs.cmpIn
  digLvl : u'.outs.digLvl = u.outs.digLvl
  latch : ∀ n, rb u (ra pTrp 0x0A0) n = true → rb u' (ra pTrp 0x0A0) n = true
  pend : ∀ n, rb u (aEvPend pTrp) n = true → rb u' (aEvPend pTrp) n = true
  noted : ∀ g, g < 16 → rb u (ra pTrp (0x0C0 + 4 * g)) 31 = true → rb u' (ra pTrp (0x0C0 + 4 * g)) 31 = true

theorem not_outRegs_trp {off : Nat} (h : off < 0x1000) : ¬ OutRegs (ra pTrp off) := by
  simp only [OutRegs, ra, pTrp]; omega

namespace Trips

theorem refl (u : Vol) : Trips u u := ⟨.refl _ u, rfl, rfl, fun _ h => h, fun _ h => h, fun _ _ h => h⟩

theorem trans {u u' u'' : Vol} (h : Trips u u') (h' : Trips u' u'') : Trips u u'' where
  touches := h.touches.trans h'.touches
  cmpIn := h'.cmpIn.trans h.cmpIn
  digLvl := h'.digLvl.trans h.digLvl
  latch n hn := h'.latch n (h.latch n hn)
  pend n hn := h'.pend n (h.pend n hn)
  noted g hg hn := h'.noted g hg (h.noted g hg hn)

theorem of_forces {u u' : Vol} (h : Forces u u') : Trips u u' where
  touches := h.touches.mono fun _ => .inl
  cmpIn := h.cmpIn
  digLvl := h.digLvl
  latch n hn := by rw [h.touches.rb_eq (not_outRegs_trp (by decide))]; exact hn
  pend n hn := by rw [h.touches.rb_eq (not_outRegs_trp (by decide))]; exact hn
  noted g hg hn := by rw [h.touches.rb_eq (not_outRegs_trp (by omega))]; exact hn

/-- The settings of the inputs and groups lie outside the frame. -/
theorem rg_cfg {u u' : Vol} (h : Trips u u') {off : Nat} (ho : 0x020 ≤ off ∧ off < 0x0A0 ∨ off < 0x018 ∨ 0x180 ≤ off ∧ off < 0x1000) :
    rg u' (ra pTrp off) = rg u (ra pTrp off) :=
  h.touches.regs _ (by simp only [LatchRegs, OutRegs, aEvPend, ra, pTrp]; omega)

theorem tripCfg_eq {u u' : Vol} (h : Trips u u') {i : Nat} (hi : i < 24) : tripCfg u' i = tripCfg u i := by
  unfold tripCfg
  split
  · exact h.rg_cfg (by omega)
  · exact h.rg_cfg (by omega)

theorem tripGroup_eq {u u' : Vol} (h : Trips u u') {i : Nat} (hi : i < 24) : tripGroup u' i = tripGroup u i := by
  rw [tripGroup, tripGroup, h.tripCfg_eq hi]

theorem tripState_eq {u u' : Vol} (h : Trips u u') {i : Nat} (hi : i < 24) : tripState u' i = tripState u i := by
  simp only [tripState, tripEnabled, h.tripCfg_eq hi, h.cmpIn, h.digLvl]

end Trips

/-- The record that a latching group keeps (R348). -/
def tripRecord (v : Vol) (g cause : Nat) : Vol :=
  if rb v (ra pTrp (0x0C0 + 4 * g)) 31 then v
  else
    let v := rgSet v (ra pTrp (0x0C0 + 4 * g)) (BitVec.ofNat 32 (2 ^ 31 + cause))
    let v := rgSet v (ra pTrp (0x100 + 4 * g)) (v.tick.number.setWidth 32)
    rgSet v (ra pTrp (0x140 + 4 * g)) (BitVec.ofNat 32 (tickCyc v))

theorem tripLatch_eq (v : Vol) (g cause : Nat) : tripLatch v g cause = if rb v (ra pTrp 0x0A0) g then v
    else tripForce (raiseEvent (tripRecord (rbSet v (ra pTrp 0x0A0) g true) g cause) pTrp g) := rfl

theorem tripRecord_outs (v : Vol) (g cause : Nat) : (tripRecord v g cause).outs = v.outs := by
  unfold tripRecord; split <;> rfl

theorem rg_tripRecord_ne (v : Vol) (g cause : Nat) {off : Nat} (ho : off < 0x0C0 ∨ off < 0x100 ∧ off ≠ 0x0C0 + 4 * g) :
    rg (tripRecord v g cause) (ra pTrp off) = rg v (ra pTrp off) := by
  unfold tripRecord
  split
  · rfl
  · rw [rg_rgSet_off _ _ (by omega), rg_rgSet_off _ _ (by omega), rg_rgSet_off _ _ (by omega)]

theorem tripRecord_noted (v : Vol) (g : Nat) {cause : Nat} (hc : cause < 2 ^ 31) :
    rb (tripRecord v g cause) (ra pTrp (0x0C0 + 4 * g)) 31 = true := by
  unfold tripRecord
  split
  · assumption
  · rw [rb, rg_rgSet_off _ _ (by omega), rg_rgSet_off _ _ (by omega), rg_rgSet_same, bit, BitVec.getLsbD_ofNat, Nat.testBit_two_pow_add_eq,
      Nat.testBit_lt_two_pow hc]
    rfl

/-- An occurrence of an enabled event sets its pending bit, and no pending bit clears. -/
theorem rb_raiseEvent (v : Vol) (p : Nat) {i : Nat} (hi : i < 32) (n : Nat) :
    rb (raiseEvent v p i) (aEvPend p) n = (rb v (aEvPend p) n || (rb v (aEvEn p) i && decide (i = n))) := by
  rw [rb, rg_raiseEvent]
  cases he : rb v (aEvEn p) i
  · simp [rb]
  · rw [if_pos ⟨rfl, rfl⟩, bit, BitVec.getLsbD_or, ← bit, ← bit, bit_bitWord, rb]
    by_cases h : i = n
    · subst h; simp [hi]
    · simp [h]

section
variable (v : Vol) {g : Nat} (cause : Nat) (hg : g < 16)
include hg

/-- The state in which a group has just latched, before forcing. -/
theorem latched_trips (hc : cause < 2 ^ 31) :
    let u := raiseEvent (tripRecord (rbSet v (ra pTrp 0x0A0) g true) g cause) pTrp g
    Trips v u ∧ (∀ n, rb u (ra pTrp 0x0A0) n = (rb v (ra pTrp 0x0A0) n || decide (g = n))) ∧ rb u (ra pTrp (0x0C0 + 4 * g)) 31 = true
      ∧ (rb v (aEvEn pTrp) g = true → rb u (aEvPend pTrp) g = true) := by
  intro u
  have hev {off : Nat} (ho : off ≠ 0x018) : rg u (ra pTrp off) = rg (tripRecord (rbSet v (ra pTrp 0x0A0) g true) g cause) (ra pTrp off) :=
    rg_raiseEvent_ne _ _ _ (by simp only [aEvPend, ra]; omega)
  have hset {off : Nat} (ho : off ≠ 0x0A0) : rg (rbSet v (ra pTrp 0x0A0) g true) (ra pTrp off) = rg v (ra pTrp off) :=
    rg_rbSet_ne _ _ _ (by simp only [ra]; omega)
  have hlatch (n : Nat) : rb u (ra pTrp 0x0A0) n = (rb v (ra pTrp 0x0A0) n || decide (g = n)) := by
    rw [rb, hev (by decide), rg_tripRecord_ne _ _ _ (by omega), ← rb, rb_rbSet_true _ _ (by omega)]
  have hpend (n : Nat) : rb u (aEvPend pTrp) n = (rb v (aEvPend pTrp) n || (rb v (aEvEn pTrp) g && decide (g = n))) := by
    have hrest {off : Nat} (ho : off < 0x0A0) :
        rg (tripRecord (rbSet v (ra pTrp 0x0A0) g true) g cause) (ra pTrp off) = rg v (ra pTrp off) := by
      rw [rg_tripRecord_ne _ _ _ (by omega), hset (by omega)]
    rw [rb_raiseEvent _ _ (by omega), rb, rb, rb, rb, hrest (by decide), hrest (by decide)]
  have hnoted : rb u (ra pTrp (0x0C0 + 4 * g)) 31 = true := by
    rw [rb, hev (by omega), ← rb, tripRecord_noted _ g hc]
  have houts : u.outs = v.outs := by rw [raiseEvent_outs, tripRecord_outs, rbSet, if_pos rfl]; rfl
  refine ⟨⟨?_, by rw [houts], by rw [houts], ?_, ?_, ?_⟩, hlatch, hnoted, ?_⟩
  · have hrec {off : Nat} (h0 : 0x0C0 ≤ off) (h1 : off < 0x180) : LatchRegs (ra pTrp off) := by
      simp only [LatchRegs, ra, pTrp]; omega
    refine ((touches_rbSet v g true (.inr (.inl rfl))).trans ?_).trans (touches_raiseEvent _ g (.inr (.inr (.inl rfl))))
    unfold tripRecord
    extract_lets w1 w2
    exact touches_ite (.refl _ _) (((touches_rgSet _ _ (hrec (by omega) (by omega))).trans
      (touches_rgSet w1 _ (hrec (by omega) (by omega)))).trans (touches_rgSet w2 _ (hrec (by omega) (by omega))))
  · intro n hn
    rw [hlatch, hn, Bool.true_or]
  · intro n hn
    rw [hpend, hn, Bool.true_or]
  · intro g' hg' hn
    by_cases h : g' = g
    · rw [h]; exact hnoted
    · rw [rb, hev (by omega), rg_tripRecord_ne _ _ _ (by omega), hset (by omega)]; exact hn
  · intro he
    rw [hpend, he]; simp

/-- Latching keeps what is latched, and latches its group (R345). -/
theorem tripLatch_trips (hc : cause < 2 ^ 31) : Trips v (tripLatch v g cause) := by
  rw [tripLatch_eq]
  split
  · exact .refl v
  · exact (latched_trips v cause hg hc).1.trans (.of_forces (tripForce_forces _))

theorem tripLatch_latch (hc : cause < 2 ^ 31) (n : Nat) :
    rb (tripLatch v g cause) (ra pTrp 0x0A0) n = (rb v (ra pTrp 0x0A0) n || decide (g = n)) := by
  rw [tripLatch_eq]
  split
  · next hl =>
    by_cases hn : g = n
    · subst hn; rw [hl, Bool.true_or]
    · simp [hn]
  · obtain ⟨-, hl, -, -⟩ := latched_trips v cause hg hc
    rw [(tripForce_touches _).rb_eq (not_outRegs_trp (by decide)), hl n]

theorem tripLatch_latched (hc : cause < 2 ^ 31) : rb (tripLatch v g cause) (ra pTrp 0x0A0) g = true := by
  rw [tripLatch_latch v cause hg hc]; simp

end

/-- A group that is latched has its record and, enabled, its pending event. -/
def LatchNoted (v : Vol) (g : Nat) : Prop := rb v (ra pTrp 0x0A0) g = true →
  rb v (ra pTrp (0x0C0 + 4 * g)) 31 = true ∧ (rb v (aEvEn pTrp) g = true → rb v (aEvPend pTrp) g = true)

theorem Trips.latchNoted {u u' : Vol} (h : Trips u u') {g : Nat} (hg : g < 16) (hn : LatchNoted u g)
    (hl : rb u' (ra pTrp 0x0A0) g = true → rb u (ra pTrp 0x0A0) g = true) : LatchNoted u' g := by
  intro hu
  obtain ⟨hrec, hev⟩ := hn (hl hu)
  refine ⟨h.noted g hg hrec, fun he => h.pend g (hev ?_)⟩
  rw [rb, ← h.rg_cfg (by omega)]; exact he

/-- A group that latches has both, and the others keep theirs. -/
theorem tripLatch_noted (v : Vol) {g g' cause : Nat} (hg : g < 16) (hg' : g' < 16) (hc : cause < 2 ^ 31) (hn : LatchNoted v g') :
    LatchNoted (tripLatch v g cause) g' := by
  by_cases hl : rb v (ra pTrp 0x0A0) g = true
  · rw [tripLatch_eq, if_pos hl]; exact hn
  · have ht := tripLatch_trips v cause hg hc
    by_cases hgg : g' = g
    · subst hgg
      obtain ⟨hu, -, hrec, hev⟩ := latched_trips v cause hg hc
      have hf := Trips.of_forces (tripForce_forces (raiseEvent (tripRecord (rbSet v (ra pTrp 0x0A0) g' true) g' cause) pTrp g'))
      rw [tripLatch_eq, if_neg hl]
      refine fun _ => ⟨hf.noted g' hg' hrec, fun he => hf.pend g' (hev ?_)⟩
      rw [rb, ← (hu.trans hf).rg_cfg (by omega)]; exact he
    · refine ht.latchNoted hg' hn fun h => ?_
      simpa [tripLatch_latch v cause hg hc, Ne.symm hgg] using h

/-! ### A look at the inputs -/

/-- What trip input i shows in TRP_IN after a look at the inputs (R344, R352). -/
def senses (v : Vol) (i : Nat) : Bool := if i < 16 then cmpNext v i else tripState v i

/-- The part of a look before any group latches: TAPLOST, the comparators and TRP_IN. -/
def tripSense (v : Vol) : Vol :=
  let gone : BitVec 16 := BitVec.ofNat 16 ((List.range 16).map fun i => b2n (tapLost v i) * 2 ^ i).sum
  let v := if gone &&& ~~~v.outs.tapGone = 0 then v else setFault v pTrp 3
  let cmps : BitVec 16 := BitVec.ofNat 16 ((List.range 16).map fun i => b2n (cmpNext v i) * 2 ^ i).sum
  let v := { v with outs := { v.outs with tapGone := gone, cmpIn := cmps } }
  let ins := ((List.range 24).map fun i => b2n (tripState v i) * 2 ^ i).sum
  rgSet v (ra pTrp 0x0A8) (BitVec.ofNat 32 ins)

/-- Each input in its trip state latches its group. -/
def tripInputs (v : Vol) (l : List Nat) : Vol := l.foldl (fun v i => if tripState v i then tripLatch v (tripGroup v i) i else v) v

theorem tripEval_eq (v : Vol) (h : domUp v 25 = true) : tripEval v = tripForce (tripInputs (tripSense v) (List.range 24)) := by
  unfold tripEval tripInputs tripSense
  rw [if_neg (by rw [h]; decide)]

theorem tripInputs_spec {l : List Nat} (hl : ∀ i ∈ l, i < 24) (v : Vol) : Trips v (tripInputs v l)
    ∧ (∀ g, g < 16 → LatchNoted v g → LatchNoted (tripInputs v l) g)
    ∧ ∀ i ∈ l, tripState v i = true → rb (tripInputs v l) (ra pTrp 0x0A0) (tripGroup v i) = true := by
  induction l generalizing v with
  | nil => exact ⟨.refl v, fun _ _ h => h, fun i hi => by cases hi⟩
  | cons j l ih =>
    have hj : j < 24 := hl j List.mem_cons_self
    have hjg := tripGroup_lt v j
    have hstep : tripInputs v (j :: l) = tripInputs (if tripState v j then tripLatch v (tripGroup v j) j else v) l := rfl
    have hfirst : Trips v (if tripState v j then tripLatch v (tripGroup v j) j else v) := by
      split
      · exact tripLatch_trips v j hjg (by omega)
      · exact .refl v
    have hnote (g : Nat) (hg : g < 16) (hn : LatchNoted v g) :
        LatchNoted (if tripState v j then tripLatch v (tripGroup v j) j else v) g := by
      split
      · exact tripLatch_noted v hjg hg (by omega) hn
      · exact hn
    have hlatch (hs : tripState v j = true) :
        rb (if tripState v j then tripLatch v (tripGroup v j) j else v) (ra pTrp 0x0A0) (tripGroup v j) = true := by
      rw [if_pos hs]; exact tripLatch_latched v j hjg (by omega)
    rw [hstep]
    generalize (if tripState v j then tripLatch v (tripGroup v j) j else v) = u at hfirst hnote hlatch
    obtain ⟨ht, hn, hs⟩ := ih (fun i hi => hl i (List.mem_cons_of_mem _ hi)) u
    refine ⟨hfirst.trans ht, fun g hg h => hn g hg (hnote g hg h), fun i hi hsi => ?_⟩
    rcases List.mem_cons.mp hi with rfl | hi
    · exact ht.latch _ (hlatch hsi)
    · have hi24 := hl i (List.mem_cons_of_mem _ hi)
      rw [← hfirst.tripGroup_eq hi24]
      exact hs i hi (by rw [hfirst.tripState_eq hi24]; exact hsi)

end Sys2Proof.Machine
end

section
/-! PROOFS. A look at the trip inputs (for O38): its senses, the latching of the inputs in their trip state, and forcing. -/

namespace Sys2Proof.Machine

/-! ### The senses -/

/-- The registers that the senses write: TRP_IN and FAULT. -/
def SenseRegs (a : Nat) : Prop := a = ra pTrp 0x0A8 ∨ a = aFault pTrp

theorem not_senseRegs {off : Nat} (h1 : off ≠ 0x0A8) (h2 : off ≠ 0x020) : ¬ SenseRegs (ra pTrp off) := by
  simp only [SenseRegs, aFault, ra]; omega

section
variable {v v' : Vol} (h : Touches SenseRegs v v')
include h

theorem tripCfg_senses {i : Nat} (hi : i < 24) : tripCfg v' i = tripCfg v i := by
  unfold tripCfg
  split
  · exact h.regs _ (not_senseRegs (by omega) (by omega))
  · exact h.regs _ (not_senseRegs (by omega) (by omega))

theorem tripEnabled_senses {i : Nat} (hi : i < 24) : tripEnabled v' i = tripEnabled v i := by
  simp only [tripEnabled, tripCfg_senses h hi]

theorem tripGroup_senses {i : Nat} (hi : i < 24) : tripGroup v' i = tripGroup v i := by
  simp only [tripGroup, tripCfg_senses h hi]

theorem tapLost_senses {i : Nat} (hi : i < 16) : tapLost v' i = tapLost v i := by
  have hd (p : Nat) : domUp v' (pageDom p) = domUp v (pageDom p) :=
    h.domUp_eq (fun a ha => by simp only [SenseRegs, aFault, ra, pTrp] at ha; omega) (pageDom_lt p)
  have hctl (p : Nat) : rb v' (aCtl p) 0 = rb v (aCtl p) 0 := h.rb_eq (by simp only [SenseRegs, aCtl, aFault, ra]; omega) 0
  have hch (p ch : Nat) : rf v' (ra p (0x100 + 0x40 * (ch % 8))) 3 0 = rf v (ra p (0x100 + 0x40 * (ch % 8))) 3 0 :=
    h.rf_eq (by simp only [SenseRegs, aFault, ra]; omega) 3 0
  simp only [tapLost, tripCfg_senses h (by omega : i < 24), hd, hctl, hch]

theorem cmpNext_senses (ho : v'.outs = v.outs) {i : Nat} (hi : i < 16) : cmpNext v' i = cmpNext v i := by
  have h24 : i < 24 := by omega
  simp only [cmpNext, cmpLevel, tripEnabled_senses h h24, tapLost_senses h hi, tripCfg_senses h h24, ho]

end

theorem tripSense_spec (v : Vol) : Touches SenseRegs v (tripSense v) ∧ (tripSense v).outs.digLvl = v.outs.digLvl
    ∧ (∀ i, i < 16 → (tripSense v).outs.cmpIn.getLsbD i = cmpNext v i)
    ∧ ∀ i, i < 24 → rb (tripSense v) (ra pTrp 0x0A8) i = tripState (tripSense v) i := by
  unfold tripSense
  extract_lets gone v1 cmps o v2 ins
  have h1 : Touches SenseRegs v v1 := touches_ite (.refl _ v) (touches_setFault v 3 (.inr rfl))
  have ho1 : v1.outs = v.outs := by
    show (if gone &&& ~~~v.outs.tapGone = 0 then v else setFault v pTrp 3).outs = _
    split <;> rfl
  have h2 : Touches SenseRegs v1 v2 := touches_outs v1 _
  have h3 : Touches SenseRegs v2 (rgSet v2 (ra pTrp 0x0A8) (BitVec.ofNat 32 ins)) := touches_rgSet v2 _ (.inl rfl)
  have hstate (i : Nat) (hi : i < 24) : tripState (rgSet v2 (ra pTrp 0x0A8) (BitVec.ofNat 32 ins)) i = tripState v2 i := by
    simp only [tripState, tripEnabled_senses h3 hi, tripCfg_senses h3 hi, rgSet_outs]
  have hcmps (i : Nat) (hi : i < 16) : cmps.getLsbD i = cmpNext v i := by
    rw [BitVec.getLsbD_ofNat, testBit_gather, cmpNext_senses h1 ho1 hi]
    simp [hi]
  have hins (i : Nat) (hi : i < 24) : rb (rgSet v2 (ra pTrp 0x0A8) (BitVec.ofNat 32 ins)) (ra pTrp 0x0A8) i = tripState v2 i := by
    rw [rb, rg_rgSet_same, bit, BitVec.getLsbD_ofNat, testBit_gather]
    simp [hi, show i < 32 by omega]
  clear_value ins cmps gone v1
  refine ⟨(h1.trans h2).trans h3, ?_, hcmps, fun i hi => ?_⟩
  · rw [rgSet_outs]
    have h : v2.outs.digLvl = v1.outs.digLvl := rfl
    rw [h, ho1]
  · rw [hins i hi, hstate i hi]

theorem tripState_tripSense (v : Vol) {i : Nat} (hi : i < 24) : tripState (tripSense v) i = senses v i := by
  obtain ⟨ht, hdig, hcmp, -⟩ := tripSense_spec v
  unfold tripState senses
  rw [tripEnabled_senses ht hi, tripCfg_senses ht hi, hdig]
  split
  · next h16 =>
    rw [hcmp i h16]
    cases he : tripEnabled v i
    · simp [cmpNext, he]
    · simp
  · next h16 => simp [tripState, h16]

/-! ### A look at the inputs -/

section
variable {v : Vol} (hd : domUp v 25 = true)
include hd

/-- Before forcing: the inputs have latched their groups. -/
theorem tripEval_from : ∃ u, tripEval v = tripForce u ∧ Trips (tripSense v) u
    ∧ (∀ g, g < 16 → LatchNoted (tripSense v) g → LatchNoted u g)
    ∧ ∀ i, i < 24 → senses v i = true → rb u (ra pTrp 0x0A0) (tripGroup v i) = true := by
  obtain ⟨ht, hn, hs⟩ := tripInputs_spec (l := List.range 24) (fun i hi => List.mem_range.mp hi) (tripSense v)
  refine ⟨_, tripEval_eq v hd, ht, hn, fun i hi h => ?_⟩
  rw [← tripGroup_senses (tripSense_spec v).1 hi]
  exact hs i (List.mem_range.mpr hi) (by rw [tripState_tripSense v hi]; exact h)

/-- TRP_IN shows the senses. -/
theorem tripEval_in {i : Nat} (hi : i < 24) : rb (tripEval v) (ra pTrp 0x0A8) i = senses v i := by
  obtain ⟨u, he, hu, -, -⟩ := tripEval_from hd
  have hnot : ¬ LatchRegs (ra pTrp 0x0A8) := by simp only [LatchRegs, OutRegs, aEvPend, ra, pTrp]; omega
  rw [he, (tripForce_touches u).rb_eq (not_outRegs_trp (by decide)), hu.touches.rb_eq hnot, (tripSense_spec v).2.2.2 i hi,
    tripState_tripSense v hi]

/-- No latch clears. -/
theorem tripEval_keeps {n : Nat} (hn : rb v (ra pTrp 0x0A0) n = true) : rb (tripEval v) (ra pTrp 0x0A0) n = true := by
  obtain ⟨u, he, hu, -, -⟩ := tripEval_from hd
  rw [he, (tripForce_touches u).rb_eq (not_outRegs_trp (by decide))]
  refine hu.latch n ?_
  rw [(tripSense_spec v).1.rb_eq (not_senseRegs (by decide) (by decide))]; exact hn

/-- An input in its trip state latches its group. -/
theorem tripEval_latches {i : Nat} (hi : i < 24) (hs : senses v i = true) : rb (tripEval v) (ra pTrp 0x0A0) (tripGroup v i) = true := by
  obtain ⟨u, he, -, -, hl⟩ := tripEval_from hd
  rw [he, (tripForce_touches u).rb_eq (not_outRegs_trp (by decide))]
  exact hl i hi hs

/-- A group that was not latched and is has its record and its event. -/
theorem tripEval_noted {g : Nat} (hg : g < 16) (hl : rb v (ra pTrp 0x0A0) g = false) : LatchNoted (tripEval v) g := by
  obtain ⟨u, he, -, hn, -⟩ := tripEval_from hd
  have h0 : LatchNoted (tripSense v) g := fun h => by
    rw [(tripSense_spec v).1.rb_eq (not_senseRegs (by decide) (by decide)), hl] at h
    exact absurd h Bool.false_ne_true
  have hf := tripForce_forces u
  rw [he]
  refine (Trips.of_forces hf).latchNoted hg (hn g hg h0) fun h => ?_
  rw [← hf.touches.rb_eq (not_outRegs_trp (by decide))]; exact h

/-- The outputs that a latched group masks are held. -/
theorem tripEval_holds {g o : Nat} (hg : g < 16) (hl : rb (tripEval v) (ra pTrp 0x0A0) g = true)
    (ho : (tripMask v g).getLsbD o = true) : tripHeld (tripEval v) o = true := by
  obtain ⟨u, he, hu, -, -⟩ := tripEval_from hd
  rw [he] at hl ⊢
  rw [(tripForce_touches u).rb_eq (not_outRegs_trp (by decide))] at hl
  refine tripForce_wanted u (tripMask_wanted u hg hl ?_)
  have hreg (i : Nat) (hi : i < 4) : rg u (ra pTrp (0x180 + 16 * g + 4 * i)) = rg v (ra pTrp (0x180 + 16 * g + 4 * i)) :=
    (hu.rg_cfg (by omega)).trans ((tripSense_spec v).1.regs _ (not_senseRegs (by omega) (by omega)))
  have hm : tripMask u g = tripMask v g := by
    simp only [tripMask, hreg 0 (by decide), hreg 1 (by decide), hreg 2 (by decide), hreg 3 (by decide)]
  rw [hm]; exact ho

end

/-! ### An input moves -/

/-- The levels after input i has moved (R344). -/
def movedOuts (v : Vol) (i : Nat) (level : Int) (held : Nat) : Outs :=
  let o := v.outs
  let c := tripCfg v i
  if i < 16 then
    (if bit c 15 then { o with pga := smapSet (fun _ => 0) o.pga (fld c 23 16) level }
      else { o with tripa := smapSet (fun _ => 0) o.tripa i level })
  else if held < tripFilter v (i - 16) then o
  else
    let b : BitVec 8 := BitVec.ofNat 8 (2 ^ (i - 16))
    { o with digLvl := if 0 < level then o.digLvl ||| b else o.digLvl &&& ~~~b }

/-- The state in which the inputs are looked at again. -/
def tripMoved (v : Vol) (i : Nat) (level : Int) (held : Nat) : Vol := { v with outs := movedOuts v i level held }

theorem tripInput_eq (v : Vol) (i : Nat) (level : Int) (held : Nat) : tripInput v i level held = tripEval (tripMoved v i level held) := rfl

theorem tripMoved_touches (W : Nat → Prop) (v : Vol) (i : Nat) (level : Int) (held : Nat) : Touches W v (tripMoved v i level held) :=
  touches_outs v _

theorem tripMoved_outs (v : Vol) (i : Nat) (level : Int) (held : Nat) : (tripMoved v i level held).outs = movedOuts v i level held := rfl

section
variable (v : Vol) {i : Nat} (x : Int) (held : Nat)

theorem tripMoved_cfg (j : Nat) : tripCfg (tripMoved v i x held) j = tripCfg v j := rfl

/-- A comparator sees the level its source has moved to. -/
theorem senses_cmp (hi : i < 16) : senses (tripMoved v i x held) i =
    (tripEnabled v i && (tapLost v i || cmpBeyond (tripCfg v i) x || (v.outs.cmpIn.getLsbD i && !cmpBack (tripCfg v i) x))) := by
  have hlevel : cmpLevel (tripMoved v i x held) i = x := by
    unfold cmpLevel
    rw [tripMoved_cfg, tripMoved_outs]
    by_cases hb : bit (tripCfg v i) 15 = true
    · simp only [movedOuts, if_pos hi, if_pos hb, smapGet_set_same]
    · simp only [movedOuts, if_pos hi, if_neg hb, smapGet_set_same]
  have hcmp : (movedOuts v i x held).cmpIn = v.outs.cmpIn := by
    unfold movedOuts
    rw [if_pos hi]
    split <;> rfl
  have hen : tripEnabled (tripMoved v i x held) i = tripEnabled v i := rfl
  have htap : tapLost (tripMoved v i x held) i = tapLost v i := rfl
  rw [senses, if_pos hi, cmpNext, hlevel, tripMoved_cfg, tripMoved_outs, hcmp, hen, htap]

/-- A digital input whose filter the level has passed compares it with the polarity. -/
theorem senses_dig (h16 : ¬ i < 16) (hi : i < 24) (hf : tripFilter v (i - 16) ≤ held) :
    senses (tripMoved v i x held) i = (tripEnabled v i && (decide (0 < x) == bit (tripCfg v i) 1)) := by
  have hdig : (movedOuts v i x held).digLvl.getLsbD (i - 16) = decide (0 < x) := by
    have hb : (BitVec.ofNat 8 (2 ^ (i - 16))).getLsbD (i - 16) = true := by
      rw [BitVec.getLsbD_ofNat, Nat.testBit_two_pow]; simp; omega
    unfold movedOuts
    rw [if_neg h16, if_neg (by omega)]
    dsimp only
    split
    · next hx => rw [BitVec.getLsbD_or, hb, Bool.or_true, decide_eq_true hx]
    · next hx => rw [BitVec.getLsbD_and, BitVec.getLsbD_not, hb, decide_eq_false hx]; simp
  have hen : tripEnabled (tripMoved v i x held) i = tripEnabled v i := rfl
  rw [senses, if_neg h16, tripState, if_neg h16, tripMoved_cfg, tripMoved_outs, hdig, hen]

/-- One whose filter it has not passed shows what it did. -/
theorem senses_filtered (h16 : ¬ i < 16) (hf : held < tripFilter v (i - 16)) : senses (tripMoved v i x held) i = tripState v i := by
  have ho : tripMoved v i x held = v := by rw [tripMoved, movedOuts, if_neg h16, if_pos hf]
  rw [ho, senses, if_neg h16]

end

/-! ### What an input that moves leaves -/

section
variable {v : Vol} {i : Nat} (x : Int) (held : Nat)

theorem tripMoved_domUp (d : Nat) : domUp (tripMoved v i x held) d = domUp v d := rfl
theorem tripMoved_rb (a n : Nat) : rb (tripMoved v i x held) a n = rb v a n := rfl
theorem tripMoved_mask (g : Nat) : tripMask (tripMoved v i x held) g = tripMask v g := rfl
theorem tripMoved_group (j : Nat) : tripGroup (tripMoved v i x held) j = tripGroup v j := rfl

theorem tripInput_touches (v : Vol) (i : Nat) : Touches TripRegs v (tripInput v i x held) := by
  rw [tripInput_eq]
  exact (tripMoved_touches _ v i x held).trans (tripEval_touches _)

variable (hd : domUp v 25 = true)
include hd

theorem tripInput_in (hi : i < 24) : rb (tripInput v i x held) (ra pTrp 0x0A8) i = senses (tripMoved v i x held) i := by
  rw [tripInput_eq]
  rw [← tripMoved_domUp x held (i := i)] at hd
  exact tripEval_in hd hi

theorem tripInput_keeps {n : Nat} (hn : rb v (ra pTrp 0x0A0) n = true) : rb (tripInput v i x held) (ra pTrp 0x0A0) n = true := by
  rw [tripInput_eq]
  rw [← tripMoved_domUp x held (i := i)] at hd
  rw [← tripMoved_rb x held (i := i)] at hn
  exact tripEval_keeps hd hn

theorem tripInput_latches (hi : i < 24) (hs : senses (tripMoved v i x held) i = true) :
    rb (tripInput v i x held) (ra pTrp 0x0A0) (tripGroup v i) = true := by
  rw [tripInput_eq]
  rw [← tripMoved_domUp x held (i := i)] at hd
  rw [← tripMoved_group x held (i := i)]
  exact tripEval_latches hd hi hs

theorem tripInput_noted {g : Nat} (hg : g < 16) (hl : rb v (ra pTrp 0x0A0) g = false) : LatchNoted (tripInput v i x held) g := by
  rw [tripInput_eq]
  rw [← tripMoved_domUp x held (i := i)] at hd
  rw [← tripMoved_rb x held (i := i)] at hl
  exact tripEval_noted hd hg hl

theorem tripInput_holds {g o : Nat} (hg : g < 16) (hl : rb (tripInput v i x held) (ra pTrp 0x0A0) g = true)
    (ho : (tripMask v g).getLsbD o = true) : tripHeld (tripInput v i x held) o = true := by
  rw [tripInput_eq] at hl ⊢
  rw [← tripMoved_domUp x held (i := i)] at hd
  rw [← tripMoved_mask x held (i := i)] at ho
  exact tripEval_holds hd hg hl ho

end

/-- What has come HYST back is not beyond the threshold. -/
theorem cmpBeyond_of_back {c : Word} {x : Int} (h : cmpBack c x = true) : cmpBeyond c x = false := by
  have hh : 0 ≤ cmpHyst c := Int.natCast_nonneg _
  unfold cmpBack at h
  unfold cmpBeyond
  split at h <;> rename_i hb
  · rw [if_pos hb]
    have := of_decide_eq_true h
    exact decide_eq_false (by omega)
  · rw [if_neg hb]
    have := of_decide_eq_true h
    exact decide_eq_false (by omega)

end Sys2Proof.Machine
end

section
/-! PROOFS. Releases of trips and writes of the trip matrix, and the trips together (O38). -/

namespace Sys2Proof.Machine

/-! ### A release -/

/-- Whether an input of the group is in its trip state, so that its release is refused (R347). -/
def releaseRefused (v : Vol) (g : Nat) : Bool := (List.range 24).any fun i => tripState v i && tripGroup v i == g

/-- What a release request does of one group. -/
def releaseGroup (w : Word) (v : Vol) (g : Nat) : Vol :=
  if !bit w g then v else if releaseRefused v g then setFault v pTrp 0 else rbSet v (ra pTrp 0x0A0) g false

theorem tripClear_eq (v : Vol) (w : Word) : tripClear v w = (List.range 16).foldl (releaseGroup w) v := rfl

theorem releaseRefused_iff {v : Vol} {g : Nat} :
    releaseRefused v g = true ↔ ∃ n, n < 24 ∧ tripState v n = true ∧ tripGroup v n = g := by
  simp [releaseRefused]

/-- The registers that a release writes: TRP_LATCH and FAULT. -/
def ReleaseRegs (a : Nat) : Prop := a = ra pTrp 0x0A0 ∨ a = aFault pTrp

theorem releaseGroup_touches (w : Word) (v : Vol) (g : Nat) : Touches ReleaseRegs v (releaseGroup w v g) :=
  touches_ite (.refl _ v) (touches_ite (touches_setFault v 0 (.inr rfl)) (touches_rbSet v g false (.inl rfl)))

theorem releaseGroup_outs (w : Word) (v : Vol) (g : Nat) : (releaseGroup w v g).outs = v.outs := by
  unfold releaseGroup
  split
  · rfl
  · split <;> rfl

/-- A release changes no input. -/
theorem releaseRefused_releaseGroup (w : Word) (v : Vol) (g n : Nat) : releaseRefused (releaseGroup w v g) n = releaseRefused v n := by
  have hcfg (i : Nat) (hi : i < 24) : tripCfg (releaseGroup w v g) i = tripCfg v i := by
    have hreg {off : Nat} (h1 : off ≠ 0x0A0) (h2 : off ≠ 0x020) : rg (releaseGroup w v g) (ra pTrp off) = rg v (ra pTrp off) :=
      (releaseGroup_touches w v g).regs _ (by simp only [ReleaseRegs, aFault, ra]; omega)
    unfold tripCfg
    split
    · exact hreg (by omega) (by omega)
    · exact hreg (by omega) (by omega)
  have hstate (i : Nat) (hi : i < 24) : tripState (releaseGroup w v g) i = tripState v i := by
    simp only [tripState, tripEnabled, hcfg i hi, releaseGroup_outs]
  refine Bool.eq_iff_iff.mpr ?_
  rw [releaseRefused_iff, releaseRefused_iff]
  refine exists_congr fun i => and_congr_right fun hi => ?_
  rw [hstate i hi, tripGroup, tripGroup, hcfg i hi]

theorem releaseGroup_latch (w : Word) (v : Vol) (g : Nat) {n : Nat} (hn : n < 32) : rb (releaseGroup w v g) (ra pTrp 0x0A0) n =
    (rb v (ra pTrp 0x0A0) n && !(decide (g = n) && bit w g && !releaseRefused v g)) := by
  unfold releaseGroup
  cases hb : bit w g
  · simp
  · cases hr : releaseRefused v g
    · simp [rb_rbSet_false _ _ _ hn]
    · have h : rg (setFault v pTrp 0) (ra pTrp 0x0A0) = rg v (ra pTrp 0x0A0) := rg_rgSet_off _ _ (by decide)
      simp [rb, h]

theorem releaseGroup_fault (w : Word) (v : Vol) (g : Nat) : rb (releaseGroup w v g) (aFault pTrp) 0 =
    (rb v (aFault pTrp) 0 || (bit w g && releaseRefused v g)) := by
  unfold releaseGroup
  cases hb : bit w g
  · simp
  · cases hr : releaseRefused v g
    · simp [rb, rg_rbSet_ne]
    · rw [rb, setFault, rgOr]
      simp [rb]

/-- The latches after a release of the groups of a list. -/
theorem release_latch (w : Word) (l : List Nat) (v : Vol) {n : Nat} (hn : n < 32) :
    rb (l.foldl (releaseGroup w) v) (ra pTrp 0x0A0) n
      = (rb v (ra pTrp 0x0A0) n && !(decide (n ∈ l) && bit w n && !releaseRefused v n)) := by
  induction l generalizing v with
  | nil => simp
  | cons g l ih =>
    rw [List.foldl_cons, ih, releaseRefused_releaseGroup, releaseGroup_latch w v g hn]
    by_cases h : g = n
    · subst h; simp [Bool.and_assoc]; cases rb v (ra pTrp 0x0A0) g <;> cases bit w g <;> cases releaseRefused v g <;> simp
    · simp [h, Ne.symm h]

theorem release_fault (w : Word) (l : List Nat) (v : Vol) {n : Nat} (hn : n ∈ l) (hb : bit w n = true) (hr : releaseRefused v n = true) :
    rb (l.foldl (releaseGroup w) v) (aFault pTrp) 0 = true := by
  have mono : ∀ (l : List Nat) (v : Vol), rb v (aFault pTrp) 0 = true → rb (l.foldl (releaseGroup w) v) (aFault pTrp) 0 = true := by
    intro l
    induction l with
    | nil => exact fun _ h => h
    | cons g l ih => exact fun v h => ih _ (by rw [releaseGroup_fault, h, Bool.true_or])
  induction l generalizing v with
  | nil => cases hn
  | cons g l ih =>
    rcases List.mem_cons.mp hn with rfl | hn
    · exact mono l _ (by rw [releaseGroup_fault, hb, hr]; simp)
    · exact ih _ hn (by rw [releaseRefused_releaseGroup]; exact hr)

/-! ### Writes of the trip matrix -/

theorem pageWrite_trp (nv : Nv) (v : Vol) (inf : PageInfo) (m off : Nat) (w : Word) (hp : pageInfo pTrp = some inf)
    (hspec : (specAt pTrp off).isSome = true) (hoff : off < 0x1000) (h1 : off ≠ 0x01C) (h8 : off ≠ 0x008) :
    pageWrite nv v inf m pTrp off .direct (TWord.ofWord w) = trpWrite v off .direct w := by
  have hblk : inf.blk = .trp := blk_of_page hp (by decide +kernel)
  rw [pageWrite_block _ _ _ _ _ _ _ _ (stageChan_ra_none hoff (by decide)) hspec h1 (fun h => absurd h h8) (fun _ => by decide)]
  simp [blockWrite, hblk]

theorem exec_trpClear_open (s : State) (m : Fin 16) (w : Word) (ho : pageOpen s.vol m pTrp = true) :
    exec (.trpClear m w) s = .next (performed s m (ra pTrp 0x0A4) w (tripClear s.vol w)) := by
  obtain ⟨inf, hp⟩ := pageOpen_info ho
  have hw := pageWrite_trp s.nv s.vol inf m 0x0A4 w hp (by decide +kernel) (by decide) (by decide) (by decide)
  simp only [exec, execTrpClear, onVol]
  rw [wr_open s.nv s.vol m pTrp 0x0A4 w inf hp ho (by decide) (by decide), hw]
  rfl

theorem exec_trpLock_open (s : State) (m : Fin 16) (w : Word) (ho : pageOpen s.vol m pTrp = true) :
    exec (.trpLock m w) s = .next (performed s m (ra pTrp 0x0B0) w (trpWrite s.vol 0x0B0 .direct w)) := by
  obtain ⟨inf, hp⟩ := pageOpen_info ho
  have hw := pageWrite_trp s.nv s.vol inf m 0x0B0 w hp (by decide +kernel) (by decide) (by decide) (by decide)
  simp only [exec, execTrpLock, onVol]
  rw [wr_open s.nv s.vol m pTrp 0x0B0 w inf hp ho (by decide) (by decide), hw]
  rfl

/-- The bit of TRP_LOCK that a write may still take, which is its one write (R11). -/
def lockOpen (v : Vol) : Word := BitVec.ofNat 32 1 &&& ~~~(smapGet (fun _ => 0) v.rwoUsed (ra pTrp 0x0B0))

theorem regWrite_lock (v : Vol) (w : Word) : ∃ u, regWrite v pTrp 0x0B0 .direct w =
    { rgSet v (ra pTrp 0x0B0) ((rg v (ra pTrp 0x0B0) &&& ~~~(lockOpen v)) ||| (w &&& lockOpen v)) with rwoUsed := u } := by
  have hspec : specAt pTrp 0x0B0 = some ⟨0x0B0, 4, 1, 0, 0, 1, 0, []⟩ := by decide +kernel
  have hval : writeValue ⟨0x0B0, 4, 1, 0, 0, 1, 0, []⟩ .direct (rg v (ra pTrp 0x0B0)) (smapGet (fun _ => 0) v.rwoUsed (ra pTrp 0x0B0)) w
      = ((rg v (ra pTrp 0x0B0) &&& ~~~(lockOpen v)) ||| (w &&& lockOpen v), 0, lockOpen v) := by
    have hone (x : Word) : x &&& 4294967295#32 = x := BitVec.and_allOnes
    simp [writeValue, rejectFields, lockOpen, hone]
  unfold regWrite
  rw [hspec]
  dsimp only
  rw [hval]
  dsimp only
  rw [if_pos rfl]
  split
  · exact ⟨v.rwoUsed, rfl⟩
  · exact ⟨_, rfl⟩

/-- What TRP_LOCK takes: its one bit, once (R11, R350). -/
theorem trpLock_spec (v : Vol) (w : Word) : let v' := trpWrite v 0x0B0 .direct w
    rb v' (ra pTrp 0x0B0) 0 = (if bit (smapGet (fun _ => 0) v.rwoUsed (ra pTrp 0x0B0)) 0 then rb v (ra pTrp 0x0B0) 0 else bit w 0)
      ∧ v'.sram = v.sram ∧ v'.cores = v.cores := by
  obtain ⟨u, hu⟩ := regWrite_lock v w
  have heq : trpWrite v 0x0B0 .direct w = tripEval (regWrite v pTrp 0x0B0 .direct w) := by
    unfold trpWrite
    rw [if_neg (by decide), if_neg (by decide)]
    dsimp only
    rw [if_neg (by simp [trpLocked])]
  have ht := tripEval_touches (regWrite v pTrp 0x0B0 .direct w)
  have hnot : ¬ TripRegs (ra pTrp 0x0B0) := by simp only [TripRegs, LatchRegs, OutRegs, aEvPend, aFault, ra, pTrp]; omega
  dsimp only
  rw [heq]
  refine ⟨?_, by rw [ht.sram, hu]; rfl, by rw [ht.cores, hu]; rfl⟩
  rw [ht.rb_eq hnot, hu, rb, rb]
  have hset (x : Word) : rg { rgSet v (ra pTrp 0x0B0) x with rwoUsed := u } (ra pTrp 0x0B0) = x := rg_rgSet_same v _ x
  rw [hset, lockOpen]
  cases hb : bit (smapGet (fun _ => 0) v.rwoUsed (ra pTrp 0x0B0)) 0 <;> simp [bit] at hb ⊢ <;> simp [hb]

/-- A locked setting keeps its value (R350). -/
theorem trpWrite_locked (v : Vol) {off : Nat} (via : Via) (w : Word) (hl : trpLocked v off = true)
    (ho : off ≠ 0x0A4 ∧ off ≠ 0x0AC ∧ off ≠ 0x020) : rg (trpWrite v off via w) (ra pTrp off) = rg v (ra pTrp off) := by
  obtain ⟨h1, h2, h3⟩ := ho
  unfold trpWrite
  rw [if_neg h1, if_neg h2]
  dsimp only
  rw [if_pos hl]
  split
  · assumption
  · exact rg_rgSet_off _ _ h3

end Sys2Proof.Machine

namespace Sys2Proof

open Sys2Proof.Machine

/-- Settles O38: an input that moves is looked at (`senses_cmp`, `senses_dig`), and the look latches, keeps and holds as `tripEval_latches`
and the lemmas beside it say; a release goes by `release_latch`. -/
theorem tripsLatchAndRelease : Obligations.TripsLatchAndRelease := by
  intro s m i g w x held v latch quiet c
  have hi := i.isLt
  have hg : g.val < 32 := by omega
  have hquiet : quiet (withVol s (tripInput v i x held)) :=
    ⟨withVol_nv s _, (tripInput_touches x held v i).sram, (tripInput_touches x held v i).cores⟩
  refine ⟨?_, ?_, ?_, ?_, ?_⟩
  · intro hd hen hgrp hl hin
    have hs : senses (tripMoved v i x held) i = true := by
      split at hin
      · next h16 => rw [senses_cmp v x held h16, hen, hin]; simp
      · next h16 => rw [senses_dig v x held h16 hi hin.1, hen, hin.2, beq_self_eq_true, Bool.and_true]
    have hlatch : rb (tripInput v i x held) (ra pTrp 0x0A0) g = true := hgrp ▸ tripInput_latches x held hd hi hs
    obtain ⟨hrec, hpend⟩ := tripInput_noted x held hd g.isLt hl hlatch
    have hen' : rb (tripInput v i x held) (aEvEn pTrp) g = rb v (aEvEn pTrp) g :=
      (tripInput_touches x held v i).rb_eq (by simp only [TripRegs, LatchRegs, OutRegs, aEvPend, aFault, aEvEn, ra, pTrp]; omega) g
    exact ⟨withVol s (tripInput v i x held), rfl, hlatch, (tripInput_in x held hd hi).trans hs, hrec, fun he => hpend (hen'.trans he),
      fun o _ ho => tripInput_holds x held hd g.isLt hlatch ho, hquiet⟩
  · intro hd hin
    refine ⟨withVol s (tripInput v i x held), rfl, (tripInput_in x held hd hi).trans ?_, fun n _ hn => tripInput_keeps x held hd hn, hquiet⟩
    split at hin
    · next h16 =>
      obtain ⟨htap, hback⟩ := hin
      rw [senses_cmp v x held h16, htap, cmpBeyond_of_back hback, hback]; simp
    · next h16 =>
      obtain ⟨hfilter, hlevel⟩ := hin
      rw [senses_dig v x held h16 hi hfilter, beq_eq_false_iff_ne.mpr hlevel, Bool.and_false]
  · intro hd hin
    refine ⟨withVol s (tripInput v i x held), rfl, (tripInput_in x held hd hi).trans ?_, hquiet⟩
    split at hin
    · next h16 =>
      obtain ⟨htap, hbeyond, hback⟩ := hin
      rw [senses_cmp v x held h16, htap, hbeyond, hback, tripState, if_pos h16]; simp
    · next h16 => exact senses_filtered v x held h16 hin
  · intro ho
    have hrel : latch (tripClear v w) g = (latch v g && !(bit w g && !releaseRefused v g)) := by
      have hmem : g.val ∈ List.range 16 := List.mem_range.mpr g.isLt
      rw [tripClear_eq]
      exact (release_latch w _ v hg).trans (by rw [decide_eq_true hmem, Bool.true_and])
    refine ⟨exec_trpClear_open s m w ho, fun hb hno => ?_, fun hb hyes => ?_, fun hb => ?_, trpWrite v 0x0B0 .direct w,
      exec_trpLock_open s m w ho, trpLock_spec v w⟩
    · have hr : releaseRefused v g = false := by
        rw [Bool.eq_false_iff, Ne, releaseRefused_iff]
        rintro ⟨n, hn, hs, hgrp⟩
        exact hno n hn hs hgrp
      rw [hrel, hb, hr]; simp
    · have hr : releaseRefused v g = true := releaseRefused_iff.mpr hyes
      exact ⟨by rw [hrel, hb, hr]; simp, release_fault w _ v (List.mem_range.mpr g.isLt) hb hr⟩
    · rw [hrel, hb]; simp
  · intro off via hl ho
    refine trpWrite_locked v via w ?_ (by omega)
    unfold trpLocked
    rw [hl, Bool.true_and]
    rcases ho with ⟨h0, h1⟩ | ⟨h0, h1⟩
    · simp [h0, h1]
    · simp [h0, h1]

end Sys2Proof
end

section
/-! PROOFS. Staging registers, Stoker's accumulators and budgets, and the phases of the valves (for O40). -/

namespace Sys2Proof.Machine

/-! ### Staging registers (R362) -/

/-- A staging register lies in the direct quarter of its page. -/
theorem stageChan_some {a i : Nat} (h : stageChan a = some i) :
    0x40000000 ≤ a ∧ a % 4 = 0 ∧ 0x040 ≤ a % 0x1000 ∧ a % 0x1000 < 0x400 := by
  unfold stageChan at h
  dsimp only at h
  split_ifs at h <;> omega

theorem addr_eq_ra {a : Nat} (h : 0x40000000 ≤ a) : a = ra (pageNo a) (a % 0x1000) := by
  simp only [ra, pageNo]; omega

theorem pageWrite_stage (nv : Nv) (v : Vol) (inf : PageInfo) (m p off : Nat) (via : Via) (w : TWord)
    (h : (stageChan (ra p off)).isSome = true) : pageWrite nv v inf m p off via w = stageWrite v m (ra p off) via w := if_pos h

section
variable (s : State) (m : Fin 16) (a : Word) (x : TWord) {i : Nat} (hst : stageChan a.toNat = some i)
  (ho : pageOpen s.vol m (pageNo a.toNat) = true)
include hst ho

theorem exec_stagingWrite_direct :
    exec (.stagingWrite m a x) s = .next (written s m a.toNat .word x 0 (stageWrite s.vol m a.toNat .direct x)) := by
  obtain ⟨hge, h4, -, hlt⟩ := stageChan_some hst
  obtain ⟨inf, hp⟩ := pageOpen_info ho
  have ha := addr_eq_ra hge
  have hbus := busWrite_open s.nv s.vol m (pageNo a.toNat) (a.toNat % 0x1000) x inf hp ho hlt (by omega)
  rw [pageWrite_stage _ _ _ _ _ _ _ _ (by rw [← ha, hst]; rfl), ← ha] at hbus
  simp only [exec, execStagingWrite, onVol]
  rw [hbus]
  rfl

theorem exec_stagingWrite_set : exec (.stagingWrite m (a + 0x400) x) s
    = .next (written s m (a.toNat + 0x400) .word x 0 (stageWrite s.vol m a.toNat .setBits x)) := by
  obtain ⟨hge, h4, -, hlt⟩ := stageChan_some hst
  obtain ⟨inf, hp⟩ := pageOpen_info ho
  have ha := addr_eq_ra hge
  have hnat : (a + 0x400).toNat = a.toNat + 0x400 := by
    have hlt := pageOpen_lt ho
    simp only [pageNo] at hlt
    have h400 : (0x400 : Word).toNat = 0x400 := rfl
    rw [BitVec.toNat_add, h400]
    omega
  have hbus := busWrite_open_set s.nv s.vol m (pageNo a.toNat) (a.toNat % 0x1000) x inf hp ho hlt (by omega)
  rw [pageWrite_stage _ _ _ _ _ _ _ _ (by rw [← ha, hst]; rfl), ← ha] at hbus
  simp only [exec, execStagingWrite, onVol]
  rw [hnat, hbus]
  rfl

end

theorem pendOf_setPend (v : Vol) (i : Nat) (w : TWord) (j : Nat) : pendOf (setPend v i w) j = if j = i then w else pendOf v j :=
  smapGet_set _ _ _ _ _

/-- A wide register gives each channel its bit, and changes nothing else. -/
theorem stage_spread (f : Nat → TWord) (i n : Nat) (v : Vol) :
    let v' := (List.range n).foldl (fun v j => setPend v (i + j) (f j)) v
    v' = { v with outs := { v.outs with pend := v'.outs.pend } }
      ∧ ∀ j, pendOf v' j = if i ≤ j ∧ j < i + n then f (j - i) else pendOf v j := by
  induction n with
  | zero => exact ⟨rfl, fun j => by rw [if_neg (by omega)]; rfl⟩
  | succ n ih =>
    simp only [List.range_succ, List.foldl_append, List.foldl_cons, List.foldl_nil] at ih ⊢
    generalize (List.range n).foldl (fun v j => setPend v (i + j) (f j)) v = u at ih
    obtain ⟨hu, hp⟩ := ih
    refine ⟨?_, fun j => ?_⟩
    · rw [hu]; rfl
    · rw [pendOf_setPend, hp j]
      by_cases hj : j = i + n
      · subst hj
        rw [if_pos rfl, if_pos (by omega), Nat.add_sub_cancel_left]
      · rw [if_neg hj]
        by_cases h : i ≤ j ∧ j < i + n
        · rw [if_pos h, if_pos (by omega)]
        · rw [if_neg h, if_neg (by omega)]

/-- The tag that a staging register takes: a control core's, RAW of any other master. -/
def stageTag (m : Nat) (x : TWord) : Tag := if m < 8 then x.tag else Tag.raw

theorem stageWrite_one {a i : Nat} (hst : stageChan a = some i) (h1 : stageWide a = 1) (v : Vol) (m : Nat) (x : TWord) :
    stageWrite v m a .direct x = setPend v i ⟨x.data, stageTag m x⟩
      ∧ stageWrite v m a .setBits x = setPend v i ⟨(pendOf v i).data ||| x.data, (pendOf v i).tag⟩ := by
  unfold stageWrite
  rw [hst]
  dsimp only
  rw [if_pos h1, if_pos h1]
  exact ⟨rfl, rfl⟩

theorem stageWrite_wide {a i : Nat} (hst : stageChan a = some i) (h1 : stageWide a ≠ 1) (v : Vol) (m : Nat) (x : TWord) :
    stageWrite v m a .direct x
      = (List.range (stageWide a)).foldl (fun v j => setPend v (i + j) ⟨if bit x.data j then 1 else 0, stageTag m x⟩) v := by
  unfold stageWrite
  rw [hst]
  dsimp only
  rw [if_neg h1]
  rfl

/-! ### Stoker's registers (R377, R395) -/

theorem regWrite_outs (v : Vol) (p off : Nat) (via : Via) (w : Word) : (regWrite v p off via w).outs = v.outs := by
  unfold regWrite
  split
  · rfl
  · dsimp only
    split_ifs <;> rfl

theorem exec_stkExtbud_open (s : State) (m : Fin 16) (p : Fin 3) (w : Word) (ho : pageOpen s.vol m pStk = true) :
    exec (.stkExtbud m p w) s = .next (performed s m (ra pStk (0x050 + 4 * p.val)) w
      { regWrite s.vol pStk (0x050 + 4 * p.val) .direct w with outs := { s.vol.outs with extWrote := true } }) := by
  obtain ⟨inf, hp⟩ := pageOpen_info ho
  have hblk : inf.blk = .stk0 := blk_of_page hp (by decide +kernel)
  have hspec : (specAt pStk (0x050 + 4 * p.val)).isSome = true := by revert p; decide +kernel
  have hw : pageWrite s.nv s.vol inf m pStk (0x050 + 4 * p.val) .direct (TWord.ofWord w)
      = { regWrite s.vol pStk (0x050 + 4 * p.val) .direct w with outs := { s.vol.outs with extWrote := true } } := by
    rw [pageWrite_block _ _ _ _ _ _ _ _ (stageChan_ra_none (by omega) (by decide)) hspec (by omega) (by omega) (by omega)]
    simp only [blockWrite, hblk, stkWrite]
    rw [if_neg (by omega), if_pos (by omega), regWrite_outs]
  simp only [exec, execStkExtbud, onVol]
  rw [wr_open s.nv s.vol m pStk (0x050 + 4 * p.val) w inf hp ho (by omega) (by omega), hw]
  rfl

/-- STK_ACC's limits, as words. -/
theorem accLimit_eq (w : Word) : wordOfInt (limitInt accMin accMax w.toInt)
    = if w.toInt < -0x40000000 then 0xC0000000 else if 0x60000000 < w.toInt then 0x60000000 else w := by
  simp only [limitInt, accMin, accMax]
  split
  · next h =>
    rw [show max (-0x40000000) (min 0x60000000 w.toInt) = -0x40000000 by omega]; rfl
  · split
    · next h =>
      rw [show max (-0x40000000) (min 0x60000000 w.toInt) = 0x60000000 by omega]; rfl
    · rw [show max (-0x40000000) (min 0x60000000 w.toInt) = w.toInt by omega]
      exact BitVec.ofInt_toInt

theorem exec_stkAcc_open (s : State) (m : Fin 16) (c : Fin 64) (w : Word) (ho : pageOpen s.vol m (pStk + 1) = true) :
    exec (.stkAcc m c w) s = .next (performed s m (aAcc c) w (rgSet s.vol (aAcc c)
      (if w.toInt < -0x40000000 then 0xC0000000 else if 0x60000000 < w.toInt then 0x60000000 else w))) := by
  obtain ⟨inf, hp⟩ := pageOpen_info ho
  have hblk : inf.blk = .stk1 := blk_of_page hp (by decide +kernel)
  have hspec : (specAt (pStk + 1) (0x240 + 4 * c.val)).isSome = true := by revert c; decide +kernel
  have hst : stageChan (ra (pStk + 1) (0x240 + 4 * c.val)) = none := by
    have key : ∀ c : Fin 64, stageChan (ra (pStk + 1) (0x240 + 4 * c.val)) = none := by decide +kernel
    exact key c
  have hw : pageWrite s.nv s.vol inf m (pStk + 1) (0x240 + 4 * c.val) .direct (TWord.ofWord w)
      = rgSet s.vol (aAcc c) (if w.toInt < -0x40000000 then 0xC0000000 else if 0x60000000 < w.toInt then 0x60000000 else w) := by
    rw [pageWrite_block _ _ _ _ _ _ _ _ hst hspec (by omega) (by omega) (by omega)]
    simp only [blockWrite, hblk, stk1Write, accWrite]
    rw [if_pos (by omega), show (0x240 + 4 * c.val - 0x240) / 4 = c.val by omega, accLimit_eq]
  simp only [exec, execStkAcc, onVol]
  rw [wr_open s.nv s.vol m (pStk + 1) (0x240 + 4 * c.val) w inf hp ho (by omega) (by omega), hw]
  rfl

/-! ### Valves (R388, R389) -/

theorem fld_putFld_low (w : Word) {x : Nat} (hx : x < 4) : fld (putFld w 1 0 x) 1 0 = x := by
  have h1 : (~~~(BitVec.ofNat 32 3)).toNat % 2 ^ 2 = 0 := by decide
  have h2 : (BitVec.ofNat 32 (x % 2 ^ 2 * 2 ^ 0)).toNat % 2 ^ 2 = x := by
    rw [BitVec.toNat_ofNat]; omega
  show (putFld w 1 0 x).toNat / 2 ^ 0 % 2 ^ 2 = x
  rw [pow_zero, Nat.div_one]
  show ((w &&& ~~~(BitVec.ofNat 32 3)) ||| BitVec.ofNat 32 (x % 2 ^ 2 * 2 ^ 0)).toNat % 2 ^ 2 = x
  rw [BitVec.toNat_or, BitVec.toNat_and, Nat.or_mod_two_pow, Nat.and_mod_two_pow, h1, h2, Nat.and_zero, Nat.zero_or]

/-- The end of a phase of valve x: its phase, the time, and the other valves' phases. -/
theorem valveTimer_spec (v : Vol) {x next : Nat} (n : Nat) (hx : x < 48) (hn : next < 4) : let v' := valveTimer v x n next
    valvePhase v' x = next ∧ v'.now = max v.now (smapGet noErr v.outs.vlvAt x + n)
      ∧ (∀ y, y < 48 → y ≠ x → valvePhase v' y = valvePhase v y) ∧ v'.sram = v.sram ∧ v'.cores = v.cores := by
  refine ⟨?_, rfl, fun y hy hyx => ?_, rfl, rfl⟩
  · unfold valveTimer valvePhase rfSet rf
    rw [rg_rgSet_same, fld_putFld_low _ hn]
  · have ha : aVlv y 0x200 ≠ aVlv x 0x200 := by simp only [aVlv, ra, pVlv]; omega
    unfold valveTimer valvePhase rfSet rf
    rw [rg_rgSet_ne _ _ ha]
    rfl

end Sys2Proof.Machine
end

section
/-! PROOFS. Motor carriers and pins, and the commands of the outputs together (O40). -/

namespace Sys2Proof.Machine

/-! ### Motor carriers (R386) -/

/-- The compare value rests on the active words and the settings in force alone. -/
theorem motCompare_congr {v v' : Vol} (ha : v'.outs.act = v.outs.act) (hf : v'.outs.force = v.outs.force) (m u per minpw : Nat)
    (edge : Bool) : motCompare v' m u per minpw edge = motCompare v m u per minpw edge := by
  have h1 : actOf v' (64 + 4 * m + u) = actOf v (64 + 4 * m + u) := by rw [actOf, actOf, ha]
  have h2 : fg v' (aMot m 0x040) = fg v (aMot m 0x040) := by rw [fg, fg, hf]
  unfold motCompare
  rw [h1, h2]

/-- Values put under several keys by their number. -/
theorem smapGet_foldl_set (f : Nat → Nat) (k n : Nat) (s : SMap Nat) {u : Nat} (hu : u < n) :
    smapGet noErr ((List.range n).foldl (fun c u => smapSet noErr c (k + u) (f u)) s) (k + u) = f u := by
  induction n with
  | zero => omega
  | succ n ih =>
    rw [List.range_succ, List.foldl_append, List.foldl_cons, List.foldl_nil, smapGet_set]
    by_cases h : u = n
    · rw [h, if_pos rfl]
    · rw [if_neg (by omega), ih (by omega)]

/-- The settings that a carrier latches. -/
def latchedSet (v : Vol) (m : Nat) : SMap Word :=
  [0x040, 0x044, 0x048, 0x04C].foldl (fun s o => smapSet regReset s (aMot m o) (fg v (aMot m o))) v.outs.motSet

theorem latchedSet_get (v : Vol) (m : Nat) {off : Nat} (h : off ∈ [0x040, 0x044, 0x048, 0x04C]) :
    smapGet regReset (latchedSet v m) (aMot m off) = fg v (aMot m off) := by
  have hne {o : Nat} (ho : off ≠ o) : aMot m off ≠ aMot m o := by simp only [aMot, ra]; omega
  simp only [latchedSet, List.foldl_cons, List.foldl_nil]
  simp only [List.mem_cons, List.not_mem_nil, or_false] at h
  rcases h with rfl | rfl | rfl | rfl
  · rw [smapGet_set_ne _ _ _ _ (hne (by decide)), smapGet_set_ne _ _ _ _ (hne (by decide)), smapGet_set_ne _ _ _ _ (hne (by decide)),
      smapGet_set_same]
  · rw [smapGet_set_ne _ _ _ _ (hne (by decide)), smapGet_set_ne _ _ _ _ (hne (by decide)), smapGet_set_same]
  · rw [smapGet_set_ne _ _ _ _ (hne (by decide)), smapGet_set_same]
  · rw [smapGet_set_same]

/-- What a latching carrier takes, and what it leaves. -/
theorem motLatch_spec (v : Vol) (m base : Nat) : let t := motLatch v m base
    (t.regs = v.regs ∧ t.now = v.now ∧ t.sram = v.sram ∧ t.cores = v.cores) ∧ t.outs.motSet = latchedSet v m
      ∧ smapGet noErr t.outs.motBase m = base
      ∧ ∀ u, u < 3 → smapGet noErr t.outs.motCmp (3 * m + u)
        = motCompare v m u (motPer t m) (fld (motSetting t m 0x04C) 9 0) (motEdge t m) := by
  unfold motLatch
  extract_lets was set o v1 cmp o₂ v2 edge o₃ t
  refine ⟨⟨rfl, rfl, rfl, rfl⟩, rfl, smapGet_set_same _ _ _ _, fun u hu => ?_⟩
  have hper : motPer t m = motPer v1 m := rfl
  have hset : motSetting t m 0x04C = motSetting v1 m 0x04C := rfl
  have hedge : motEdge t m = motEdge v1 m := rfl
  rw [hper, hset, hedge]
  have hc := smapGet_foldl_set (fun u => motCompare v1 m u (motPer v1 m) (fld (motSetting v1 m 0x04C) 9 0) (motEdge v1 m)) (3 * m) 3
    v.outs.motCmp hu
  refine Eq.trans ?_ (hc.trans (motCompare_congr (v := v) (v' := v1) rfl rfl _ _ _ _ _))
  rfl

/-- A turning point that comes: the time at which the carrier is there, and the base of its count. -/
def turnAt (v : Vol) (m : Nat) (top : Bool) : Vol :=
  { v with now := v.now + ((if top then motPer v m else 0) + motPeriod v m - motPhase v m) % motPeriod v m }

theorem motTurn_eq (v : Vol) (m : Nat) (top : Bool) (hr : ready v (pMot m) = true) (hs : bit (fg v (aMot m 0x040)) 26 = false)
    (ht : (top && motEdge v m) = false) : motTurn v m top = motLatch (turnAt v m top) m
      (if top && !bit (fg v (aMot m 0x040)) 27 then (turnAt v m top).now - ff v (aMot m 0x044) 15 0 else (turnAt v m top).now) := by
  unfold motTurn
  rw [hr, hs, ht]
  rfl

theorem motTurn_none (v : Vol) (m : Nat) (top : Bool)
    (h : ¬ (ready v (pMot m) = true ∧ bit (fg v (aMot m 0x040)) 26 = false ∧ (top && motEdge v m) = false)) : motTurn v m top = v := by
  unfold motTurn
  rw [if_pos]
  cases hr : ready v (pMot m)
  · rfl
  · cases hb : bit (fg v (aMot m 0x040)) 26
    · cases ht : top && motEdge v m
      · exact absurd ⟨hr, hb, ht⟩ h
      · rfl
    · rfl

/-- What a turning point that comes leaves (R386). -/
theorem motTurn_spec (v : Vol) (m : Nat) (top : Bool) (hr : ready v (pMot m) = true) (hs : bit (fg v (aMot m 0x040)) 26 = false)
    (ht : (top && motEdge v m) = false) : let t := motTurn v m top
    (t.sram = v.sram ∧ t.cores = v.cores) ∧ t.regs = v.regs
      ∧ (∀ off, off ∈ [0x040, 0x044, 0x048, 0x04C] → motSetting t m off = fg v (aMot m off))
      ∧ t.now = v.now + ((if top then motPer v m else 0) + motPeriod v m - motPhase v m) % motPeriod v m
      ∧ smapGet noErr t.outs.motBase m = t.now - (if top && !motEdge t m then motPer t m else 0)
      ∧ ∀ u, u < 3 → smapGet noErr t.outs.motCmp (3 * m + u)
        = motCompare v m u (motPer t m) (fld (motSetting t m 0x04C) 9 0) (motEdge t m) := by
  rw [motTurn_eq v m top hr hs ht]
  have hfg (a : Nat) : fg (turnAt v m top) a = fg v a := rfl
  have hcmp (u per minpw : Nat) (edge : Bool) : motCompare (turnAt v m top) m u per minpw edge = motCompare v m u per minpw edge :=
    motCompare_congr rfl rfl _ _ _ _ _
  generalize hbase : (if top && !bit (fg v (aMot m 0x040)) 27 then (turnAt v m top).now - ff v (aMot m 0x044) 15 0
    else (turnAt v m top).now) = base
  obtain ⟨⟨hregs, hnow, hsram, hcores⟩, hset, hb, hc⟩ := motLatch_spec (turnAt v m top) m base
  generalize motLatch (turnAt v m top) m base = t at hregs hnow hsram hcores hset hb hc
  have hsetting (off : Nat) (ho : off ∈ [0x040, 0x044, 0x048, 0x04C]) : motSetting t m off = fg v (aMot m off) := by
    rw [motSetting, hset, latchedSet_get _ _ ho, hfg]
  have hedge : motEdge t m = bit (fg v (aMot m 0x040)) 27 := by rw [motEdge, hsetting _ (by decide)]
  have hper : motPer t m = ff v (aMot m 0x044) 15 0 := by rw [motPer, hsetting _ (by decide), ff]
  refine ⟨⟨hsram, hcores⟩, hregs, hsetting, hnow, ?_, fun u hu => (hc u hu).trans (hcmp _ _ _ _)⟩
  rw [hb, ← hbase, hnow, hedge, hper]
  split <;> rfl

/-! ### Pins (R391, R393, R394) -/

/-- Whether an edge of pin n to a level is one that an entry selects. -/
def pinHit (n : Nat) (level : Bool) (e : Bool × Nat × Nat) : Bool := e.1 && e.2.2 == n && edgeMatches e.2.1 level

def liveSet (v : Vol) (n : Nat) (level : Bool) : Vol :=
  { v with outs := { v.outs with live := if level then v.outs.live ||| bit64 n else v.outs.live &&& ~~~(bit64 n) } }

/-- Flow counter k sees an edge. -/
def countEdge (n : Nat) (level : Bool) (v : Vol) (k : Nat) : Vol :=
  if pinHit n level (flowSel v k) then
    { v with outs := { v.outs with flow := smapSet (fun _ => 0) v.outs.flow k (smapGet (fun _ => 0) v.outs.flow k + 1) } }
  else v

/-- Entry e of GIO_EVSEL. -/
def pinEvent (v : Vol) (e : Nat) : Bool × Nat × Nat := pinEntry (rg v (ra pGio (0x380 + 4 * (e / 3)))) (e % 3)

/-- Pin event e sees an edge. -/
def raiseEdge (n : Nat) (level : Bool) (v : Vol) (e : Nat) : Vol := raiseIf (pinHit n level (pinEvent v e)) v pGio e

theorem gioEdge_eq (v : Vol) (n : Nat) (level : Bool) (hr : ready v pGio = true) (hl : v.outs.live.getLsbD n ≠ level) :
    gioEdge v n level
      = (List.range 14).foldl (raiseEdge n level) ((List.range 48).foldl (countEdge n level) (liveSet v n level)) := by
  unfold gioEdge
  extract_lets was on o v1 hit v2
  rw [if_neg]
  · rfl
  · have hon : on = true := hr
    have hwas : (was == level) = false := beq_eq_false_iff_ne.mpr hl
    rw [hon, hwas]
    decide

theorem liveSet_live (v : Vol) {n : Nat} (level : Bool) {j : Nat} (hj : j < 64) :
    (liveSet v n level).outs.live.getLsbD j = if j = n then level else v.outs.live.getLsbD j := by
  have hbit : (bit64 n).getLsbD j = decide (n = j) := by
    rw [bit64, BitVec.getLsbD_ofNat, Nat.testBit_two_pow, decide_eq_true hj, Bool.true_and]
  have hlive : (liveSet v n level).outs.live = if level then v.outs.live ||| bit64 n else v.outs.live &&& ~~~(bit64 n) := rfl
  rw [hlive]
  cases level
  · rw [if_neg Bool.false_ne_true, BitVec.getLsbD_and, BitVec.getLsbD_not, hbit, decide_eq_true hj, Bool.true_and]
    by_cases h : j = n
    · simp [h]
    · simp [h, Ne.symm h]
  · rw [if_pos rfl, BitVec.getLsbD_or, hbit]
    by_cases h : j = n
    · simp [h]
    · simp [h, Ne.symm h]

/-- The flow counters after an edge: each that selects it has counted one, and nothing else has changed. -/
theorem countEdge_spec (n : Nat) (level : Bool) (v : Vol) (c : Nat) : let v' := (List.range c).foldl (countEdge n level) v
    v' = { v with outs := { v.outs with flow := v'.outs.flow } } ∧ ∀ k, smapGet (fun _ => 0) v'.outs.flow k
      = smapGet (fun _ => 0) v.outs.flow k + if decide (k < c) && pinHit n level (flowSel v k) then 1 else 0 := by
  induction c with
  | zero => exact ⟨rfl, fun k => by simp⟩
  | succ c ih =>
    simp only [List.range_succ, List.foldl_append, List.foldl_cons, List.foldl_nil] at ih ⊢
    generalize (List.range c).foldl (countEdge n level) v = u at ih
    obtain ⟨hu, hc⟩ := ih
    have hsel : flowSel u c = flowSel v c := by rw [hu]; rfl
    unfold countEdge
    rw [hsel]
    cases hh : pinHit n level (flowSel v c)
    · rw [if_neg Bool.false_ne_true]
      refine ⟨hu, fun k => ?_⟩
      rw [hc k]
      by_cases hk : k = c
      · subst hk; simp [hh]
      · rw [show decide (k < c + 1) = decide (k < c) from decide_eq_decide.mpr (by omega)]
    · rw [if_pos rfl]
      refine ⟨by rw [hu], fun k => ?_⟩
      rw [smapGet_set, hc, hc]
      by_cases hk : k = c
      · subst hk; simp [hh]
      · rw [if_neg hk, show decide (k < c + 1) = decide (k < c) from decide_eq_decide.mpr (by omega)]

/-- The pin events after an edge: each enabled one that selects it is pending, and the outputs have not changed. -/
theorem raiseEdge_spec (n : Nat) (level : Bool) (l : List Nat) (v : Vol) : let v' := l.foldl (raiseEdge n level) v
    Touches (fun a => a = aEvPend pGio) v v' ∧ v'.outs = v.outs
      ∧ (∀ i, rb v (aEvPend pGio) i = true → rb v' (aEvPend pGio) i = true)
      ∧ ∀ e ∈ l, e < 32 → pinHit n level (pinEvent v e) = true → rb v (aEvEn pGio) e = true → rb v' (aEvPend pGio) e = true := by
  induction l generalizing v with
  | nil => exact ⟨.refl _ v, rfl, fun _ h => h, fun e he => by cases he⟩
  | cons e l ih =>
    have ht : Touches (fun a => a = aEvPend pGio) v (raiseEdge n level v e) := touches_raiseIf _ v e rfl
    have houts : (raiseEdge n level v e).outs = v.outs := raiseIf_outs _ v pGio e
    have hmono (i : Nat) (hi : rb v (aEvPend pGio) i = true) : rb (raiseEdge n level v e) (aEvPend pGio) i = true := by
      unfold raiseEdge
      cases pinHit n level (pinEvent v e)
      · exact hi
      · rw [raiseIf, if_pos rfl]
        unfold rb at hi ⊢
        rw [rg_raiseEvent]
        split
        · rw [bit, BitVec.getLsbD_or, ← bit, hi, Bool.true_or]
        · exact hi
    have hown (he : e < 32) (hh : pinHit n level (pinEvent v e) = true) (hen : rb v (aEvEn pGio) e = true) :
        rb (raiseEdge n level v e) (aEvPend pGio) e = true := by
      rw [raiseEdge, hh, raiseIf, if_pos rfl, rb_raiseEvent _ _ he, hen]
      simp
    have hsel (i : Nat) (hi : i < 32) : pinEvent (raiseEdge n level v e) i = pinEvent v i := by
      rw [pinEvent, pinEvent, ht.regs _ (by simp only [aEvPend, ra]; omega)]
    have hen (i : Nat) : rb (raiseEdge n level v e) (aEvEn pGio) i = rb v (aEvEn pGio) i :=
      ht.rb_eq (by simp only [aEvEn, aEvPend, ra]; omega) i
    rw [List.foldl_cons]
    obtain ⟨ht', houts', hmono', hown'⟩ := ih (raiseEdge n level v e)
    refine ⟨ht.trans ht', houts'.trans houts, fun i hi => hmono' i (hmono i hi), fun i hi hi32 hh hi' => ?_⟩
    rcases List.mem_cons.mp hi with rfl | hi
    · exact hmono' i (hown hi32 hh hi')
    · exact hown' i hi hi32 (by rw [hsel i hi32]; exact hh) (by rw [hen]; exact hi')

/-- What an edge of pin n leaves while the block runs. -/
theorem gioEdge_spec (v : Vol) (n : Nat) (level : Bool) (hr : ready v pGio = true) (hl : v.outs.live.getLsbD n ≠ level) :
    let t := gioEdge v n level
    (∀ j, j < 64 → t.outs.live.getLsbD j = if j = n then level else v.outs.live.getLsbD j)
      ∧ (∀ k, k < 48 → smapGet (fun _ => 0) t.outs.flow k
        = smapGet (fun _ => 0) v.outs.flow k + if pinHit n level (flowSel v k) then 1 else 0)
      ∧ ∀ e, e < 14 → pinHit n level (pinEvent v e) = true → rb v (aEvEn pGio) e = true → rb t (aEvPend pGio) e = true := by
  rw [gioEdge_eq v n level hr hl]
  have hlive {j : Nat} (hj : j < 64) := liveSet_live v (n := n) level hj
  have hsel (k : Nat) : flowSel (liveSet v n level) k = flowSel v k := rfl
  have hflow : (liveSet v n level).outs.flow = v.outs.flow := rfl
  have hregs : (liveSet v n level).regs = v.regs := rfl
  generalize liveSet v n level = v1 at hlive hsel hflow hregs
  obtain ⟨h2, hcount⟩ := countEdge_spec n level v1 48
  generalize (List.range 48).foldl (countEdge n level) v1 = v2 at h2 hcount
  obtain ⟨-, houts, -, hpend⟩ := raiseEdge_spec n level (List.range 14) v2
  have hregs2 : v2.regs = v.regs := by rw [h2]; exact hregs
  refine ⟨fun j hj => ?_, fun k hk => ?_, fun e he hh hen => ?_⟩
  · rw [houts, h2]; exact hlive hj
  · rw [houts, hcount k, hsel, hflow, decide_eq_true hk, Bool.true_and]
  · refine hpend e (List.mem_range.mpr he) (by omega) ?_ ?_
    · rw [pinEvent, rg_congr hregs2]; exact hh
    · rw [rb, rg_congr hregs2]; exact hen

/-- A block that is READY is so later. -/
theorem ready_later (v : Vol) {t : Nat} (o : Outs) (p : Nat) (ht : v.now ≤ t) (hr : ready v p = true) :
    ready { v with now := t, outs := o } p = true := by
  unfold ready domUp at hr ⊢
  simp only [Bool.and_eq_true, decide_eq_true_eq] at hr ⊢
  obtain ⟨⟨⟨hon, hnow⟩, hres⟩, hgate⟩ := hr
  exact ⟨⟨⟨hon, Nat.le_trans hnow ht⟩, hres⟩, hgate⟩

/-- A level from outside is an edge at its time, unless the pin drives the other level. -/
theorem gioInput_from (v : Vol) (n : Nat) (level : Bool) (hr : ready v pGio = true)
    (hp : ∀ b, pinPad v n = some b → xor b (rb v (aPin n) 0) = level) :
    ∃ t o, gioInput v n level = gioEdge { v with now := t, outs := o } n level ∧ ready { v with now := t, outs := o } pGio = true
      ∧ o.live = v.outs.live ∧ o.flow = v.outs.flow ∧ o.force = v.outs.force := by
  unfold gioInput
  cases hpad : pinPad v n with
  | none => exact ⟨v.now, v.outs, rfl, hr, rfl, rfl, rfl⟩
  | some b =>
    dsimp only
    rw [if_neg (by rw [hp b hpad]; simp)]
    cases smapFind v.outs.inDue n with
    | none => exact ⟨v.now, v.outs, rfl, hr, rfl, rfl, rfl⟩
    | some d => exact ⟨max v.now d.1, _, rfl, ready_later v _ pGio (Nat.le_max_left _ _) hr, rfl, rfl, rfl⟩

theorem gioInput_driven (v : Vol) (n : Nat) (level : Bool) {b : Bool} (hpad : pinPad v n = some b)
    (hb : xor b (rb v (aPin n) 0) ≠ level) : gioInput v n level = v := by
  unfold gioInput
  rw [hpad]
  dsimp only
  rw [if_pos (bne_iff_ne.mpr hb)]

/-- A command that acts on the volatile part alone goes where its effect does. -/
theorem next_congr (s : State) {a b : Vol} (h : a = b) : (.next (withVol s a) : Out) = .next (withVol s b) := by rw [h]

end Sys2Proof.Machine

namespace Sys2Proof

open Sys2Proof.Machine

/-- Settles O40, each command by its rule above. -/
theorem outputCommandsAct : Obligations.OutputCommandsAct := by
  intro s m w v quiet
  have hquiet {v' : Vol} (hs : v'.sram = v.sram) (hc : v'.cores = v.cores) : quiet (withVol s v') := ⟨withVol_nv s v', hs, hc⟩
  refine ⟨?_, ?_, ?_, ?_, ?_, ?_⟩
  · intro a x i hst ho tag
    refine ⟨fun h1 => ?_, fun h1 => ?_⟩
    · obtain ⟨hd, hset⟩ := stageWrite_one hst h1 v m x
      rw [exec_stagingWrite_direct s m a x hst ho, exec_stagingWrite_set s m a x hst ho, hd, hset]
      exact ⟨rfl, rfl⟩
    · obtain ⟨hframe, hbits⟩ := stage_spread (fun j => ⟨if bit x.data j then 1 else 0, stageTag m x⟩) i (stageWide a.toNat) v
      rw [exec_stagingWrite_direct s m a x hst ho, stageWrite_wide hst h1]
      exact ⟨_, rfl, hframe, hbits⟩
  · exact fun ho p => exec_stkExtbud_open s m p w ho
  · exact fun ho c => exec_stkAcc_open s m c w ho
  · intro x
    have hx := x.isLt
    constructor
    · split
      · next h =>
        obtain ⟨hph, hnow, hother, hs, hc⟩ := valveTimer_spec v (400 * ff v (aVlv x 0x100) 31 16) hx (by decide : 2 < 4)
        exact ⟨_, next_congr s (if_pos h), hph, hnow, hother, hquiet hs hc⟩
      · next h => exact next_congr s (if_neg h)
    · split
      · next h =>
        obtain ⟨hph, hnow, hother, hs, hc⟩ := valveTimer_spec v (4000 * ff v (aVlv x 0x100) 7 0) hx (by decide : 0 < 4)
        exact ⟨_, next_congr s (if_pos h), hph, hnow, hother, hquiet hs hc⟩
      · next h => exact next_congr s (if_neg h)
  · intro g top
    split
    · next h =>
      obtain ⟨hr, hb, ht⟩ := h
      obtain ⟨⟨hs, hc⟩, hspec⟩ := motTurn_spec v g top hr hb ht
      exact ⟨withVol s (motTurn v g top), rfl, hquiet hs hc, hspec⟩
    · next h => exact next_congr s (motTurn_none v g top h)
  · intro n level hit
    refine ⟨fun hr hl hp => ?_, fun b hpad hb => next_congr s (gioInput_driven v n level hpad hb)⟩
    obtain ⟨t, o, heq, hr', hlive, hflow, hforce⟩ := gioInput_from v n level hr hp
    have ht := gioEdge_touches { v with now := t, outs := o } n level
    obtain ⟨h1, h2, h3⟩ := gioEdge_spec { v with now := t, outs := o } n level hr' (by rw [hlive]; exact hl)
    refine ⟨_, next_congr s heq, hquiet ht.sram ht.cores, fun j hj => ?_, fun k hk => ?_, h3⟩
    · rw [← hlive]; exact h1 j hj
    · have hsel : flowSel { v with now := t, outs := o } k = flowSel v k := by
        simp only [flowSel, fg, hforce]
      rw [← hflow, ← hsel]; exact h2 k hk

end Sys2Proof
end

section
/-! PROOFS. Gates that close by themselves, soft resets and their end (for O12). -/

namespace Sys2Proof.Machine

/-! ### What READY rests on -/

/-- READY rests on PWR and CLK, the time, the wipes and the resets. -/
theorem ready_congr {v v' : Vol} (hregs : ∀ a, a < 0x40003000 → rg v' a = rg v a) (hnow : v'.now = v.now) (hsys : v'.sys = v.sys)
    (hres : v'.resetting = v.resetting) (p : Nat) : ready v' p = ready v p := by
  have hd := pageDom_lt p
  have hpwr : rg v' (ra pPwr (0x04C + 4 * ((pageDom p - 1) / 32))) = rg v (ra pPwr (0x04C + 4 * ((pageDom p - 1) / 32))) :=
    hregs _ (by simp only [ra, pPwr]; omega)
  have hclk : rg v' (ra pClk (0x07C + 4 * ((pageDom p - 1) / 32))) = rg v (ra pClk (0x07C + 4 * ((pageDom p - 1) / 32))) :=
    hregs _ (by simp only [ra, pClk]; omega)
  simp only [ready, domUp, domOn, gateForced, rb, hpwr, hclk, hnow, hsys, hres]

section
variable (v : Vol) (p off : Nat) (via : Via) (w : Word)

/-- A register write changes its register, and STAT of its block. -/
theorem rg_regWrite_ne {b : Nat} (h1 : b ≠ ra p off) (h2 : b ≠ aStat (blockPage p)) : rg (regWrite v p off via w) b = rg v b := by
  unfold regWrite
  split
  · rfl
  · dsimp only
    split_ifs <;> simp only [rg, rgOr, rgSet, smapGet_set_ne _ _ _ _ h1, smapGet_set_ne _ _ _ _ h2]

theorem regWrite_rest : regWrite v p off via w
    = { v with regs := (regWrite v p off via w).regs, rwoUsed := (regWrite v p off via w).rwoUsed } := by
  unfold regWrite
  split
  · rfl
  · dsimp only
    split_ifs <;> rfl

theorem ready_regWrite (hp : 3 ≤ blockPage p) (hp' : 3 ≤ p) (q : Nat) : ready (regWrite v p off via w) q = ready v q := by
  have h := regWrite_rest v p off via w
  refine ready_congr (fun a ha => rg_regWrite_ne v p off via w ?_ ?_) (by rw [h]) (by rw [h]) (by rw [h]) q
  · simp only [ra]; omega
  · simp only [aStat, ra]; omega

end

/-! ### Automatic gates (R286, R542) -/

theorem gateCloses_eq (v : Vol) {p : Nat} (hp : (pageInfo p).isSome = true) : gateCloses v (ra p 0) =
    if ready v (blockPage p) = true ∧ (pageDom p ≠ 0 ∧ rb v (ra pClk (0x070 + 4 * ((pageDom p - 1) / 32))) ((pageDom p - 1) % 32) = true)
        ∧ blockIdle v (blockPage p) = true then rgSet v (aGate (blockPage p)) (if blockHeld v p then 1 else 2) else v := by
  have hpage : (ra p 0 - 0x40000000) / 0x1000 = p := by simp only [ra]; omega
  have hge : ¬ ra p 0 < 0x40000000 := by simp only [ra]; omega
  have hinf : (pageInfo p).isNone = false := by
    obtain ⟨inf, h⟩ := Option.isSome_iff_exists.mp hp
    simp [h]
  unfold gateCloses
  simp only [hpage, hge, hinf, decide_false, Bool.false_or]
  cases ready v (blockPage p)
  · simp
  · cases blockIdle v (blockPage p)
    · simp
    · by_cases hd : pageDom p = 0
      · simp [hd]
      · cases rb v (ra pClk (0x070 + 4 * ((pageDom p - 1) / 32))) ((pageDom p - 1) % 32) <;> simp [hd]

/-! ### Soft resets (R10, R351) -/

/-- A block that enters reset is not READY. -/
theorem ready_blockReset (v : Vol) (p : Nat) : ready (blockReset v p) p = false := by
  unfold blockReset
  extract_lets v1 v2 v3
  have h3 : v3.resetting.contains p = true := by
    show (if v2.resetting.contains p then v2.resetting else v2.resetting ++ [p]).contains p = true
    split
    · assumption
    · simp
  clear_value v3
  have ht : Touches TripRegs v3 (outApply (tripEval v3)) :=
    (tripEval_touches v3).trans ((outApply_touches _).mono fun a h => Or.inl (Or.inl h))
  unfold ready
  rw [ht.resetting, h3]
  simp

theorem stageChan_low {p off : Nat} (h : off < 0x040) : stageChan (ra p off) = none := by
  cases hs : stageChan (ra p off) with
  | none => rfl
  | some i =>
    obtain ⟨-, -, hlo, -⟩ := stageChan_some hs
    simp only [ra] at hlo
    omega

/-- Whether the trip matrix refuses a reset: locked, or a group latched (R351). -/
def trpHard (v : Vol) : Prop := rb v (ra pTrp 0x0B0) 0 = true ∨ rf v (ra pTrp 0x0A0) 15 0 ≠ 0

theorem trpHard_iff {v : Vol} : (rb v (ra pTrp 0x0B0) 0 || rf v (ra pTrp 0x0A0) 15 0 != 0) = true ↔ trpHard v := by
  simp [trpHard]

section
variable (nv : Nv) (v : Vol) (inf : PageInfo) (m p : Nat)

/-- A write of CTL.SOFTRST resets the block of the page. -/
theorem pageWrite_softrst (h : ¬ (blockPage p = pLks ∨ blockPage p = pTrp ∧ trpHard v)) :
    pageWrite nv v inf m p 0x008 .setBits (TWord.ofWord 0x80000000) = softReset v (blockPage p) := by
  unfold pageWrite
  rw [stageChan_low (by decide)]
  dsimp only
  rw [if_neg (by decide), if_neg (by decide), if_pos ⟨rfl, by decide, by decide⟩, if_neg]
  rw [Bool.or_eq_true, Bool.and_eq_true, decide_eq_true_eq, decide_eq_true_eq, trpHard_iff]
  exact h

/-- A block that refuses its reset takes the write's other bits (R7). -/
theorem pageWrite_softrst_refused (h : blockPage p = pLks ∨ blockPage p = pTrp ∧ trpHard v) :
    pageWrite nv v inf m p 0x008 .setBits (TWord.ofWord 0x80000000)
      = softReset (blockWrite nv v inf m p 0x008 .setBits 0x80000000) (blockPage p) := by
  unfold pageWrite
  rw [stageChan_low (by decide)]
  dsimp only
  rw [if_neg (by decide), if_neg (by decide), if_pos ⟨rfl, by decide, by decide⟩, if_pos]
  rw [Bool.or_eq_true, Bool.and_eq_true, decide_eq_true_eq, decide_eq_true_eq, trpHard_iff]
  exact h

theorem softReset_lks : softReset v pLks = setFault v pLks 5 := if_pos rfl

theorem softReset_trp (h : trpHard v) : softReset v pTrp = setFault v pTrp 1 := by
  unfold softReset
  rw [if_neg (by decide), if_pos]
  rw [Bool.and_eq_true, trpHard_iff]
  exact ⟨rfl, h⟩

theorem softReset_plain {b : Nat} (h1 : b ≠ pLks) (h2 : b = pTrp → ¬ trpHard v) : softReset v b = blockReset v b := by
  unfold softReset
  rw [if_neg h1, if_neg]
  rw [Bool.and_eq_true, trpHard_iff, decide_eq_true_eq]
  rintro ⟨hb, hh⟩
  exact h2 hb hh

end

theorem rb_setFault_same (v : Vol) (p : Nat) {i : Nat} (hi : i < 32) : rb (setFault v p i) (aFault p) i = true := by
  rw [rb, rg_setFault, if_pos rfl, bit, BitVec.getLsbD_or, ← bit, ← bit, bit_bitWord]
  simp [hi]

theorem ready_setFault (v : Vol) (p i q : Nat) (hp : 3 ≤ p) : ready (setFault v p i) q = ready v q :=
  ready_congr (fun a ha => rg_rgSet_ne _ _ (by simp only [aFault, ra]; omega)) rfl rfl rfl q

theorem lksWrite_ctl (v : Vol) (page : Nat) (via : Via) (w : Word) :
    lksWrite v page 0x008 via w = regWrite v (pLks + page) 0x008 via w := by
  unfold lksWrite
  rw [if_neg (by omega), if_neg (by omega)]

/-- A field of latches is 0 when none is latched. -/
theorem fld_low_ne_zero {w : Word} : fld w 15 0 ≠ 0 ↔ ∃ n, n < 16 ∧ bit w n = true := by
  have hf : fld w 15 0 = w.toNat % 2 ^ 16 := by simp [fld]
  rw [hf]
  constructor
  · intro h
    obtain ⟨n, hn⟩ := Nat.exists_testBit_of_ne_zero h
    rw [Nat.testBit_mod_two_pow, Bool.and_eq_true, decide_eq_true_eq] at hn
    exact ⟨n, hn.1, hn.2⟩
  · rintro ⟨n, hn, hb⟩ h
    have := Nat.testBit_mod_two_pow w.toNat 16 n
    rw [h, Nat.zero_testBit, decide_eq_true hn, Bool.true_and] at this
    rw [bit, BitVec.getLsbD, ← this] at hb
    exact absurd hb Bool.false_ne_true

/-- A write of the trip matrix's CTL for its set bits: the lock and the latches that refuse a reset stay, and the block is
READY as it was. -/
theorem trpWrite_ctl (v : Vol) (w : Word) (hr : ready v pTrp = true) (hh : trpHard v) :
    ready (trpWrite v 0x008 .setBits w) pTrp = true ∧ trpHard (trpWrite v 0x008 .setBits w) := by
  have hb : blockPage pTrp = pTrp := by decide
  have hreg {o : Nat} (h8 : o ≠ 0x008) (hC : o ≠ 0x00C) : rg (regWrite v pTrp 0x008 .setBits w) (ra pTrp o) = rg v (ra pTrp o) :=
    rg_regWrite_ne v pTrp 0x008 .setBits w (by simp only [ra]; omega) (by rw [hb]; simp only [aStat, ra]; omega)
  have hr1 : ready (regWrite v pTrp 0x008 .setBits w) pTrp = true := by
    rw [ready_regWrite _ _ _ _ _ (by decide) (by decide)]; exact hr
  have hh1 : trpHard (regWrite v pTrp 0x008 .setBits w) := by
    unfold trpHard rb rf at hh ⊢
    rw [hreg (by decide) (by decide), hreg (by decide) (by decide)]
    exact hh
  unfold trpWrite
  rw [if_neg (by decide), if_neg (by decide)]
  dsimp only
  generalize regWrite v pTrp 0x008 .setBits w = u at hr1 hh1
  split
  · split
    · exact ⟨hr1, hh1⟩
    · have hf (o : Nat) (ho : o ≠ 0x020) : rg (setFault v pTrp 2) (ra pTrp o) = rg v (ra pTrp o) := rg_rgSet_off _ _ ho
      refine ⟨by rw [ready_setFault _ _ _ _ (by decide)]; exact hr, ?_⟩
      unfold trpHard rb rf at hh ⊢
      rw [hf _ (by decide), hf _ (by decide)]
      exact hh
  · have ht := tripEval_touches u
    have hge (a : Nat) (ha : TripRegs a) : 0x40003000 ≤ a := by have := tripRegs_ge ha; omega
    refine ⟨by rw [ht.ready_eq hge]; exact hr1, ?_⟩
    rcases hh1 with hlock | hlatch
    · left
      rw [ht.rb_eq (by simp only [TripRegs, LatchRegs, OutRegs, aEvPend, aFault, ra, pTrp]; omega)]
      exact hlock
    · right
      obtain ⟨n, hn, hbit⟩ := fld_low_ne_zero.mp hlatch
      refine fld_low_ne_zero.mpr ⟨n, hn, ?_⟩
      by_cases hd : domUp u 25 = true
      · exact tripEval_keeps hd hbit
      · have : tripEval u = u := by unfold tripEval; rw [if_pos (by simpa using hd)]
        rw [this]; exact hbit

/-- BLOCK_SOFTRST writes CTL.SOFTRST of the page for its set bits. -/
theorem exec_blockSoftrst_open (s : State) (m : Fin 16) {p : Nat} {inf : PageInfo} (hp : pageInfo p = some inf)
    (ho : pageOpen s.vol m p = true) : exec (.blockSoftrst m (BitVec.ofNat 32 (ra p 0))) s = .next (performed s m (aCtl p + 0x400)
      0x80000000 (pageWrite s.nv s.vol inf m p 0x008 .setBits (TWord.ofWord 0x80000000))) := by
  have haddr : ra p 0 / 0x1000 * 0x1000 + 0x008 = ra p 0x008 := by simp only [ra]; omega
  simp only [exec, execBlockSoftrst, onVol, toNat_ra (pageOpen_lt ho) (by decide : 0 < 0x1000), haddr, setBits, wr]
  rw [busWrite_open_set s.nv s.vol m p 0x008 _ inf hp ho (by decide) (by decide)]
  rfl

/-- Locksmith takes a write of its CTL as a register (R527). -/
theorem blockWrite_lks_ctl (nv : Nv) (v : Vol) {inf : PageInfo} (m : Nat) {p : Nat} (hp : pageInfo p = some inf)
    (hb : blockPage p = pLks) (w : Word) : blockWrite nv v inf m p 0x008 .setBits w = regWrite v p 0x008 .setBits w := by
  have hpage : 0x70 ≤ p ∧ p < 0x74 := by
    have key : ∀ q, q < 0xB8 → blockPage q = pLks → 0x70 ≤ q ∧ q < 0x74 := by decide +kernel
    exact key p (pageInfo_lt (by simp [hp])) hb
  have hinf : (inf.blk = .lks0 ∨ inf.blk = .lks1 ∨ inf.blk = .lks2 ∨ inf.blk = .lks3) ∧ pLks + inf.inst = p := by
    obtain ⟨h0, h1⟩ := hpage
    interval_cases p <;> simp [pageInfo] at hp <;> subst hp <;> decide
  obtain ⟨hblk, hinst⟩ := hinf
  have hw : blockWrite nv v inf m p 0x008 .setBits w = lksWrite v inf.inst 0x008 .setBits w := by
    rcases hblk with h | h | h | h <;> simp only [blockWrite, h]
  rw [hw, lksWrite_ctl, hinst]

/-! ### The end of a reset (R10) -/

/-- With nothing waiting nothing goes on. -/
theorem goOn_noWaits (nv : Nv) (v : Vol) (h : noWaits v = true) : goOn nv v = v := by
  unfold noWaits at h
  simp only [Bool.and_eq_true, List.isEmpty_iff, Option.isNone_iff_eq_none] at h
  obtain ⟨⟨⟨hpark, hdiag⟩, hleft⟩, habort⟩ := h
  have hflush : flushParked nv v = v := by
    unfold flushParked
    rw [hpark]
    exact dmaSettle_noAbort nv v habort
  have h1 : streamReady v 1 = false := by simp [streamReady, hleft]
  have h2 : streamReady v 2 = false := by simp [streamReady, hdiag]
  unfold goOn
  rw [hflush]
  dsimp only
  unfold streamsRun
  cases streamWords v with
  | zero => rfl
  | succ n => rw [streamsGo, h1, h2]; rfl

/-- What keeps the waits and the memories: changes that leave alone the DMA engines' registers, the queues and the streams. -/
theorem noAbort_congr {v v' : Vol} (hdma : v'.dma = v.dma) (hregs : ∀ a, 0x40023000 ≤ a → a < 0x40025000 → rg v' a = rg v a) :
    noAbort v' = noAbort v := by
  have hact (i : Nat) (hi : i < 16) (b : Nat) : rb v' (aDma (i / 8) (i % 8) 0x104) b = rb v (aDma (i / 8) (i % 8) 0x104) b := by
    rw [rb, rb, hregs _ (by simp only [aDma, ra, pDma]; omega) (by simp only [aDma, ra, pDma]; omega)]
  unfold noAbort
  rw [Bool.eq_iff_iff, List.all_eq_true, List.all_eq_true]
  refine forall₂_congr fun i hi => ?_
  have hi := List.mem_range.mp hi
  simp only [dmaActive, hact i hi, dmaOf, hdma]

/-- The service port's pull-up changes its own block alone, and leaves no message behind. -/
theorem svcPull_spec (nv : Nv) (v : Vol) : let v' := svcPull nv v
    (v'.resetting = v.resetting ∧ v'.sram = v.sram ∧ v'.cores = v.cores) ∧ (v'.parked = v.parked ∧ v'.hsp = v.hsp ∧ v'.dma = v.dma)
      ∧ (v.svc.diag = [] → v'.svc.diag = []) ∧ ∀ a, a < 0x40025000 → rg v' a = rg v a := by
  have hset (u : Vol) (w : Word) {a : Nat} (ha : a < 0x40025000) : rg (rgSet u (ra pSvc 0x040) w) a = rg u a :=
    rg_rgSet_ne _ _ (by simp only [ra, pSvc]; omega)
  unfold svcPull
  dsimp only
  split
  · split
    · exact ⟨⟨rfl, rfl, rfl⟩, ⟨rfl, rfl, rfl⟩, id, fun a ha => hset _ _ ha⟩
    · exact ⟨⟨rfl, rfl, rfl⟩, ⟨rfl, rfl, rfl⟩, id, fun _ _ => rfl⟩
  · split
    · exact ⟨⟨rfl, rfl, rfl⟩, ⟨rfl, rfl, rfl⟩, id, fun _ _ => rfl⟩
    · refine ⟨⟨by simp, by simp, by simp⟩, ⟨by simp, by simp, by simp⟩, fun _ => by simp; rfl, fun a ha => ?_⟩
      rw [rg_raiseEvent_ne _ _ _ (by simp only [aEvPend, ra, pSvc]; omega), hset _ _ ha]
      rfl

/-- A block's reset ends: its mark goes, and beside it outputs alone change. -/
theorem blockResetEnds_touches (v : Vol) (p : Nat) (h : (pageInfo p).map (fun i => i.blk) ≠ some .mea) :
    Touches OutRegs { v with resetting := v.resetting.filter (· != p) } (blockResetEnds v p) := by
  unfold blockResetEnds
  extract_lets free
  split
  · next hp => rw [hp] at h; exact absurd rfl h
  · exact (motStart_touches _ free _).trans (outApply_touches _)
  · exact outApply_touches free
  · exact outApply_touches free
  · exact .refl _ free

theorem blockResetEnds_mea (v : Vol) (p : Nat) (h : (pageInfo p).map (fun i => i.blk) = some .mea) : blockResetEnds v p = v := by
  obtain ⟨inf, hinf, hblk⟩ := Option.map_eq_some_iff.mp h
  obtain ⟨blk, inst, dom⟩ := inf
  obtain rfl : blk = .mea := hblk
  unfold blockResetEnds
  rw [hinf]

theorem resetDone_eq (nv : Nv) (v : Vol) {p : Nat} (hp : (pageInfo p).isSome = true) : resetDone nv v (ra p 0)
    = goOn nv (if blockPage p = pSvc then svcPull nv (blockResetEnds v (blockPage p)) else blockResetEnds v (blockPage p)) := by
  have hpage : pageNo (ra p 0) = p := by simp only [pageNo, ra]; omega
  have hinf : (pageInfo p).isNone = false := by
    obtain ⟨inf, h⟩ := Option.isSome_iff_exists.mp hp
    simp [h]
  have hge : ¬ ra p 0 < 0x40000000 := by simp only [ra]; omega
  unfold resetDone
  rw [hpage, if_neg (by rw [hinf, decide_eq_false hge]; decide)]

/-- What the end of a block's reset leaves while nothing waits. -/
theorem resetDone_spec (nv : Nv) (v : Vol) {p : Nat} (hp : (pageInfo p).isSome = true) (hw : noWaits v = true)
    (h : (pageInfo (blockPage p)).map (fun i => i.blk) ≠ some .mea) : let v' := resetDone nv v (ra p 0)
    v'.resetting = v.resetting.filter (· != blockPage p) ∧ v'.sram = v.sram ∧ v'.cores = v.cores := by
  rw [resetDone_eq nv v hp]
  have ht := blockResetEnds_touches v (blockPage p) h
  generalize blockResetEnds v (blockPage p) = u at ht
  have hregs (a : Nat) (h1 : a < 0x40025000) : rg u a = rg v a :=
    (ht.regs a (by simp only [OutRegs]; omega)).trans rfl
  have hwaits (u' : Vol) (hpark : u'.parked = u.parked) (hhsp : u'.hsp = u.hsp) (hdma : u'.dma = u.dma)
      (hdiag : u.svc.diag = [] → u'.svc.diag = []) (hr : ∀ a, a < 0x40025000 → rg u' a = rg u a) : noWaits u' = true := by
    unfold noWaits at hw ⊢
    simp only [Bool.and_eq_true, List.isEmpty_iff, Option.isNone_iff_eq_none] at hw ⊢
    obtain ⟨⟨⟨h1, h2⟩, h3⟩, h4⟩ := hw
    refine ⟨⟨⟨by rw [hpark, ht.parked]; exact h1, hdiag (by rw [ht.svc]; exact h2)⟩, by rw [hhsp, ht.hsp]; exact h3⟩, ?_⟩
    rw [noAbort_congr (v := v) (by rw [hdma, ht.dma]) fun a _ ha => (hr a ha).trans (hregs a ha)]
    exact h4
  split
  · obtain ⟨⟨hres, hsram, hcores⟩, ⟨hpark, hhsp, hdma⟩, hdiag, hr⟩ := svcPull_spec nv u
    rw [goOn_noWaits nv _ (hwaits _ hpark hhsp hdma hdiag hr)]
    exact ⟨hres.trans ht.resetting, hsram.trans ht.sram, hcores.trans ht.cores⟩
  · rw [goOn_noWaits nv u (hwaits u rfl rfl rfl id fun _ _ => rfl)]
    exact ⟨ht.resetting, ht.sram, ht.cores⟩

theorem resetDone_mea (nv : Nv) (v : Vol) {p : Nat} (hp : (pageInfo p).isSome = true) (hw : noWaits v = true)
    (h : (pageInfo (blockPage p)).map (fun i => i.blk) = some .mea) : resetDone nv v (ra p 0) = v := by
  have hsvc : blockPage p ≠ pSvc := fun hb => by
    have hblk : (pageInfo pSvc).map (fun i => i.blk) = some .svc := by decide +kernel
    rw [hb, hblk] at h
    exact absurd h (by decide)
  rw [resetDone_eq nv v hp, if_neg hsvc, blockResetEnds_mea v _ h, goOn_noWaits nv v hw]

end Sys2Proof.Machine
end

section
/-! PROOFS. Time-outs of the matrix (R282), and the commands of gates, resets and time-outs together (O12). -/

namespace Sys2Proof.Machine

/-! ### A time-out is recorded -/

/-- The page of the matrix. -/
def MtxRegs (a : Nat) : Prop := 0x40020000 ≤ a ∧ a < 0x40021000

theorem mtxRegs_ra {off : Nat} (h : off < 0x1000) : MtxRegs (ra pMtx off) := by
  simp only [MtxRegs, ra, pMtx]; omega

theorem timeoutNoted_touches (v : Vol) (m id a : Nat) : Touches MtxRegs v (timeoutNoted v m id a) := by
  unfold timeoutNoted
  extract_lets v1 v2
  have h1 : Touches MtxRegs v v1 := touches_setFault v 0 (mtxRegs_ra (by decide))
  have h2 : Touches MtxRegs v1 v2 := touches_ite (.refl _ v1)
    ((touches_rgSet v1 _ (mtxRegs_ra (by decide))).trans (touches_rgSet _ _ (mtxRegs_ra (by decide))))
  exact (h1.trans h2).trans (touches_raiseEvent v2 0 (mtxRegs_ra (by decide)))

/-- FAULT.TIMEOUT is set and matrix event 0 has occurred. -/
def TimeoutShown (v v' : Vol) : Prop :=
  rb v' (aFault pMtx) 0 = true ∧ (rb v (aEvEn pMtx) 0 = true → rb v' (aEvPend pMtx) 0 = true)

theorem timeoutNoted_shown (v : Vol) (m id a : Nat) : TimeoutShown v (timeoutNoted v m id a) := by
  unfold timeoutNoted
  extract_lets v1 v2
  have h1 : rb v1 (aFault pMtx) 0 = true := rb_setFault_same v pMtx (by decide)
  have h1en : rg v1 (aEvEn pMtx) = rg v (aEvEn pMtx) := rg_rgSet_off _ _ (by decide)
  have h2 {o : Nat} (h84 : o ≠ 0x084) (h88 : o ≠ 0x088) : rg v2 (ra pMtx o) = rg v1 (ra pMtx o) := by
    show rg (if rb v1 (ra pMtx 0x084) 31 then v1 else _) (ra pMtx o) = _
    split
    · rfl
    · rw [rg_rgSet_off _ _ h88, rg_rgSet_off _ _ h84]
  constructor
  · rw [rb, rg_raiseEvent_ne _ _ _ (by decide), h2 (by decide) (by decide)]
    exact h1
  · intro hen
    rw [rb_raiseEvent v2 pMtx (by decide : 0 < 32), rb, rb, h2 (by decide) (by decide), h2 (by decide) (by decide), h1en, ← rb, ← rb, hen]
    simp

/-- A request whose answer will meet it. -/
def lateNoted (v : Vol) (m i a : Nat) : Vol :=
  { timeoutNoted v m i a with mtx := { v.mtx with late := v.mtx.late ++ [(m, i, a)] } }

theorem lateNoted_shown (v : Vol) (m i a : Nat) : TimeoutShown v (lateNoted v m i a) := timeoutNoted_shown v m i a

/-! ### The engines see no difference -/

/-- Two states that differ in the matrix's page and its late requests, but not in what the DMA engines go by. -/
structure SameEngines (v v' : Vol) : Prop where
  regs : ∀ a, ¬ MtxRegs a → rg v' a = rg v a
  now : v'.now = v.now
  free : v'.free = v.free
  sys : v'.sys = v.sys
  resetting : v'.resetting = v.resetting
  parked : v'.parked = v.parked
  dma : v'.dma = v.dma
  eth : v'.eth = v.eth
  can : v'.can = v.can
  cores : v'.cores = v.cores
  dmaLast : v'.mtx.dmaLast = v.mtx.dmaLast

theorem lateNoted_sameEngines (v : Vol) (m i a : Nat) : SameEngines v (lateNoted v m i a) := by
  have h := timeoutNoted_touches v m i a
  have heth : (timeoutNoted v m i a).eth = v.eth := by rw [h.rest]
  have hcan : (timeoutNoted v m i a).can = v.can := by rw [h.rest]
  exact ⟨h.regs, h.now, h.free, h.sys, h.resetting, h.parked, h.dma, heth, hcan, h.cores, rfl⟩

theorem place_dom_lt {a : Nat} {pl : Place} (h : place a = some pl) : pl.dom < 97 := by
  unfold place at h
  dsimp only at h
  split_ifs at h
  · obtain rfl := Option.some.inj h
    dsimp only
    omega
  · obtain rfl := Option.some.inj h
    dsimp only
    omega
  · obtain rfl := Option.some.inj h
    dsimp only
    omega

theorem addrDom_lt (a : Nat) : addrDom a < 97 := by
  unfold addrDom flashDom
  split
  · split_ifs <;> decide
  · cases hp : place a with
    | some pl => exact place_dom_lt hp
    | none =>
      dsimp only
      split
      · decide
      · exact pageDom_lt _

namespace SameEngines

variable {v v' : Vol} (h : SameEngines v v')
include h

theorem ready_eq (p : Nat) : ready v' p = ready v p :=
  ready_congr (fun a ha => h.regs a (by unfold MtxRegs; omega)) h.now h.sys h.resetting p

theorem domUp_eq {d : Nat} (hd : d < 97) : domUp v' d = domUp v d := by
  have hreg : rg v' (ra pPwr (0x04C + 4 * ((d - 1) / 32))) = rg v (ra pPwr (0x04C + 4 * ((d - 1) / 32))) :=
    h.regs _ (by simp only [MtxRegs, ra, pPwr]; omega)
  simp only [domUp, domOn, rb, hreg, h.sys, h.now]

theorem rg_dma {e : Nat} (he : e < 2) (off : Nat) : rg v' (ra (pDma e) off) = rg v (ra (pDma e) off) :=
  h.regs _ (by simp only [MtxRegs, ra, pDma]; omega)

theorem dmaOf_eq (e c : Nat) : dmaOf v' e c = dmaOf v e c := by rw [dmaOf, dmaOf, h.dma]

theorem dmaActive_eq {e : Nat} (he : e < 2) (c : Nat) : dmaActive v' e c = dmaActive v e c := by
  rw [dmaActive, dmaActive, rb, rb, h.rg_dma he]

theorem targetUp_eq (a : Nat) : targetUp v' a = targetUp v a := by
  rw [targetUp, targetUp, h.domUp_eq (addrDom_lt a), h.ready_eq]

theorem reqLine_eq (n : Nat) : reqLine v' n = reqLine v n := by
  have hrf : rf v' (ra pEth 0x05C) 10 0 = rf v (ra pEth 0x05C) 10 0 := by
    rw [rf, rf, h.regs _ (by simp only [MtxRegs, ra, pEth]; omega)]
  have hcan : canOf v' = canOf v := funext fun e => by rw [canOf, canOf, h.can]
  unfold reqLine
  rw [h.eth, hrf, h.free, hcan]

theorem dmaReady_eq {e : Nat} (he : e < 2) (c : Nat) : dmaReady v' e c = dmaReady v e c := by
  have hctl : rb v' (aCtl (pDma e)) 0 = rb v (aCtl (pDma e)) 0 := by rw [rb, rb, h.rg_dma he]
  simp only [dmaReady, dmaRuns, h.ready_eq, hctl, h.dmaActive_eq he, h.dmaOf_eq, h.targetUp_eq, h.reqLine_eq]

theorem dmaGrant_eq {e : Nat} (he : e < 2) : dmaGrant v' e = dmaGrant v e := by
  have hpri (c : Nat) : rb v' (aDma e c 0x104) 1 = rb v (aDma e c 0x104) 1 := by rw [rb, rb, h.rg_dma he]
  have hready : dmaReady v' e = dmaReady v e := funext (h.dmaReady_eq he)
  simp only [dmaGrant, hready, hpri, h.dmaLast]

end SameEngines

/-! ### A late descriptor read (R293) -/

theorem dmaOf_setDma (v : Vol) (e c c' : Nat) (d : DmaCh) :
    dmaOf (setDma v e c d) e c' = if c' = c then d else dmaOf v e c' := by
  rw [dmaOf, setDma, smapGet_set]
  by_cases h : c' = c
  · rw [if_pos (by omega), if_pos h]
  · rw [if_neg (by omega), if_neg h]
    rfl

/-- A channel that the engine takes up anew holds no wait: its master has no more outstanding than before. -/
theorem heldBack_granted (v : Vol) {e : Nat} (he : e < 2) (c : Nat) (r : Req) (hr : r.master = 9 + e) (h : heldBack v r = false) :
    heldBack (setDma (dmaGranted v e c) e c dmaIdle) r = false := by
  have hcount : (List.range 8).countP (fun c' => (dmaOf (setDma (dmaGranted v e c) e c dmaIdle) e c').wait.isSome)
      ≤ (List.range 8).countP fun c' => (dmaOf v e c').wait.isSome := by
    refine List.countP_mono_left fun c' _ hw => ?_
    rw [dmaOf_setDma] at hw
    split at hw
    · exact absurd hw (by decide)
    · exact hw
  have hout : outstanding (setDma (dmaGranted v e c) e c dmaIdle) r.master ≤ outstanding v r.master := by
    have hm : r.master - 9 = e := by omega
    have hpark : (setDma (dmaGranted v e c) e c dmaIdle).parked = v.parked := rfl
    unfold outstanding
    rw [if_neg (by omega), if_pos (by omega), if_neg (by omega), if_pos (by omega), hm, hpark]
    omega
  unfold heldBack at h ⊢
  rw [Bool.or_eq_false_iff] at h ⊢
  exact ⟨h.1, decide_eq_false fun h8 => absurd (Nat.le_trans h8 hout) (of_decide_eq_false h.2)⟩

/-- A read that is late answers TIMEOUT, and its mark goes. -/
theorem busTry_late (nv : Nv) (v : Vol) (r : Req) (hb : heldBack v r = false) (hr : r.write = false)
    (hl : v.mtx.late.contains (r.master, r.id, r.addr) = true) : busTry nv v r
      = (answer { v with mtx := { v.mtx with late := v.mtx.late.erase (r.master, r.id, r.addr) } } 5 TWord.zero, false) := by
  unfold busTry busLate busLateBy
  rw [hb, hl, hr]
  rfl

theorem beatsRead_late (nv : Nv) (v u : Vol) (m id a : Nat)
    (h : busTry nv v ⟨m, id, false, .word, a, TWord.zero⟩ = (answer u 5 TWord.zero, false)) :
    beatsRead nv m id .word false 8 a v = (answer u 5 TWord.zero, [], 5, false) := by
  unfold beatsRead beatsFrom
  rw [h]
  rfl

/-- A channel whose descriptor read is late stops with RESP 5. -/
theorem dmaFetch_late (nv : Nv) (v : Vol) {e c : Nat} (he : e < 2) (hlive : (dmaOf v e c).live = false)
    (hgrant : dmaGrant v e = some c) (hb : heldBack v ⟨9 + e, c, false, .word, (rg v (aDma e c 0x100)).toNat, TWord.zero⟩ = false)
    (hl : v.mtx.late.contains (9 + e, c, (rg v (aDma e c 0x100)).toNat) = true) :
    let u := setDma (dmaGranted v e c) e c dmaIdle
    dmaFetch nv v e c = dmaStopped (answer { u with mtx := { u.mtx with
      late := v.mtx.late.erase (9 + e, c, (rg v (aDma e c 0x100)).toNat) } } 5 TWord.zero) e c 5 0 := by
  intro u
  have htry := busTry_late nv u ⟨9 + e, c, false, .word, (rg v (aDma e c 0x100)).toNat, TWord.zero⟩
    (heldBack_granted v he c _ rfl hb) rfl hl
  unfold dmaFetch
  rw [if_neg (by rw [hlive, hgrant]; simp)]
  dsimp only
  rw [beatsRead_late nv u _ _ _ _ htry]
  dsimp only
  rw [if_pos (by decide), dmaStop, if_pos (.inl rfl)]
  rfl

theorem raiseEvent_mtx (v : Vol) (p i : Nat) : (raiseEvent v p i).mtx = v.mtx := by
  rw [(touches_raiseEvent (W := fun _ => True) v i trivial).rest]

/-- A channel that has stopped with RESP 5 before its descriptor was read. -/
theorem dmaStopped_spec (v : Vol) {e c : Nat} (he : e < 2) (hd : dmaOf v e c = dmaIdle) : let t := dmaStopped v e c 5 0
    dmaActive t e c = false ∧ rg t (aDma e c 0x108) = 0x68000000 ∧ t.sram = v.sram ∧ t.mtx = v.mtx
      ∧ ∀ a, MtxRegs a → rg t a = rg v a := by
  have hpage {off a : Nat} (ha : MtxRegs a) : a ≠ ra (pDma e) off := by
    simp only [MtxRegs, ra, pDma] at ha ⊢; omega
  have hset (u : Vol) (a : Nat) : rg (setDma u e c dmaIdle) a = rg u a := rfl
  have hoff {off : Nat} (h1 : off ≠ 0x018) (h2 : off ≠ 0x044) (u : Vol) :
      rg (raiseEvent (rgOr (setDma u e c dmaIdle) (ra (pDma e) 0x044) (bitWord c)) (pDma e) 1) (ra (pDma e) off)
        = rg u (ra (pDma e) off) := by
    rw [rg_raiseEvent_ne _ _ _ (by simp only [aEvPend, ra]; omega), rgOr, rg_rgSet_off _ _ h2, hset]
  unfold dmaStopped
  rw [hd]
  dsimp only
  refine ⟨?_, ?_, ?_, ?_, fun a ha => ?_⟩
  · rw [dmaActive, rb, hoff (by omega) (by omega), rg_rgSet_same]
    simp
  · rw [hoff (by omega) (by omega), rg_rgSet_off _ _ (by omega), rg_rgSet_same]
    decide
  · rw [raiseEvent_sram]
    rfl
  · rw [raiseEvent_mtx]
    rfl
  · rw [rg_raiseEvent_ne _ _ _ (hpage ha), rgOr, rg_rgSet_ne _ _ (hpage ha), hset, rg_rgSet_ne _ _ (hpage ha), rg_rgSet_ne _ _ (hpage ha)]

/-! ### MATRIX_TIMEOUT -/

theorem matrixTimeout_idle (nv : Nv) (v : Vol) (m id a : Nat) (h : counts v a = false) : matrixTimeout nv v m id a = v := by
  unfold matrixTimeout
  dsimp only
  rw [if_pos (by rw [h]; rfl)]

/-- Nothing happens to a request whose count does not run, of the store buffer either. -/
theorem requestTimeout_idle (nv : Nv) (v : Vol) (m id a : Nat) (h : counts v a = false) : requestTimeout nv v m id a = v := by
  unfold requestTimeout
  split
  · split
    · dsimp only
      rw [if_neg (by rw [h]; simp)]
      exact matrixTimeout_idle nv v m id a h
    · exact matrixTimeout_idle nv v m id a h
  · exact matrixTimeout_idle nv v m id a h

/-- A request of another master than the service core, or one that a core's access has outstanding, is the matrix's own. -/
theorem requestTimeout_matrix (nv : Nv) (v : Vol) (m id a : Nat) (h : m = 8 → (coreReqs (coreOf v 8)).contains a = true) :
    requestTimeout nv v m id a = matrixTimeout nv v m id a := by
  unfold requestTimeout
  rw [if_neg]
  by_cases hm : m = 8
  · rw [h hm]; simp
  · simp [hm]

theorem coreReqs_contains {c : Core} {a : Nat} (h : ∃ x ∈ heldOf c, x.addr = a ∧ x.resp = none) : (coreReqs c).contains a = true := by
  obtain ⟨x, hx, rfl, hresp⟩ := h
  rw [List.contains_iff_mem]
  refine List.mem_flatMap.mpr ⟨x, List.mem_filter.mpr ⟨hx, by rw [hresp]; rfl⟩, ?_⟩
  unfold halvesOf
  split
  · simp
  · simp

section
variable (nv : Nv) (v : Vol) {m id a : Nat} (hc : counts v a = true)
include hc

/-- With no request waiting the answer meets a core's access. -/
theorem matrixTimeout_core (hm : m < 9) (hp : v.parked = []) (h : (coreReqs (coreOf v m)).contains a = true) :
    matrixTimeout nv v m id a = lateNoted v m (ownId v m id a) a := by
  unfold matrixTimeout
  dsimp only
  rw [if_neg (by rw [hc]; decide), hp]
  dsimp only [List.find?_nil]
  rw [if_pos hm, if_pos h]
  rfl

/-- And another engine's request. -/
theorem matrixTimeout_engine (hm : 11 ≤ m) (hp : v.parked = []) :
    matrixTimeout nv v m id a = answer (lateNoted v m (ownId v m id a) a) 5 TWord.zero := by
  unfold matrixTimeout
  dsimp only
  rw [if_neg (by rw [hc]; decide), hp]
  dsimp only [List.find?_nil]
  rw [if_neg (by omega), if_neg (by omega)]
  rfl

/-- A request that waits to be granted is withdrawn and answered. -/
theorem matrixTimeout_waiting (hm : 9 ≤ m) {r : Req}
    (hr : (v.parked.find? fun q => q.master == m && q.addr == a && q.id == id) = some r) : matrixTimeout nv v m id a
      = shown (answer { timeoutNoted v m r.id a with parked := v.parked.erase r } 5 TWord.zero) r := by
  have hpred : (fun q : Req => q.master == m && q.addr == a && (decide (m < 9) || q.id == id))
      = fun q => q.master == m && q.addr == a && q.id == id := by
    rw [decide_eq_false (by omega)]
    simp
  unfold matrixTimeout
  dsimp only
  rw [if_neg (by rw [hc]; decide), hpred, hr]

/-- A channel whose descriptor read has the time-out stops. -/
theorem matrixTimeout_dma {e c : Nat} (he : e < 2) (hc8 : c < 8) (hlive : (dmaOf v e c).live = false) (hgrant : dmaGrant v e = some c)
    (hb : heldBack v ⟨9 + e, c, false, .word, a, TWord.zero⟩ = false) (ha : a = (rg v (aDma e c 0x100)).toNat)
    (hl : (9 + e, c, a) ∉ v.mtx.late) : let t := matrixTimeout nv v (9 + e) c a
    TimeoutShown v t ∧ dmaActive t e c = false ∧ rg t (aDma e c 0x108) = 0x68000000 ∧ t.sram = v.sram := by
  have hfind : (v.parked.find? fun q => q.master == 9 + e && q.addr == a && (decide (9 + e < 9) || q.id == c)) = none := by
    rw [List.find?_eq_none]
    intro q hq hpred
    unfold heldBack at hb
    rw [Bool.or_eq_false_iff, decide_eq_true (by omega : 9 ≤ 9 + e), Bool.true_and, List.any_eq_false] at hb
    have := hb.1 q hq
    simp at this hpred
    omega
  have hid : ownId v (9 + e) c a = c := by
    unfold ownId
    dsimp only
    rw [if_neg (by omega), if_neg (by omega), if_neg (by omega), if_neg (by omega)]
  have hsame := lateNoted_sameEngines v (9 + e) c a
  have hshown := lateNoted_shown v (9 + e) c a
  have hsram : (lateNoted v (9 + e) c a).sram = v.sram := (timeoutNoted_touches v (9 + e) c a).sram
  have hlate : (lateNoted v (9 + e) c a).mtx.late = v.mtx.late ++ [(9 + e, c, a)] := rfl
  have heq : matrixTimeout nv v (9 + e) c a
      = (if (dmaFetch nv (lateNoted v (9 + e) c a) e c).mtx.late.contains (9 + e, c, a) then v
        else dmaFetch nv (lateNoted v (9 + e) c a) e c) := by
    unfold matrixTimeout
    dsimp only
    rw [if_neg (by rw [hc]; decide), hfind]
    dsimp only
    rw [if_neg (by omega), if_pos (by omega), if_neg (by omega), hid, Nat.add_sub_cancel_left]
    rw [show (dmaOf { timeoutNoted v (9 + e) c a with mtx := { v.mtx with late := v.mtx.late ++ [(9 + e, c, a)] } } e c).live = false from
      (congrArg DmaCh.live (hsame.dmaOf_eq e c)).trans hlive]
    rfl
  generalize lateNoted v (9 + e) c a = u at hsame hshown hsram hlate heq
  have hreg : (rg u (aDma e c 0x100)).toNat = a := by rw [hsame.rg_dma he, ← ha]
  have hback : heldBack u ⟨9 + e, c, false, .word, a, TWord.zero⟩ = false := by
    have hout : outstanding u (9 + e) = outstanding v (9 + e) := by
      simp only [outstanding, hsame.parked, coreOf, hsame.cores, hsame.dmaOf_eq]
    rw [← hb, heldBack, heldBack, hsame.parked]
    dsimp only
    rw [hout]
  have hfetch := dmaFetch_late nv u he (by rw [hsame.dmaOf_eq]; exact hlive) (by rw [hsame.dmaGrant_eq he]; exact hgrant)
    (by rw [hreg]; exact hback) (by rw [hreg, hlate]; simp)
  rw [hreg, hlate, List.erase_append_right _ hl, List.erase_cons_head, List.append_nil] at hfetch
  have hidle : dmaOf (setDma (dmaGranted u e c) e c dmaIdle) e c = dmaIdle := by rw [dmaOf_setDma, if_pos rfl]
  have hregs (x : Nat) : rg (setDma (dmaGranted u e c) e c dmaIdle) x = rg u x := rfl
  have hmem : (setDma (dmaGranted u e c) e c dmaIdle).sram = u.sram := rfl
  generalize setDma (dmaGranted u e c) e c dmaIdle = g at hfetch hidle hregs hmem
  obtain ⟨hact, hst, hs, hm, hmtx⟩ := dmaStopped_spec (answer { g with mtx := { g.mtx with late := v.mtx.late } } 5 TWord.zero) he
    (c := c) hidle
  rw [hfetch] at heq
  rw [heq, if_neg]
  · refine ⟨⟨?_, fun hen => ?_⟩, hact, hst, hs.trans (hmem.trans hsram)⟩
    · rw [rb, hmtx _ (mtxRegs_ra (by decide))]
      exact (congrArg (bit · 0) (hregs _)).trans hshown.1
    · rw [rb, hmtx _ (mtxRegs_ra (by decide))]
      exact (congrArg (bit · 0) (hregs _)).trans (hshown.2 hen)
  · rw [hm, List.contains_iff_mem]
    exact hl

end

end Sys2Proof.Machine

namespace Sys2Proof

open Sys2Proof.Machine

/-- Settles O12, each command by its rules above. -/
theorem blockGateResetAndTimeout : Obligations.BlockGateResetAndTimeout := by
  intro s m id p a hp v b page auto hard
  have hpage : page.toNat = ra p 0 := toNat_ra (pageInfo_lt hp) (by decide)
  refine ⟨?_, ?_, ?_, ?_⟩
  · have h := gateCloses_eq v hp
    have hexec : exec (.gateAutoClose page) s = .next (withVol s (gateCloses v (ra p 0))) := by rw [← hpage]; rfl
    rw [hexec]
    exact ⟨fun hc => next_congr s (h.trans (if_pos hc)), fun hc => next_congr s (h.trans (if_neg hc))⟩
  · intro ho
    obtain ⟨inf, hinf⟩ := pageOpen_info ho
    have hexec := exec_blockSoftrst_open s m hinf ho
    have hready : ready v b = true := (pageOpen_iff.mp ho).2.2.1
    refine ⟨fun h1 h2 => ?_, fun hb => ?_, fun hb hh => ?_⟩
    · rw [pageWrite_softrst s.nv v inf m p (by rintro (h | ⟨h, hh⟩); exacts [h1 h, h2 h hh]), softReset_plain v h1 h2] at hexec
      exact ⟨hexec, ready_blockReset v b⟩
    · rw [pageWrite_softrst_refused s.nv v inf m p (.inl hb), blockWrite_lks_ctl _ _ _ hinf hb] at hexec
      have hpg : 0x70 ≤ p := by
        have hb : blockPage p = 0x70 := hb
        unfold blockPage at hb
        split_ifs at hb <;> omega
      refine ⟨setFault (regWrite v p 0x008 .setBits 0x80000000) pLks 5, ?_, rb_setFault_same _ _ (by decide), ?_⟩
      · rw [hexec]
        show _ = Host.Outcome.next (performed s m (aCtl p + 0x400) 0x80000000 (setFault _ pLks 5))
        rw [← softReset_lks, show blockPage p = pLks from hb]
      · rw [ready_setFault _ _ _ _ (by decide), ready_regWrite _ _ _ _ _ (by rw [show blockPage p = pLks from hb]; decide) (by omega)]
        exact hb ▸ hready
    · rw [pageWrite_softrst_refused s.nv v inf m p (.inr ⟨hb, hh⟩)] at hexec
      have hp38 : p = pTrp := by
        have hb : blockPage p = 0x38 := hb
        unfold blockPage at hb
        show p = 0x38
        split_ifs at hb <;> omega
      subst hp38
      have hblk : inf.blk = .trp := blk_of_page hinf (by decide +kernel)
      obtain ⟨hr, hhard⟩ := trpWrite_ctl v 0x80000000 (hb ▸ hready) hh
      refine ⟨setFault (trpWrite v 0x008 .setBits 0x80000000) pTrp 1, ?_, rb_setFault_same _ _ (by decide), ?_⟩
      · rw [hexec, show blockPage pTrp = pTrp from hb, ← softReset_trp _ hhard]
        simp only [blockWrite, hblk]
      · rw [ready_setFault _ _ _ _ (by decide)]
        exact hr
  · intro hw
    have hexec : exec (.blockResetDone page) s = .next (withVol s (resetDone s.nv v (ra p 0))) := by rw [← hpage]; rfl
    refine ⟨fun h => ?_, fun h => ?_⟩
    · obtain ⟨hres, hsram, hcores⟩ := resetDone_spec s.nv v hp hw h
      exact ⟨_, hexec, hres, hsram, hcores, withVol_nv s _⟩
    · rw [hexec, resetDone_mea s.nv v hp hw h]
  · intro noted i late
    have hm16 := m.isLt
    have hexec (h : m.val = 8 → (coreReqs (coreOf v 8)).contains a.toNat = true) :
        exec (.matrixTimeout m id a) s = .next (withVol s (matrixTimeout s.nv v m id a.toNat)) :=
      next_congr s (requestTimeout_matrix s.nv v m id a.toNat h)
    refine ⟨fun hc => ⟨fun hm hp hheld => ?_, fun hm hp => ?_, fun r hm hr => ?_, ?_⟩, fun hc => ?_⟩
    · have hcont := coreReqs_contains hheld
      rw [hexec (fun h8 => h8 ▸ hcont), matrixTimeout_core s.nv v hc hm hp hcont]
      exact ⟨rfl, lateNoted_shown v m i a.toNat⟩
    · rw [hexec (by omega), matrixTimeout_engine s.nv v hc hm hp]
      exact ⟨rfl, lateNoted_shown v m i a.toNat⟩
    · rw [hexec (by omega), matrixTimeout_waiting s.nv v hc hm hr]
    · intro e c hme hidc hlive hgrant hb ha hl
      rw [hexec (by omega), hme, hidc]
      rw [hme, hidc] at hl
      rw [show heldBack v ⟨m, id, false, .word, a.toNat, TWord.zero⟩ = heldBack v ⟨9 + e.val, c.val, false, .word, a.toNat, TWord.zero⟩ by
        rw [hme, hidc]] at hb
      obtain ⟨hshown, hact, hst, hsram⟩ := matrixTimeout_dma s.nv v hc e.isLt c.isLt hlive hgrant hb (congrArg BitVec.toNat ha) hl
      exact ⟨_, rfl, hshown, hact, hst, hsram, withVol_nv s _⟩
    · exact next_congr s (requestTimeout_idle s.nv v m id a.toNat hc)

end Sys2Proof
end

section
/-! PROOFS. Commits that wait (O26, O27): R110 lets a commit wait while a store of its core to staging is not accepted, also one that an
entry has moved into the frame (R198), and a core in a handler issues. The two statements leave this hold out. -/

namespace Sys2Proof.Machine

/-- A trigger that its unit holds changes nothing (R127). -/
theorem triggerMove_of_holds (nv : Nv) (v : Vol) (k d : Nat) (w : TWord)
    (h : trigHolds k d (untag k w) (modeDue (coreOf v k)) = true) : triggerMove nv v k d w = v := by
  unfold triggerMove triggerWith
  simp only [List.foldl_nil, h, if_true, ite_self]

/-- Control core 3 runs, and its frame holds a store to a staging register of Stoker that no response has answered (R198). -/
def stagingStoreFramed : Core :=
  { Core.reset with
    run := true
    fheld := [(0, ⟨true, 4, 0x40041040, TWord.zero, false, 0, 0, 80, none, false, none, false⟩)] }

/-- A part in RUN with the domains up and such a store in the frame of core 3, with the commits of this tick. -/
def framedStorePart (commits : SMap Nat) : State :=
  withVol State.reset { State.reset.vol with
    regs := smapSet regReset State.reset.vol.regs 0x4000204C 0xFFFFFFFF
    sys := { State.reset.vol.sys with mode := .run }
    tick := { State.reset.vol.tick with commits := commits }
    cores := State.reset.vol.cores.set 3 stagingStoreFramed }

theorem framedStorePart_core (commits : SMap Nat) : coreOf (framedStorePart commits).vol 3 = stagingStoreFramed := rfl

theorem framedStorePart_canMove (commits : SMap Nat) : canMove (framedStorePart commits).vol 3 = true := by
  have hready : coreUp (framedStorePart []).vol 3 = true := by decide +kernel
  have hhalt : ctlBit (framedStorePart []).vol 3 5 = false := by decide +kernel
  have hup : coreUp (framedStorePart commits).vol 3 = true := hready
  have hgo : ctlBit (framedStorePart commits).vol 3 5 = false := hhalt
  simp [canMove, issuing, hup, hgo, framedStorePart_core, stagingStoreFramed, Core.reset]

/-- The commit of core 3 waits for that store. -/
theorem exec_commit_framedStore (commits : SMap Nat) :
    exec (.commit 3) (framedStorePart commits) = .next (framedStorePart commits) := by
  have hholds : trigHolds 3 89 (untag 3 TWord.zero) (modeDue stagingStoreFramed) = true := by decide +kernel
  have hmove := triggerMove_of_holds (framedStorePart commits).nv (framedStorePart commits).vol 3 89 TWord.zero hholds
  show (.next (withVol _ (triggerMove _ _ 3 89 TWord.zero)) : Out) = _
  rw [hmove]

end Sys2Proof.Machine

namespace Sys2Proof

open Sys2Proof.Machine

/-- Refutes O26: core 3, with a store to staging held in its frame, does not commit although it can move and has not committed. -/
theorem not_waitsAndCommitAct : ¬ Obligations.WaitsAndCommitAct := by
  intro h
  obtain ⟨-, hcontrol, -⟩ := h (framedStorePart [])
  obtain ⟨-, hcommit⟩ := hcontrol 3 (framedStorePart_canMove [])
  obtain ⟨t, hexec, hnoted, -⟩ := hcommit rfl
  have ht := Host.Outcome.next.inj ((exec_commit_framedStore []).symm.trans hexec)
  rw [← ht] at hnoted
  exact absurd hnoted (by decide)

/-- Refutes O27: the second commit of core 3, with a store to staging held in its frame, reports nothing. -/
theorem not_secondCommitOnlyFaults : ¬ Obligations.SecondCommitOnlyFaults := by
  intro h
  obtain ⟨-, hnext⟩ := h (framedStorePart [(3, 70)]) 3 (framedStorePart_canMove _) rfl
  obtain ⟨-, hfault, -⟩ := hnext _ (exec_commit_framedStore [(3, 70)])
  exact absurd hfault (by decide +kernel)

end Sys2Proof
end

section
/-! SUPPORT. Writes of a block's CTL through the bit-set and bit-clear aliases (R4, R6), which start and stop what the block does. -/

namespace Sys2Proof.Machine

section
variable (nv : Nv) (v : Vol) (m : Nat) {p : Nat} {inf : PageInfo} (w : Word)

/-- The block's first page takes a write of its CTL, but for SOFTRST. -/
theorem pageWrite_ctl (via : Via) (hp : pageInfo p = some inf) (hw : bit w 31 = false) :
    pageWrite nv v inf m p 0x008 via (TWord.ofWord w) = blockWrite nv v inf m p 0x008 via w :=
  pageWrite_block _ _ _ _ _ _ _ _ (stageChan_low (by decide)) (specAt_ctl (by simp [hp])) (by decide) (fun _ => hw)
    (fun h => absurd h (by decide))

theorem setBits_ctl (hp : pageInfo p = some inf) (ho : pageOpen v m p = true) (hw : bit w 31 = false) :
    setBits nv v m (aCtl p) w = finish nv (answer (blockWrite nv v inf m p 0x008 .setBits w) 0 TWord.zero)
      ⟨m, masterId v m, true, .word, aCtl p + 0x400, TWord.ofWord w⟩ := by
  rw [setBits, wr, busWrite_open_set nv v m p 0x008 _ inf hp ho (by decide) (by decide), pageWrite_ctl _ _ _ _ _ hp hw]

theorem clearBits_ctl (hp : pageInfo p = some inf) (ho : pageOpen v m p = true) (hw : bit w 31 = false) :
    clearBits nv v m (aCtl p) w = finish nv (answer (blockWrite nv v inf m p 0x008 .clearBits w) 0 TWord.zero)
      ⟨m, masterId v m, true, .word, aCtl p + 0x800, TWord.ofWord w⟩ := by
  rw [clearBits, wr, busWrite_open_clear nv v m p 0x008 _ inf hp ho (by decide) (by decide), pageWrite_ctl _ _ _ _ _ hp hw]

end

/-! ### Registers without reserved codes, through the aliases -/

section
variable (v : Vol) {p off : Nat} {sp : RegSpec} {w : Word} (hs : specAt p off = some sp) (hc : sp.chk = []) (ho : sp.rwo = 0)
  (hw : w &&& BitVec.ofNat 32 sp.rw = w)
include hs hc ho hw

/-- A write of writable bits at the bit-set address sets them. -/
theorem regWrite_setBits : regWrite v p off .setBits w = rgOr v (ra p off) w := by
  rw [regWrite_plain v p off _ w sp hs hc ho, takenValue, hw]; rfl

/-- A write of writable bits at the bit-clear address clears them. -/
theorem regWrite_clearBits (h1 : sp.w1c = 0) : regWrite v p off .clearBits w = rgClr v (ra p off) w := by
  rw [regWrite_plain v p off _ w sp hs hc ho, takenValue, hw, h1]
  have hone (x : Word) : x &&& 4294967295#32 = x := BitVec.and_allOnes
  simp [rgClr, hone]

end

theorem rb_rgOr (v : Vol) (a : Nat) (w : Word) (i : Nat) : rb (rgOr v a w) a i = (rb v a i || bit w i) := by
  simp [rb, rgOr, bit]

theorem rb_rgClr (v : Vol) (a : Nat) (w : Word) {i : Nat} (hi : i < 32) : rb (rgClr v a w) a i = (rb v a i && !bit w i) := by
  simp [rb, rgClr, bit, hi]

theorem rg_rgOr_ne (v : Vol) {a b : Nat} (w : Word) (h : b ≠ a) : rg (rgOr v a w) b = rg v b := rg_rgSet_ne _ _ h
theorem rg_rgClr_ne (v : Vol) {a b : Nat} (w : Word) (h : b ≠ a) : rg (rgClr v a w) b = rg v b := rg_rgSet_ne _ _ h

end Sys2Proof.Machine
end

section
/-! PROOFS. The registers of the tick page (O14): EN and APPLY, the reads that latch, the service core's commit, and the check of an apply
(R54-R56, R58, R65, R75). -/

namespace Sys2Proof.Machine

/-! ### TICK_CTL -/

theorem specAt_tickCtl : specAt pTick 0x008 = some ⟨0x008, 4, 1, 3, 0, 0, 0, []⟩ := by decide +kernel

section
variable (v : Vol) (happly : rb v (aCtl pTick) 1 = false)
include happly

/-- EN rises (R54, R58, log entry 99). -/
theorem tickWrite_enRises (h : rb v (aCtl pTick) 0 = false) : tickWrite v 0x008 .setBits 1 =
    if v.tick.running then setTick (rgOr v (aCtl pTick) 1) fun t => { t with stopReq := false }
    else meaStart (setTick (rgOr v (aCtl pTick) 1) fun t => { t with
      running := true, everOn := true, stopReq := false, next := v.now + 64, first := true
      inPhase := 0, mainsLeft := 0, mainsLong := 0, mainsZc := some v.now }) := by
  have hen : rb (rgOr v (aCtl pTick) 1) (aCtl pTick) 0 = true := by simp [rb_rgOr]
  have hap : rb (rgOr v (aCtl pTick) 1) (aCtl pTick) 1 = false := by rw [rb_rgOr, happly]; decide
  simp only [rb] at h happly hen hap
  unfold tickWrite
  rw [regWrite_setBits v specAt_tickCtl rfl rfl (by decide)]
  simp only [rose, fell, h, happly, hen, hap, if_true, if_false, Bool.not_false, Bool.not_true, Bool.and_true, Bool.and_false, Bool.false_and,
    Bool.false_eq_true]
  rfl

/-- EN that is 1 stays 1 with no effect. -/
theorem tickWrite_enStays (h : rb v (aCtl pTick) 0 = true) : tickWrite v 0x008 .setBits 1 = rgOr v (aCtl pTick) 1 := by
  have hen : rb (rgOr v (aCtl pTick) 1) (aCtl pTick) 0 = true := by simp [rb_rgOr]
  have hap : rb (rgOr v (aCtl pTick) 1) (aCtl pTick) 1 = false := by rw [rb_rgOr, happly]; decide
  simp only [rb] at h happly hen hap
  unfold tickWrite
  rw [regWrite_setBits v specAt_tickCtl rfl rfl (by decide)]
  simp only [rose, fell, h, happly, hen, hap, if_true, if_false, Bool.not_false, Bool.not_true, Bool.and_true, Bool.and_false, Bool.false_and,
    Bool.false_eq_true]

/-- EN is written 0 (R58): where it was 1, the generator is asked to stop. -/
theorem tickWrite_enClears : tickWrite v 0x008 .clearBits 1 =
    if rb v (aCtl pTick) 0 then setTick (rgClr v (aCtl pTick) 1) fun t => { t with stopReq := true } else rgClr v (aCtl pTick) 1 := by
  have hen : rb (rgClr v (aCtl pTick) 1) (aCtl pTick) 0 = false := by simp [rb_rgClr]
  have hap : rb (rgClr v (aCtl pTick) 1) (aCtl pTick) 1 = false := by rw [rb_rgClr _ _ _ (by decide), happly]; decide
  simp only [rb] at happly hen hap ⊢
  unfold tickWrite
  rw [regWrite_clearBits v specAt_tickCtl rfl rfl (by decide) rfl]
  simp only [rose, fell, happly, hen, hap, if_true, if_false, Bool.not_false, Bool.and_true, Bool.and_false, Bool.false_and,
    Bool.false_eq_true]
  rfl

/-- APPLY is written 1 (R55): checked at once before the generator was ever on, else at the next boundary. -/
theorem tickWrite_apply : tickWrite v 0x008 .setBits 2 =
    if v.tick.everOn then rgOr (rgOr v (aCtl pTick) 2) (aStat pTick) 8 else applyCheck (rgOr v (aCtl pTick) 2) := by
  have hen : rb (rgOr v (aCtl pTick) 2) (aCtl pTick) 0 = rb v (aCtl pTick) 0 := by rw [rb_rgOr]; simp
  have hap : rb (rgOr v (aCtl pTick) 2) (aCtl pTick) 1 = true := by rw [rb_rgOr, happly]; decide
  have hon : (rgOr v (ra pTick 0x008) 2).tick.everOn = v.tick.everOn := rfl
  simp only [rb] at happly hen hap
  unfold tickWrite
  rw [regWrite_setBits v specAt_tickCtl rfl rfl (by decide)]
  simp only [rose, fell, happly, hen, hap, hon, if_true, if_false, Bool.not_false, Bool.and_true, Bool.true_and,
    Bool.false_eq_true, Bool.not_and_self, Bool.and_not_self]
  cases v.tick.everOn <;> rfl

end

/-! ### The check of an apply (R55, R56) -/

/-- The registers that an apply takes (R55). -/
def tickKept (a : Nat) : Bool := decide (aTick 0x040 ≤ a) && decide (a < aTick 0x400) && tickBuffered (a - aTick 0)

theorem tickBuffered_ge {off : Nat} (h : tickBuffered off = true) : 0x040 ≤ off := by
  simp only [tickBuffered, Bool.or_eq_true, Bool.and_eq_true, decide_eq_true_eq, beq_iff_eq] at h
  omega

theorem tickKept_aTick {off : Nat} (h : off < 0x400) (hb : tickBuffered off = true) : tickKept (aTick off) = true := by
  have := tickBuffered_ge hb
  have hoff : aTick off - aTick 0 = off := by simp only [aTick, ra]; omega
  simp only [tickKept, hoff, hb, Bool.and_true, Bool.and_eq_true, decide_eq_true_eq, aTick, ra]
  omega

/-- APPLY and STAT.APPLYPEND are over (R55). -/
def applyOver (v : Vol) : Vol := rgClr (rgClr v (aCtl pTick) 2) (aStat pTick) 8

theorem rg_applyOver (v : Vol) {off : Nat} (h : 0x010 ≤ off) : rg (applyOver v) (aTick off) = rg v (aTick off) := by
  rw [applyOver, rg_rgClr_ne _ _ (by simp only [aTick, aStat, ra]; omega), rg_rgClr_ne _ _ (by simp only [aTick, aCtl, ra]; omega)]

theorem rg_applyOver_low (v : Vol) {a : Nat} (h : a < 0x40004000 ∨ 0x40005000 ≤ a) : rg (applyOver v) a = rg v a := by
  rw [applyOver, rg_rgClr_ne _ _ (by simp only [aStat, ra, pTick]; omega), rg_rgClr_ne _ _ (by simp only [aCtl, ra, pTick]; omega)]

theorem rb_applyOver_pend (v : Vol) : rb (applyOver v) (aStat pTick) 3 = false := by
  rw [applyOver, rb_rgClr _ _ _ (by decide)]; simp

/-- The words of a drop rest on the settings from 0x040 on (R59, R60). -/
theorem dropWords_congr {get get' : Nat → Word} (h : ∀ off, 0x040 ≤ off → get off = get' off) (k : Nat) :
    dropWords get k = dropWords get' k := by
  have hroute (n : Nat) : routed get k n = routed get' k n := by rw [routed, routed, h _ (by omega)]
  simp only [dropWords, h (0x140 + 4 * k) (by omega), funext hroute]

/-- The sums of R56 do not speak of CTL and STAT. -/
theorem applyOk_applyOver (v : Vol) : applyOk (applyOver v) = applyOk v := by
  have h {off : Nat} (ho : 0x040 ≤ off) : rg (applyOver v) (aTick off) = rg v (aTick off) := rg_applyOver v (by omega)
  have hclk : rg (applyOver v) (ra pClk 0x044) = rg v (ra pClk 0x044) := rg_applyOver_low v (by decide)
  have hyok : rg (applyOver v) (ra pYok 0x048) = rg v (ra pYok 0x048) := rg_applyOver_low v (by decide)
  have hwords : dropWords (fun o => rg (applyOver v) (aTick o)) = dropWords fun o => rg v (aTick o) :=
    funext (dropWords_congr fun _ => h)
  simp (disch := omega) only [applyOk, dropMin, dropMinOf, rf, rb, hwords, hclk, hyok, h] <;> rfl

/-- What an apply makes active: the double-buffered registers as last written (R55). -/
def takenAct (v : Vol) : SMap Word :=
  smapSet regReset (smapKeep tickKept v.regs) (aTick 0x040) (smapGet regReset (smapKeep tickKept v.regs) (aTick 0x040) &&& 0x37)

/-- An apply that passes the check: the active copies are taken, and at most STAT changes before event 6. -/
theorem applyCheck_of_ok (v : Vol) (h : applyOk v = true) : ∃ u, applyCheck v = raiseEvent u pTick 6 ∧ u.tick.act = takenAct (applyOver v)
    ∧ rb u (aStat pTick) 3 = false ∧ ∀ a, a ≠ aStat pTick → rg u a = rg (applyOver v) a := by
  have hok : applyOk (rgClr (rgClr v (aCtl pTick) 2) (aStat pTick) 8) = true := (applyOk_applyOver v).trans h
  unfold applyCheck
  dsimp only
  rw [if_pos hok]
  refine ⟨_, rfl, ?_, ?_, ?_⟩
  · split <;> rfl
  · split
    · rw [armSource, rb_rgClr _ _ _ (by decide)]
      exact Bool.and_eq_false_imp.mpr fun hb => absurd hb (Bool.eq_false_iff.mp (rb_applyOver_pend v))
    · exact rb_applyOver_pend v
  · intro a ha
    split
    · exact rg_rgClr_ne _ _ ha
    · rfl

theorem applyCheck_of_bad (v : Vol) (h : applyOk v = false) : applyCheck v = raiseEvent (setFault (applyOver v) pTick 17) pTick 5 := by
  have hok : ¬ applyOk (rgClr (rgClr v (aCtl pTick) 2) (aStat pTick) 8) = true := by
    rw [show applyOk (rgClr (rgClr v (aCtl pTick) 2) (aStat pTick) 8) = applyOk v from applyOk_applyOver v, h]; decide
  unfold applyCheck
  dsimp only
  rw [if_neg hok]; rfl

/-- An event that EV_EN has sets its EV_PEND bit (R8). -/
theorem rb_raiseEvent_same (v : Vol) (p : Nat) {i : Nat} (hi : i < 32) (h : rb v (aEvEn p) i = true) :
    rb (raiseEvent v p i) (aEvPend p) i = true := by
  rw [rb, rg_raiseEvent, if_pos ⟨rfl, h⟩, bit, BitVec.getLsbD_or, ← bit, ← bit, bit_bitWord]
  simp [hi]

theorem ta_takenAct (v : Vol) {off : Nat} (hoff : off < 0x400) (hb : tickBuffered off = true) (h40 : off ≠ 0x040) :
    smapGet regReset (takenAct v) (aTick off) = rg v (aTick off) := by
  rw [takenAct, smapGet_set_ne _ _ _ _ (by simp only [aTick, ra]; omega), smapGet_keep, if_pos (tickKept_aTick hoff hb)]; rfl

theorem ta_takenAct_src (v : Vol) : smapGet regReset (takenAct v) (aTick 0x040) = rg v (aTick 0x040) &&& 0x37 := by
  rw [takenAct, smapGet_set_same, smapGet_keep, if_pos (tickKept_aTick (by decide) (by decide))]; rfl

/-! ### The service core's commit (R65) -/

theorem commOf_commitStep (l : List Nat) (k : Nat) (v : Vol) (i : Nat) :
    commOf (l.foldl (fun v i =>
      if outOwner v i = k then { v with outs := { v.outs with comm := smapSet sramBlank v.outs.comm i (pendOf v i) } } else v) v) i
      = if i ∈ l ∧ outOwner v i = k then pendOf v i else commOf v i := by
  induction l generalizing v with
  | nil => simp
  | cons j l ih =>
    rw [List.foldl_cons, ih]
    by_cases hj : outOwner v j = k
    · rw [if_pos hj]
      have hown : outOwner { v with outs := { v.outs with comm := smapSet sramBlank v.outs.comm j (pendOf v j) } } i = outOwner v i := rfl
      have hpend : pendOf { v with outs := { v.outs with comm := smapSet sramBlank v.outs.comm j (pendOf v j) } } i = pendOf v i := rfl
      have hcomm : commOf { v with outs := { v.outs with comm := smapSet sramBlank v.outs.comm j (pendOf v j) } } i
          = if i = j then pendOf v j else commOf v i := smapGet_set _ _ _ _ _
      rw [hown, hpend, hcomm]
      by_cases hi : i = j
      · subst hi; simp [hj]
      · simp [hi]
    · rw [if_neg hj]
      by_cases hi : i = j
      · subst hi; simp [hj]
      · simp [hi]

/-- A commit makes the pending words of its owner's channels committed, and no other (R62, R65). -/
theorem commOf_commitWords (v : Vol) (k : Nat) {i : Nat} (hi : i < 256) :
    commOf (commitWords v k) i = if outOwner v i = k then pendOf v i else commOf v i := by
  rw [commitWords, commOf_commitStep]
  simp [outWords, hi]

theorem commitService_outs (v : Vol) : (commitService v).outs = (commitWords v 8).outs := by rw [commitService]

theorem commOf_commitService (v : Vol) {i : Nat} (hi : i < 256) :
    commOf (commitService v) i = if outOwner v i = 8 then pendOf v i else commOf v i := by
  rw [commOf, commitService_outs]
  exact commOf_commitWords v 8 hi

/-! ### The commands of the tick page -/

theorem tick_blk {inf : PageInfo} (hp : pageInfo pTick = some inf) : inf.blk = .tick := blk_of_page hp (by decide +kernel)

section
variable (s : State) (m : Fin 16) (ho : pageOpen s.vol m pTick = true)
include ho

theorem setBits_tickCtl (w : Word) (hw : bit w 31 = false) : (.next { s with vol := setBits s.nv s.vol m (aTick 0x008) w } : Out)
    = .next (performed s m (aCtl pTick + 0x400) w (tickWrite s.vol 0x008 .setBits w)) := by
  obtain ⟨inf, hp⟩ := pageOpen_info ho
  have hblk : blockWrite s.nv s.vol inf m pTick 0x008 .setBits w = tickWrite s.vol 0x008 .setBits w := by
    simp only [blockWrite, tick_blk hp]
  rw [show aTick 0x008 = aCtl pTick from rfl, setBits_ctl s.nv s.vol m w hp ho hw, hblk]; rfl

theorem clearBits_tickCtl (w : Word) (hw : bit w 31 = false) : (.next { s with vol := clearBits s.nv s.vol m (aTick 0x008) w } : Out)
    = .next (performed s m (aCtl pTick + 0x800) w (tickWrite s.vol 0x008 .clearBits w)) := by
  obtain ⟨inf, hp⟩ := pageOpen_info ho
  have hblk : blockWrite s.nv s.vol inf m pTick 0x008 .clearBits w = tickWrite s.vol 0x008 .clearBits w := by
    simp only [blockWrite, tick_blk hp]
  rw [show aTick 0x008 = aCtl pTick from rfl, clearBits_ctl s.nv s.vol m w hp ho hw, hblk]; rfl

theorem exec_tickEn_open : exec (.tickEn m) s = .next (performed s m (aCtl pTick + 0x400) 1 (tickWrite s.vol 0x008 .setBits 1)) :=
  setBits_tickCtl s m ho 1 (by decide)

theorem exec_apply_open : exec (.apply m) s = .next (performed s m (aCtl pTick + 0x400) 2 (tickWrite s.vol 0x008 .setBits 2)) :=
  setBits_tickCtl s m ho 2 (by decide)

theorem exec_tickStop_open :
    exec (.tickStop m) s = .next (performed s m (aCtl pTick + 0x800) 1 (tickWrite s.vol 0x008 .clearBits 1)) :=
  clearBits_tickCtl s m ho 1 (by decide)

/-- A read of a register of the tick page shows its view and latches what goes with it (R75). -/
theorem tickRead_open {off : Nat} (hoff : off < 0x400) (h4 : off % 4 = 0) (hspec : (specAt pTick off).isSome = true)
    (h24 : off ≠ 0x024) (h0C : off ≠ 0x00C) : (.next { s with vol := busRead s.nv s.vol m (aTick off) } : Out)
      = .next (performedRead s m (aTick off) (tickView s.vol off (rg s.vol (aTick off))) (tickOnRead s.vol off)) := by
  obtain ⟨inf, hp⟩ := pageOpen_info ho
  obtain ⟨sp, hsp⟩ := Option.isSome_iff_exists.mp hspec
  have hst : (stageChan (ra pTick off)).isSome = false := by rw [stageChan_ra_none (by omega) (by decide)]; rfl
  have hread : pageRead s.nv s.vol inf pTick off = TWord.ofWord (tickView s.vol off (rg s.vol (aTick off))) := by
    simp only [pageRead, hst, hsp, h24, h0C, blockView, tick_blk hp, if_false, ne_eq, not_false_eq_true, if_true, Bool.false_eq_true]
  have hon : pageOnRead s.vol inf off = tickOnRead s.vol off := by simp only [pageOnRead, tick_blk hp]
  rw [show aTick off = ra pTick off from rfl, busRead_open s.nv s.vol m pTick off inf hp ho hoff h4, hread, hon]; rfl

theorem exec_tickSvccommit_open (w : Word) : exec (.tickSvccommit m w) s = .next (performed s m (aTick 0x08C) w
    (if bit w 0 then commitService (regWrite s.vol pTick 0x08C .direct w) else regWrite s.vol pTick 0x08C .direct w)) := by
  obtain ⟨inf, hp⟩ := pageOpen_info ho
  have hw : pageWrite s.nv s.vol inf m pTick 0x08C .direct (TWord.ofWord w) = tickWrite s.vol 0x08C .direct w := by
    rw [pageWrite_block _ _ _ _ _ _ _ _ (stageChan_ra_none (by decide) (by decide)) (by decide +kernel) (by decide)
      (fun h => absurd h (by decide)) (fun h => absurd h (by decide))]
    simp only [blockWrite, tick_blk hp]
  show (.next { s with vol := wr s.nv s.vol m (ra pTick 0x08C) w } : Out) = _
  rw [wr_open s.nv s.vol m pTick 0x08C w inf hp ho (by decide) (by decide), hw]
  rfl

end

end Sys2Proof.Machine

namespace Sys2Proof

open Sys2Proof.Machine

/-- Settles O14: each command by its rule above, the check of an apply by `applyCheck_of_ok` and `applyCheck_of_bad`. -/
theorem tickRegistersAct : Obligations.TickRegistersAct := by
  refine ⟨⟨fun s m ho happly => ?_, fun s m ho => ?_⟩, fun v => ?_⟩
  · refine ⟨fun hen hrun => ?_, fun hen hrun => ?_, fun hen => ⟨?_, ?_⟩, fun hen => ?_, ?_⟩
    · rw [exec_tickEn_open s m ho, tickWrite_enRises _ happly hen, hrun]; rfl
    · rw [exec_tickEn_open s m ho, tickWrite_enRises _ happly hen, hrun]; rfl
    · rw [exec_tickEn_open s m ho, tickWrite_enStays _ happly hen]
    · rw [exec_tickStop_open s m ho, tickWrite_enClears _ happly, if_pos hen]
    · rw [exec_tickStop_open s m ho, tickWrite_enClears _ happly, if_neg (by rw [hen]; decide)]
    · rw [exec_apply_open s m ho, tickWrite_apply _ happly]
  · exact ⟨tickRead_open s m ho (by decide) (by decide) (by decide +kernel) (by decide) (by decide),
      tickRead_open s m ho (by decide) (by decide) (by decide +kernel) (by decide) (by decide),
      fun w => ⟨exec_tickSvccommit_open s m ho w, fun v i hi => commOf_commitService v hi⟩⟩
  · refine ⟨fun hok => ?_, fun hbad => ?_⟩
    · obtain ⟨u, hu, hact, hpend, hrest⟩ := applyCheck_of_ok v hok
      have hta (off : Nat) : ta (applyCheck v) off = smapGet regReset (takenAct (applyOver v)) (aTick off) := by
        rw [hu, ta, raiseEvent_tick, hact]
      refine ⟨fun off hoff hb h40 => ?_, ?_, ?_, fun hev => ?_⟩
      · rw [hta, ta_takenAct _ hoff hb h40, rg_applyOver v (by have := tickBuffered_ge hb; omega)]
      · rw [hta, ta_takenAct_src, rg_applyOver v (by decide)]
      · rw [hu, rb, rg_raiseEvent_ne _ _ _ (by decide)]; exact hpend
      · rw [hu]
        refine rb_raiseEvent_same u pTick (by decide) ?_
        rw [rb, hrest _ (by decide), show aEvEn pTick = aTick 0x014 from rfl, rg_applyOver v (by decide)]; exact hev
    · rw [applyCheck_of_bad v hbad]
      refine ⟨?_, ?_, ?_, fun hev => ?_⟩
      · rw [raiseEvent_tick]; rfl
      · rw [rb, rg_raiseEvent_ne _ _ _ (by decide)]; exact rb_setFault_same _ _ (by decide)
      · rw [rb, rg_raiseEvent_ne _ _ _ (by decide), rg_setFault, if_neg (by decide)]; exact rb_applyOver_pend v
      · refine rb_raiseEvent_same _ pTick (by decide) ?_
        rw [rb, rg_setFault, if_neg (by decide), show aEvEn pTick = aTick 0x014 from rfl, rg_applyOver v (by decide)]; exact hev

end Sys2Proof
end

section
/-! SUPPORT. The loss of the tick source (R52) and PTP's part in it: what they change of the tick page and of the generator. -/

namespace Sys2Proof.Machine

/-- The registers of the tick page. -/
def TickRegs (a : Nat) : Prop := 0x40004000 ≤ a ∧ a < 0x40005000

theorem tickRegs_ra {off : Nat} (h : off < 0x1000) : TickRegs (ra pTick off) := by
  simp only [TickRegs, ra, pTick]; omega

/-- The generator after the loss of its source: the tick in progress ends with its nominal length (R52, R54). -/
def sourceGone (v : Vol) : Vol :=
  setTick v fun t => { t with next := if t.first then t.next else max (t.boundary + taf v 0x044 18 0) (v.now + 1), inPhase := 0 }

theorem sourceLoss_touches (v : Vol) : Touches TickRegs (sourceGone v) (sourceLoss v) :=
  ((((touches_rgSet _ _ (tickRegs_ra (by decide))).trans (touches_rgSet _ _ (tickRegs_ra (by decide)))).trans
    (touches_rgSet _ _ (tickRegs_ra (by decide)))).trans (touches_setFault _ _ (tickRegs_ra (by decide)))).trans
    (touches_raiseEvent _ _ (tickRegs_ra (by decide)))

theorem sourceLoss_now (v : Vol) : (sourceLoss v).now = v.now := (sourceLoss_touches v).now
theorem sourceLoss_tick (v : Vol) : (sourceLoss v).tick = (sourceGone v).tick := (sourceLoss_touches v).tick
theorem sourceLoss_sram (v : Vol) : (sourceLoss v).sram = v.sram := (sourceLoss_touches v).sram
theorem sourceLoss_cores (v : Vol) : (sourceLoss v).cores = v.cores := (sourceLoss_touches v).cores
theorem rb_sourceLoss_off (v : Vol) {a : Nat} (h : ¬ TickRegs a) (i : Nat) : rb (sourceLoss v) a i = rb v a i :=
  (sourceLoss_touches v).rb_eq h i

theorem sourceLoss_fault (v : Vol) : rb (sourceLoss v) (aFault pTick) 16 = true := by
  unfold sourceLoss
  rw [rb, rg_raiseEvent_ne _ _ _ (by decide)]
  exact rb_setFault_same _ _ (by decide)

/-- STAT after the loss: FALLBACK is 1 and LOCKED 0. -/
theorem sourceLoss_stat (v : Vol) : rb (sourceLoss v) (aStat pTick) 4 = true ∧ rb (sourceLoss v) (aStat pTick) 1 = false := by
  have h : rg (sourceLoss v) (aStat pTick) = (rg v (aStat pTick) ||| 16) &&& ~~~2 := by
    unfold sourceLoss
    rw [rg_raiseEvent_ne _ _ _ (by decide), rg_setFault, if_neg (by decide), rfSet, rg_rgSet_ne _ _ (by decide), rgClr,
      rg_rgSet_same, rgOr, rg_rgSet_same]
    rfl
  simp [rb, h, bit]

theorem tickSource_sourceLoss (v : Vol) : tickSource (sourceLoss v) = 0 := by
  rw [tickSource, (sourceLoss_stat v).1, Bool.or_true, if_pos rfl]

theorem sourceLoss_event (v : Vol) (h : rb v (aEvEn pTick) 3 = true) : rb (sourceLoss v) (aEvPend pTick) 3 = true := by
  unfold sourceLoss
  refine rb_raiseEvent_same _ pTick (by decide) ?_
  rw [rb, rg_setFault, if_neg (by decide), rfSet, rg_rgSet_ne _ _ (by decide), rg_rgClr_ne _ _ (by decide), rg_rgOr_ne _ _ (by decide)]
  exact h

/-- The source in use rests on the mode, STAT.FALLBACK and the active settings. -/
theorem tickSource_congr {v v' : Vol} (hsys : v'.sys = v.sys) (hstat : rb v' (aStat pTick) 4 = rb v (aStat pTick) 4)
    (htick : v'.tick = v.tick) : tickSource v' = tickSource v := by
  simp only [tickSource, taf, ta, hsys, hstat, htick]

/-- A change that leaves PTP synchronised where it was loses no source. -/
theorem ptpLossNoted_kept {v v' : Vol} (h : rb v (aStat pPtp) 0 = true → rb v' (aStat pPtp) 0 = true) : ptpLossNoted v v' = v' := by
  unfold ptpLossNoted
  refine if_neg ?_
  cases hb : rb v (aStat pPtp) 0
  · simp
  · simp [h hb]

/-- Where PTP has lost its synchronisation, a tick that runs on it loses its source. -/
theorem ptpLossNoted_lost {v v' : Vol} (h : rb v (aStat pPtp) 0 = true) (h' : rb v' (aStat pPtp) 0 = false) :
    ptpLossNoted v v' = if v'.tick.running && tickSource v' == 1 then sourceLoss v' else v' := by
  simp [ptpLossNoted, h, h']

theorem not_tickRegs_ptp (off : Nat) : ¬ TickRegs (ra pPtp off) := by
  simp only [TickRegs, ra, pPtp]; omega

/-- What noting a loss leaves in any case. -/
theorem ptpLossNoted_spec (v v' : Vol) : (∀ off i, rb (ptpLossNoted v v') (ra pPtp off) i = rb v' (ra pPtp off) i)
    ∧ (ptpLossNoted v v').sram = v'.sram ∧ (ptpLossNoted v v').cores = v'.cores := by
  unfold ptpLossNoted
  split
  · exact ⟨fun off i => rb_sourceLoss_off v' (not_tickRegs_ptp off) i, sourceLoss_sram v', sourceLoss_cores v'⟩
  · exact ⟨fun _ _ => rfl, rfl, rfl⟩

end Sys2Proof.Machine
end

section
/-! PROOFS. The PTP clock (O57): its CTL, its rate, the views and latches of its time, the pulse and the capture (R572-R574, R592). -/

namespace Sys2Proof.Machine

/-! ### PTP time -/

/-- Time in its normal form is its own normal form. -/
theorem ptpNorm_ptpTotal {t : Int} {p : Ptp} (h : (p.sec, p.ns, p.frac) = ptpNorm t) : ptpNorm (ptpTotal p) = ptpNorm t := by
  simp only [ptpNorm, Prod.mk.injEq] at h ⊢
  obtain ⟨hs, hn, hf⟩ := h
  rw [ptpTotal, Int.toNat_natCast, hs, hn, hf]
  generalize t.toNat = x
  omega

theorem ptpRebase_ptp (v : Vol) : (ptpRebase v).ptp =
    { v.ptp with sec := (ptpNow v).1, ns := (ptpNow v).2.1, frac := (ptpNow v).2.2, since := v.now } := rfl

theorem rg_ptpRebase (v : Vol) (a : Nat) : rg (ptpRebase v) a = rg v a := rfl

/-- A new base shows the same time, whatever the rate (R572). -/
theorem ptpNow_rebased (v u : Vol) (hctl : rb u (aCtl pPtp) 0 = rb v (aCtl pPtp) 0) (hnow : u.now = v.now)
    (hptp : (u.ptp.sec, u.ptp.ns, u.ptp.frac) = ptpNow v) (hsince : u.ptp.since = v.now) : ptpNow u = ptpNow v := by
  by_cases hen : rb v (aCtl pPtp) 0 = true
  · have hv : ptpNow v = ptpNorm (ptpTotal v.ptp + ptpAdvance (rg v (ra pPtp 0x04C)).toInt (v.now - v.ptp.since)) := by
      rw [ptpNow, if_pos hen]
    have hz (rate : Int) : ptpAdvance rate 0 = 0 := by simp [ptpAdvance]
    rw [ptpNow, if_pos (hctl.trans hen), hnow, hsince, Nat.sub_self, hz, add_zero, hv]
    exact ptpNorm_ptpTotal (hptp.trans hv)
  · rw [ptpNow, if_neg (by rw [hctl]; exact hen)]
    exact hptp

/-! ### PTP_CTL -/

theorem specAt_ptpCtl : specAt pPtp 0x008 = some ⟨0x008, 4, 1, 15, 0, 0, 0, []⟩ := by decide +kernel

/-- CTL after a write that sets bits in it, or clears them: SET and STEP read 0 again. -/
def ptpTaken (v : Vol) (w : Word) : Vol := rgClr (rgOr (ptpRebase v) (aCtl pPtp) w) (aCtl pPtp) 6
def ptpCleared (v : Vol) (w : Word) : Vol := rgClr (rgClr (ptpRebase v) (aCtl pPtp) w) (aCtl pPtp) 6

theorem rg_ptpTaken (v : Vol) (w : Word) {a : Nat} (h : a ≠ aCtl pPtp) : rg (ptpTaken v w) a = rg v a := by
  rw [ptpTaken, rg_rgClr_ne _ _ h, rg_rgOr_ne _ _ h, rg_ptpRebase]

theorem rg_ptpCleared (v : Vol) (w : Word) {a : Nat} (h : a ≠ aCtl pPtp) : rg (ptpCleared v w) a = rg v a := by
  rw [ptpCleared, rg_rgClr_ne _ _ h, rg_rgClr_ne _ _ h, rg_ptpRebase]

theorem rb_ptpTaken_ctl (v : Vol) (w : Word) {i : Nat} (h : i = 1 ∨ i = 2) : rb (ptpTaken v w) (aCtl pPtp) i = false := by
  rw [ptpTaken, rb_rgClr _ _ _ (by omega)]
  rcases h with rfl | rfl <;> simp

/-- SET (R572): PTP time takes the registers' value. -/
def ptpJumped (v : Vol) : Vol := { v with ptp := { v.ptp with
  ns := rf v (ra pPtp 0x050) 29 0, frac := 0, since := v.now
  sec := (rg v (ra pPtp 0x054)).toNat + rf v (ra pPtp 0x058) 15 0 * 4294967296 } }

theorem rb_withPtp (v : Vol) (p : Ptp) (a i : Nat) : rb { v with ptp := p } a i = rb v a i := rfl

theorem rb_ptpJumped (v : Vol) (a i : Nat) : rb (ptpJumped v) a i = rb v a i := by rw [ptpJumped, rb_withPtp]

theorem ptpJumped_ptpTaken (v : Vol) (w : Word) : (ptpJumped (ptpTaken v w)).ptp = { v.ptp with
    sec := (rg v (ra pPtp 0x054)).toNat + rf v (ra pPtp 0x058) 15 0 * 4294967296
    ns := rf v (ra pPtp 0x050) 29 0, frac := 0, since := v.now } := by
  have hns : rf (ptpTaken v w) (ra pPtp 0x050) 29 0 = rf v (ra pPtp 0x050) 29 0 := by rw [rf, rg_ptpTaken v w (by decide), rf]
  have hhi : rf (ptpTaken v w) (ra pPtp 0x058) 15 0 = rf v (ra pPtp 0x058) 15 0 := by rw [rf, rg_ptpTaken v w (by decide), rf]
  have hnow : (ptpTaken v w).now = v.now := rfl
  have hpps : (ptpTaken v w).ptp.ppsEnd = v.ptp.ppsEnd := rfl
  have hrate : (ptpTaken v w).ptp.rateAt = v.ptp.rateAt := rfl
  rw [ptpJumped]
  dsimp only
  rw [hns, hhi, hnow, hpps, hrate, rg_ptpTaken v w (by decide)]

/-- STEP (R572): PTP time moves by the signed register. -/
def ptpShifted (v : Vol) : Vol :=
  let t := ptpNorm (ptpTotal v.ptp + (rg v (ra pPtp 0x05C)).toInt * 4294967296)
  { v with ptp := { v.ptp with sec := t.1, ns := t.2.1, frac := t.2.2 } }

theorem rb_ptpShifted (v : Vol) (a i : Nat) : rb (ptpShifted v) a i = rb v a i := by rw [ptpShifted, rb_withPtp]

theorem rb_ptpTaken_stat (v : Vol) (w : Word) : rb (ptpTaken v w) (aStat pPtp) 0 = rb v (aStat pPtp) 0 := by
  rw [rb, rg_ptpTaken v w (by decide), rb]

section
variable (v : Vol) (h1 : rb v (aCtl pPtp) 1 = false) (h2 : rb v (aCtl pPtp) 2 = false)
include h1 h2

/-- A write of CTL at the bit-set address, by the bits that it sets. -/
theorem ptpWrite_setBits (w : Word) (hw : w &&& 15 = w) : ptpWrite v 0x008 .setBits w =
    (let u := if bit w 1 then ptpJumped (ptpTaken v w) else ptpTaken v w
     let u := if bit w 2 then ptpShifted u else u
     if bit w 3 then ptpSynced u true else u) := by
  have hbit (i : Nat) : bit (rg (rgOr (ptpRebase v) (ra pPtp 8) w) (aCtl pPtp)) i = (bit (rg v (aCtl pPtp)) i || bit w i) :=
    rb_rgOr _ _ _ i
  simp only [rb] at h1 h2
  have hfell : fell (rg v (aCtl pPtp)) (rg (rgOr (ptpRebase v) (ra pPtp 8) w) (aCtl pPtp)) 3 = false := by
    rw [fell, hbit]; cases bit (rg v (aCtl pPtp)) 3 <;> rfl
  unfold ptpWrite
  rw [regWrite_setBits _ specAt_ptpCtl rfl rfl hw]
  simp only [if_true, hfell, hbit, h1, h2, Bool.false_or, Bool.false_eq_true, if_false]
  cases bit w 3 <;> rfl

theorem ptpWrite_set : ptpWrite v 0x008 .setBits 2 = ptpJumped (ptpTaken v 2) := by
  rw [ptpWrite_setBits v h1 h2 2 (by decide), if_neg (by decide), if_neg (by decide), if_pos (by decide)]

theorem ptpWrite_step : ptpWrite v 0x008 .setBits 4 = ptpShifted (ptpTaken v 4) := by
  rw [ptpWrite_setBits v h1 h2 4 (by decide), if_neg (by decide), if_pos (by decide), if_neg (by decide)]

theorem ptpWrite_sync : ptpWrite v 0x008 .setBits 8 = ptpSynced (ptpTaken v 8) true := by
  rw [ptpWrite_setBits v h1 h2 8 (by decide), if_pos (by decide), if_neg (by decide), if_neg (by decide)]

/-- CTL.SYNC is written 0: SYNCED falls where it was 1 (R573). -/
theorem ptpWrite_syncClears : ptpWrite v 0x008 .clearBits 8 =
    if rb v (aCtl pPtp) 3 then ptpSynced (ptpCleared v 8) false else ptpCleared v 8 := by
  have hbit {i : Nat} (hi : i < 32) :
      bit (rg (rgClr (ptpRebase v) (ra pPtp 8) 8) (aCtl pPtp)) i = (bit (rg v (aCtl pPtp)) i && !bit 8 i) := rb_rgClr _ _ _ hi
  simp only [rb] at h1 h2 ⊢
  have hfell : fell (rg v (aCtl pPtp)) (rg (rgClr (ptpRebase v) (ra pPtp 8) 8) (aCtl pPtp)) 3 = bit (rg v (aCtl pPtp)) 3 := by
    rw [fell, hbit (by decide)]; cases bit (rg v (aCtl pPtp)) 3 <;> rfl
  unfold ptpWrite
  rw [regWrite_clearBits _ specAt_ptpCtl rfl rfl (by decide) rfl]
  simp only [if_true, hfell, hbit (show 1 < 32 by decide), hbit (show 2 < 32 by decide), h1, h2, Bool.false_and, Bool.false_eq_true, if_false]
  rfl

end

/-! ### SYNCED (R573) -/

theorem ptpSynced_set (v : Vol) : rb (ptpSynced v true) (aStat pPtp) 0 = true := by
  rw [ptpSynced, if_pos rfl, rb_rgOr]; simp

/-- SYNCED falls: what that leaves, and event 0 where it was 1. -/
theorem ptpSynced_fall (v : Vol) : let u := ptpSynced v false
    rb u (aStat pPtp) 0 = false ∧ u.sram = v.sram ∧ u.cores = v.cores ∧ u.tick = v.tick ∧ u.sys = v.sys
      ∧ rb u (aStat pTick) 4 = rb v (aStat pTick) 4
      ∧ (rb v (aStat pPtp) 0 = true → rb v (aEvEn pPtp) 0 = true → rb u (aEvPend pPtp) 0 = true) := by
  dsimp only
  unfold ptpSynced
  rw [if_neg Bool.false_ne_true]
  by_cases h : rb v (aStat pPtp) 0 = true
  · rw [if_pos h]
    refine ⟨?_, raiseEvent_sram .., raiseEvent_cores .., raiseEvent_tick .., raiseEvent_sys .., ?_, fun _ hev => ?_⟩
    · rw [rb, rg_raiseEvent_ne _ _ _ (by decide), ← rb, rb_rgClr _ _ _ (by decide)]; simp
    · rw [rb, rg_raiseEvent_ne _ _ _ (by decide), rg_rgClr_ne _ _ (by decide)]; rfl
    · refine rb_raiseEvent_same _ pPtp (by decide) ?_
      rw [rb, rg_rgClr_ne _ _ (by decide)]; exact hev
  · rw [if_neg h]
    exact ⟨Bool.eq_false_iff.mpr h, rfl, rfl, rfl, rfl, rfl, fun h' => absurd h' h⟩

/-! ### The commands of the PTP page -/

theorem ptp_blk {inf : PageInfo} (hp : pageInfo pPtp = some inf) : inf.blk = .ptp := blk_of_page hp (by decide +kernel)

section
variable (s : State) (m : Fin 16) (ho : pageOpen s.vol m pPtp = true)
include ho

theorem setBits_ptpCtl (w : Word) (hw : bit w 31 = false) : (.next { s with vol := setBits s.nv s.vol m (aCtl pPtp) w } : Out)
    = .next (performed s m (aCtl pPtp + 0x400) w (ptpLossNoted s.vol (ptpWrite s.vol 0x008 .setBits w))) := by
  obtain ⟨inf, hp⟩ := pageOpen_info ho
  have hblk : blockWrite s.nv s.vol inf m pPtp 0x008 .setBits w = ptpLossNoted s.vol (ptpWrite s.vol 0x008 .setBits w) := by
    simp only [blockWrite, ptp_blk hp]
  rw [setBits_ctl s.nv s.vol m w hp ho hw, hblk]; rfl

theorem exec_syncOff_open : exec (.sync m false) s
    = .next (performed s m (aCtl pPtp + 0x800) 8 (ptpLossNoted s.vol (ptpWrite s.vol 0x008 .clearBits 8))) := by
  obtain ⟨inf, hp⟩ := pageOpen_info ho
  have hblk : blockWrite s.nv s.vol inf m pPtp 0x008 .clearBits 8 = ptpLossNoted s.vol (ptpWrite s.vol 0x008 .clearBits 8) := by
    simp only [blockWrite, ptp_blk hp]
  show (.next { s with vol := clearBits s.nv s.vol m (aCtl pPtp) 8 } : Out) = _
  rw [clearBits_ctl s.nv s.vol m 8 hp ho (by decide), hblk]; rfl

theorem exec_ptpRate_open (w : Word) : exec (.ptpRate m w) s
    = .next (performed s m (ra pPtp 0x04C) w (ptpLossNoted s.vol (ptpWrite s.vol 0x04C .direct w))) := by
  obtain ⟨inf, hp⟩ := pageOpen_info ho
  have hw : pageWrite s.nv s.vol inf m pPtp 0x04C .direct (TWord.ofWord w) = ptpLossNoted s.vol (ptpWrite s.vol 0x04C .direct w) := by
    rw [pageWrite_block _ _ _ _ _ _ _ _ (stageChan_ra_none (by decide) (by decide)) (by decide +kernel) (by decide)
      (fun h => absurd h (by decide)) (fun h => absurd h (by decide))]
    simp only [blockWrite, ptp_blk hp]
  show (.next { s with vol := wr s.nv s.vol m (ra pPtp 0x04C) w } : Out) = _
  rw [wr_open s.nv s.vol m pPtp 0x04C w inf hp ho (by decide) (by decide), hw]; rfl

/-- A read of PTP_NS shows the nanoseconds and latches the seconds (R592). -/
theorem exec_ptpNsRead_open : exec (.ptpNsRead m) s
    = .next (performedRead s m (ra pPtp 0x040) (BitVec.ofNat 32 (ptpNow s.vol).2.1) (ptpOnRead s.vol 0x040)) := by
  obtain ⟨inf, hp⟩ := pageOpen_info ho
  obtain ⟨sp, hsp⟩ := Option.isSome_iff_exists.mp (show (specAt pPtp 0x040).isSome = true by decide +kernel)
  have hst : (stageChan (ra pPtp 0x040)).isSome = false := by rw [stageChan_ra_none (by decide) (by decide)]; rfl
  have hread : pageRead s.nv s.vol inf pPtp 0x040 = TWord.ofWord (BitVec.ofNat 32 (ptpNow s.vol).2.1) := by
    simp only [pageRead, hst, hsp, blockView, ptp_blk hp, Bool.false_eq_true, if_false]; rfl
  have hon : pageOnRead s.vol inf 0x040 = ptpOnRead s.vol 0x040 := by simp only [pageOnRead, ptp_blk hp]
  show (.next { s with vol := busRead s.nv s.vol m (ra pPtp 0x040) } : Out) = _
  rw [busRead_open s.nv s.vol m pPtp 0x040 inf hp ho (by decide) (by decide), hread, hon]; rfl

end

/-- A write of PTP_RATE takes effect from the present time on (R572). -/
theorem ptpWrite_rate (v : Vol) (w : Word) : ptpWrite v 0x04C .direct w
    = regWrite { ptpRebase v with ptp := { (ptpRebase v).ptp with rateAt := v.now } } pPtp 0x04C .direct w := rfl

theorem specAt_ptpRate : specAt pPtp 0x04C = some ⟨0x04C, 4, 1, 0xFFFFFFFF, 0, 0, 0, []⟩ := by decide +kernel

/-- A new rate: SYNCED stays, and so does the time that PTP shows. -/
theorem ptpRate_spec (v : Vol) (w : Word) : let r := ptpWrite v 0x04C .direct w
    rb r (aStat pPtp) 0 = rb v (aStat pPtp) 0 ∧ ptpNow r = ptpNow v := by
  dsimp only
  rw [ptpWrite_rate, regWrite_plain _ _ _ _ _ _ specAt_ptpRate rfl rfl]
  have hrest {a : Nat} (x : Word) (ha : a ≠ ra pPtp 0x04C) :
      rg (rgSet { ptpRebase v with ptp := { (ptpRebase v).ptp with rateAt := v.now } } (ra pPtp 0x04C) x) a = rg v a := rg_rgSet_ne _ _ ha
  refine ⟨by rw [rb, hrest _ (by decide)]; rfl, ptpNow_rebased v _ ?_ rfl rfl rfl⟩
  rw [rb, hrest _ (by decide)]; rfl

/-! ### PTP by itself -/

/-- PTP_HOLD runs out (R573). -/
theorem exec_ptpHoldExpiry_due (s : State) (hold : rf s.vol (ra pPtp 0x060) 15 0 ≠ 0) (hs : rb s.vol (aStat pPtp) 0 = true) :
    let u := raiseEvent (rgClr { s.vol with now := max s.vol.now (s.vol.ptp.rateAt + rf s.vol (ra pPtp 0x060) 15 0 * 400000) }
      (aStat pPtp) 1) pPtp 0
    exec .ptpHoldExpiry s = .next (withVol s (if s.vol.tick.running && tickSource s.vol == 1 then sourceLoss u else u)) := by
  intro u
  have hexp : ptpHoldExpire s.vol = u := by
    have hs' : rb { s.vol with now := max s.vol.now (s.vol.ptp.rateAt + rf s.vol (ra pPtp 0x060) 15 0 * 400000) } (aStat pPtp) 0 = true := hs
    simp only [ptpHoldExpire, hold, hs, decide_false, Bool.not_true, Bool.or_self, Bool.false_eq_true, if_false, ptpSynced, hs', if_true]
    rfl
  have hfall : rb u (aStat pPtp) 0 = false := by
    rw [rb, rg_raiseEvent_ne _ _ _ (by decide), ← rb, rb_rgClr _ _ _ (by decide)]; simp
  have htick : u.tick = s.vol.tick := raiseEvent_tick ..
  have hsrc : tickSource u = tickSource s.vol := by
    refine tickSource_congr (raiseEvent_sys ..) ?_ htick
    rw [rb, rg_raiseEvent_ne _ _ _ (by decide), rg_rgClr_ne _ _ (by decide)]; rfl
  show (.next (withVol s (ptpLossNoted s.vol (ptpHoldExpire s.vol))) : Out) = _
  rw [hexp, ptpLossNoted_lost hs hfall, htick, hsrc]

theorem exec_ptpHoldExpiry_idle (s : State) (h : rf s.vol (ra pPtp 0x060) 15 0 = 0 ∨ rb s.vol (aStat pPtp) 0 = false) :
    exec .ptpHoldExpiry s = .next s := by
  have hexp : ptpHoldExpire s.vol = s.vol := by
    rcases h with h | h <;> simp [ptpHoldExpire, h]
  show (.next (withVol s (ptpLossNoted s.vol (ptpHoldExpire s.vol))) : Out) = _
  rw [hexp, ptpLossNoted_kept id]

/-- A capture latches the three words of the time and raises event 2 (R574). -/
theorem ptpCapture_spec (v : Vol) (h : ready v pPtp = true) : let u := ptpCapture v
    rg u (ra pPtp 0x068) = BitVec.ofNat 32 (ptpNow v).2.1 ∧ rg u (ra pPtp 0x06C) = BitVec.ofNat 32 ((ptpNow v).1 % 2 ^ 32)
      ∧ rg u (ra pPtp 0x070) = BitVec.ofNat 32 ((ptpNow v).1 / 2 ^ 32)
      ∧ (rb v (aEvEn pPtp) 2 = true → rb u (aEvPend pPtp) 2 = true) ∧ u.sram = v.sram ∧ u.cores = v.cores := by
  dsimp only
  unfold ptpCapture
  rw [h]
  simp only [Bool.not_true, Bool.false_eq_true, if_false]
  refine ⟨?_, ?_, ?_, fun hev => rb_raiseEvent_same _ pPtp (by decide) ?_, raiseEvent_sram .., raiseEvent_cores ..⟩
  · rw [rg_raiseEvent_ne _ _ _ (by decide), rg_rgSet_ne _ _ (by decide), rg_rgSet_ne _ _ (by decide), rg_rgSet_same]
  · rw [rg_raiseEvent_ne _ _ _ (by decide), rg_rgSet_ne _ _ (by decide), rg_rgSet_same]
  · rw [rg_raiseEvent_ne _ _ _ (by decide), rg_rgSet_same]
  · rw [rb, rg_rgSet_ne _ _ (by decide), rg_rgSet_ne _ _ (by decide), rg_rgSet_ne _ _ (by decide)]; exact hev

end Sys2Proof.Machine

namespace Sys2Proof

open Sys2Proof.Machine

/-- Settles O57: each write of CTL by the bits that it sets or clears, the rate by `ptpRate_spec`, the rest by the rules of PTP's own
events. -/
theorem ptpClockActs : Obligations.PtpClockActs := by
  intro s m w
  refine ⟨fun ho h1 h2 => ⟨?_, ?_, ?_, fun h3 => ?_, fun h3 => ?_⟩, fun ho => ⟨?_, ?_, ?_⟩, exec_ptpHoldExpiry_due s,
    exec_ptpHoldExpiry_idle s, ?_, fun hr => ?_, fun hr => ?_⟩
  · have hkept : ptpLossNoted s.vol (ptpJumped (ptpTaken s.vol 2)) = ptpJumped (ptpTaken s.vol 2) :=
      ptpLossNoted_kept (by rw [rb_ptpJumped, rb_ptpTaken_stat]; exact id)
    refine ⟨ptpJumped (ptpTaken s.vol 2), ?_, (rb_ptpJumped _ _ _).trans (rb_ptpTaken_ctl s.vol 2 (.inl rfl)), ⟨rfl, rfl⟩, ?_⟩
    · exact (setBits_ptpCtl s m ho 2 (by decide)).trans (by rw [ptpWrite_set _ h1 h2, hkept])
    · exact ptpJumped_ptpTaken s.vol 2
  · have hkept : ptpLossNoted s.vol (ptpShifted (ptpTaken s.vol 4)) = ptpShifted (ptpTaken s.vol 4) :=
      ptpLossNoted_kept (by rw [rb_ptpShifted, rb_ptpTaken_stat]; exact id)
    refine ⟨ptpShifted (ptpTaken s.vol 4), ?_, (rb_ptpShifted _ _ _).trans (rb_ptpTaken_ctl s.vol 4 (.inr rfl)), ⟨rfl, rfl⟩, rfl, ?_⟩
    · exact (setBits_ptpCtl s m ho 4 (by decide)).trans (by rw [ptpWrite_step _ h1 h2, hkept])
    · simp only [ptpShifted, rg_ptpTaken s.vol 4 (show ra pPtp 0x05C ≠ aCtl pPtp by decide)]
      rfl
  · refine ⟨ptpSynced (ptpTaken s.vol 8) true, ?_, ptpSynced_set _, ⟨rfl, rfl⟩⟩
    exact (setBits_ptpCtl s m ho 8 (by decide)).trans (by rw [ptpWrite_sync _ h1 h2, ptpLossNoted_kept fun _ => ptpSynced_set _])
  · have hw : ptpWrite s.vol 0x008 .clearBits 8 = ptpCleared s.vol 8 := by
      rw [ptpWrite_syncClears _ h1 h2, if_neg (by rw [h3]; decide)]
    have hstat : rb (ptpCleared s.vol 8) (aStat pPtp) 0 = rb s.vol (aStat pPtp) 0 := congrArg (bit · 0) (rg_ptpCleared s.vol 8 (by decide))
    exact ⟨ptpCleared s.vol 8, by rw [exec_syncOff_open s m ho, hw, ptpLossNoted_kept hstat.trans], hstat, rfl, rfl⟩
  · have hw : ptpWrite s.vol 0x008 .clearBits 8 = ptpSynced (ptpCleared s.vol 8) false := by
      rw [ptpWrite_syncClears _ h1 h2, if_pos h3]
    obtain ⟨hfall, hsram, hcores, htick, hsys, hback, hev⟩ := ptpSynced_fall (ptpCleared s.vol 8)
    obtain ⟨hreg, hsram', hcores'⟩ := ptpLossNoted_spec s.vol (ptpSynced (ptpCleared s.vol 8) false)
    refine ⟨_, by rw [exec_syncOff_open s m ho, hw], (hreg 0x00C 0).trans hfall, ⟨hsram'.trans hsram, hcores'.trans hcores⟩,
      fun hs hen => ?_, fun hs hrun hsrc => ?_⟩
    · rw [hreg]
      refine hev ?_ ?_
      · rw [rb, rg_ptpCleared _ _ (by decide)]; exact hs
      · rw [rb, rg_ptpCleared _ _ (by decide)]; exact hen
    · have hsrc' : tickSource (ptpSynced (ptpCleared s.vol 8) false) = tickSource s.vol :=
        tickSource_congr hsys (hback.trans (congrArg (bit · 4) (rg_ptpCleared s.vol 8 (by decide)))) htick
      rw [ptpLossNoted_lost hs hfall, hsrc', htick, show (ptpCleared s.vol 8).tick = s.vol.tick from rfl, hrun, hsrc]
      exact sourceLoss_fault _
  · rw [exec_ptpRate_open s m ho, ptpLossNoted_kept (ptpRate_spec s.vol w).1.trans, ptpWrite_rate]
  · exact (ptpRate_spec s.vol w).2
  · exact exec_ptpNsRead_open s m ho
  · show (.next (withVol s (ptpPulse s.vol)) : Out) = _
    unfold ptpPulse
    cases ready s.vol pPtp <;> cases rb s.vol (aCtl pPtp) 0 <;> rfl
  · show (.next (withVol s (ptpCapture s.vol)) : Out) = _
    rw [ptpCapture, hr]; rfl
  · obtain ⟨hns, hlo, hhi, hev, hsram, hcores⟩ := ptpCapture_spec s.vol hr
    exact ⟨withVol s (ptpCapture s.vol), rfl, hns, hlo, hhi, hev, rfl, hsram, hcores⟩

end Sys2Proof
end

section
/-! SUPPORT. A frame for what arrives over the Yoke link: changes to Yoke's state and to registers of a known set. -/

namespace Sys2Proof.Machine

/-- v' comes from v by changes to Yoke's state and by what `Touches` allows. -/
def YokTouches (W : Nat → Prop) (v v' : Vol) : Prop := Touches W { v with yok := v'.yok } v'

namespace YokTouches

variable {W : Nat → Prop} {v v' v'' : Vol}

theorem of_touches (h : Touches W v v') : YokTouches W v v' := by
  rw [YokTouches, h.yok]
  exact h

theorem refl (v : Vol) : YokTouches W v v := of_touches (.refl W v)

theorem setYok (v : Vol) (f : Yok → Yok) : YokTouches W v (setYok v f) := Touches.refl W _

theorem trans (h : YokTouches W v v') (h' : YokTouches W v' v'') : YokTouches W v v'' where
  rest := by
    have h2 := Touches.rest h'
    rw [Touches.rest h] at h2
    exact h2
  regs a ha := (Touches.regs h' a ha).trans (Touches.regs h a ha)

theorem frame (h : YokTouches W v v') : Touches W { v with yok := v'.yok } v' := h
theorem sram (h : YokTouches W v v') : v'.sram = v.sram := h.frame.sram
theorem cores (h : YokTouches W v v') : v'.cores = v.cores := h.frame.cores
theorem tick (h : YokTouches W v v') : v'.tick = v.tick := h.frame.tick
theorem rg_eq (h : YokTouches W v v') {a : Nat} (ha : ¬ W a) : rg v' a = rg v a := h.frame.regs a ha

theorem ite {c : Prop} [Decidable c] {a b : Vol} (ha : YokTouches W v a) (hb : YokTouches W v b) :
    YokTouches W v (if c then a else b) := by
  split
  · exact ha
  · exact hb

end YokTouches

/-- The registers of Yoke's page. -/
def YokRegs (a : Nat) : Prop := 0x40050000 ≤ a ∧ a < 0x40051000

theorem yokSend_touches {W : Nat → Prop} (v : Vol) (typ sub : Nat) (p : List Byte) : YokTouches W v (yokSend v typ sub p) :=
  .ite (.setYok v _) (.refl v)

/-! ### A frame that is discarded -/

/-- A frame was discarded and counted (R409). -/
def FrameCounted (v v' : Vol) : Prop :=
  rg v' (aYok 0x06C) = rg v (aYok 0x06C) + 1 ∧ rb v' (aFault pYok) 0 = true ∧ v'.sram = v.sram ∧ v'.cores = v.cores

/-- The registers of the resend count and of the tick page: what a resend changes beside the frame's discard. -/
def ResendRegs (a : Nat) : Prop := a = aYok 0x068 ∨ TickRegs a

theorem not_resendRegs_count : ¬ ResendRegs (aYok 0x06C) := by
  simp only [ResendRegs, TickRegs, aYok, ra, pYok]; omega

theorem not_resendRegs_fault : ¬ ResendRegs (aFault pYok) := by
  simp only [ResendRegs, TickRegs, aYok, aFault, ra, pYok]; omega

theorem FrameCounted.trans_frame {v u u' : Vol} (h : FrameCounted v u) (hreg : ∀ a, ¬ ResendRegs a → rg u' a = rg u a)
    (hsram : u'.sram = u.sram) (hcores : u'.cores = u.cores) : FrameCounted v u' := by
  obtain ⟨hcount, hfault, hs, hc⟩ := h
  refine ⟨(hreg _ not_resendRegs_count).trans hcount, ?_, hsram.trans hs, hcores.trans hc⟩
  rw [rb, hreg _ not_resendRegs_fault]
  exact hfault

theorem frameDiscard_counted (v : Vol) (nak : Option Nat) : FrameCounted v (frameDiscard v nak) := by
  have hplain : FrameCounted v (setFault (rgInc v (aYok 0x06C)) pYok 0) :=
    ⟨by rw [rg_setFault, if_neg (by decide), rgInc, rg_rgSet, if_pos rfl], rb_setFault_same _ _ (by decide), rfl, rfl⟩
  cases nak with
  | none => exact hplain
  | some s =>
    have ht : YokTouches ResendRegs _ (yokSend (setFault (rgInc v (aYok 0x06C)) pYok 0) 4 s []) := yokSend_touches _ 4 s []
    exact hplain.trans_frame (fun a ha => ht.rg_eq ha) ht.sram ht.cores

theorem stretchDrop_frame (v : Vol) (n : Nat) : (∀ a, ¬ ResendRegs a → rg (stretchDrop v n) a = rg v a)
    ∧ (stretchDrop v n).sram = v.sram ∧ (stretchDrop v n).cores = v.cores := by
  have ht : Touches ResendRegs _ (stretchDrop v n) :=
    (touches_rgSet (setTick v _) _ (.inr (tickRegs_ra (by decide)))).trans (touches_raiseEvent _ 2 (.inr (tickRegs_ra (by decide))))
  exact ⟨fun a ha => ht.regs a ha, ht.sram, ht.cores⟩

theorem askResend_counted (v : Vol) (seg : Nat) : FrameCounted v (askResend v seg) := by
  unfold askResend
  split
  · exact frameDiscard_counted v _
  split
  · exact (frameDiscard_counted v none).trans_frame (fun _ _ => rfl) rfl rfl
  have hagain : FrameCounted v (setYok (rgInc (frameDiscard v (some seg)) (aYok 0x068)) fun y => { y with resends := y.resends + 1 }) :=
    (frameDiscard_counted v (some seg)).trans_frame (fun a ha => rg_rgSet_ne _ _ fun e => ha (.inl e)) rfl rfl
  dsimp only
  split
  · obtain ⟨hreg, hsram, hcores⟩ := stretchDrop_frame
      (setYok (rgInc (frameDiscard v (some seg)) (aYok 0x068)) fun y => { y with resends := y.resends + 1 }) 520
    exact hagain.trans_frame hreg hsram hcores
  · exact hagain

/-! ### The MARK (R410, R417) -/

/-- Where a MARK that arrives places the boundary (R51, R54, R417, R430). -/
def markedNext (v : Vol) : Nat :=
  let at' := v.now + 1196 - rf v (aYok 0x044) 9 0
  if v.tick.first then v.tick.next else if v.yok.role = 3 then at'
    else limitNat (v.tick.boundary + taf v 0x054 18 0) (v.tick.boundary + taf v 0x058 18 0) at'

theorem placeBoundary_again {v : Vol} (h : v.yok.sof = true) : placeBoundary v = v := if_pos h

theorem placeBoundary_sof (v : Vol) : (placeBoundary v).yok.sof = true := by
  unfold placeBoundary
  split
  · assumption
  · dsimp only
    split <;> rfl

theorem placeBoundary_frame (v : Vol) : (placeBoundary v).yok.role = v.yok.role ∧ (placeBoundary v).sram = v.sram
    ∧ (placeBoundary v).cores = v.cores := by
  unfold placeBoundary
  split
  · exact ⟨rfl, rfl, rfl⟩
  · dsimp only
    split <;> exact ⟨rfl, rfl, rfl⟩

theorem placeBoundary_count (v : Vol) : rg (placeBoundary v) (aYok 0x06C) = rg v (aYok 0x06C) := by
  unfold placeBoundary
  split
  · rfl
  · dsimp only
    split
    · rw [rg_rgOr_ne _ _ (by decide)]
      exact rg_rgSet_ne _ _ (by decide)
    · rfl

theorem placeBoundary_next {v : Vol} (h : v.yok.sof = false) (hr : v.tick.running = true) (hs : tickSource v = 2) :
    (placeBoundary v).tick.next = markedNext v := by
  have hs' : tickSource (setYok (tokenLevel v true) fun y =>
    { y with sof := true, snaps := [], snapOpen := false, resends := 0, noSnap := false }) = 2 := hs
  unfold placeBoundary
  rw [if_neg (by simp [h])]
  dsimp only
  rw [if_pos ⟨hr, hs'⟩]
  rfl

/-! ### Relays and verdicts (R427, R440) -/

/-- One relayed source arrives. -/
def relayArrives (v : Vol) (x : Nat) : Vol :=
  if x < 0x8000 then v
  else if !twinLinked v || decide (8 ≤ v.yok.relayRx.length) then setFault v pYok 5
  else raiseEvent (setYok v fun y => { y with relayRx := y.relayRx ++ [x % 512] }) pYok 6

theorem relaysArrive_eq (v : Vol) (p : List Byte) (i : Nat) : relaysArrive v p i =
    relayArrives (relayArrives v (byteAt p i + 256 * byteAt p (i + 1))) (byteAt p (i + 2) + 256 * byteAt p (i + 3)) := rfl

/-- What relays and the twin's verdict change of Yoke's state: neither the frames held nor what a MARK told. -/
def SameFrames (y y' : Yok) : Prop :=
  y'.mark = y.mark ∧ y'.rply = y.rply ∧ y'.sof = y.sof ∧ y'.noMark = y.noMark ∧ y'.takeDue = y.takeDue

theorem SameFrames.trans {y y' y'' : Yok} (h : SameFrames y y') (h' : SameFrames y' y'') : SameFrames y y'' := by
  obtain ⟨h1, h2, h3, h4, h5⟩ := h
  obtain ⟨k1, k2, k3, k4, k5⟩ := h'
  exact ⟨k1.trans h1, k2.trans h2, k3.trans h3, k4.trans h4, k5.trans h5⟩

/-- The registers that relays, verdicts and the comparison of digests change, those of the twin's digest apart. -/
def VerdictRegs (a : Nat) : Prop := a = aYok 0x060 ∨ a = aYok 0x064 ∨ a = aFault pYok ∨ a = aEvPend pYok ∨ a = aCtl pWhs

theorem relayArrives_frame (v : Vol) (x : Nat) : YokTouches VerdictRegs v (relayArrives v x) ∧ SameFrames v.yok (relayArrives v x).yok := by
  unfold relayArrives
  split
  · exact ⟨.refl v, ⟨rfl, rfl, rfl, rfl, rfl⟩⟩
  split
  · exact ⟨.of_touches (touches_setFault v 5 (by simp [VerdictRegs])), ⟨rfl, rfl, rfl, rfl, rfl⟩⟩
  · refine ⟨(YokTouches.setYok v _).trans (.of_touches (touches_raiseEvent _ 6 (by simp [VerdictRegs]))), ?_⟩
    rw [raiseEvent_yok]
    exact ⟨rfl, rfl, rfl, rfl, rfl⟩

theorem relaysArrive_frame (v : Vol) (p : List Byte) (i : Nat) :
    YokTouches VerdictRegs v (relaysArrive v p i) ∧ SameFrames v.yok (relaysArrive v p i).yok := by
  rw [relaysArrive_eq]
  obtain ⟨h1, h2⟩ := relayArrives_frame v (byteAt p i + 256 * byteAt p (i + 1))
  obtain ⟨k1, k2⟩ := relayArrives_frame (relayArrives v (byteAt p i + 256 * byteAt p (i + 1))) (byteAt p (i + 2) + 256 * byteAt p (i + 3))
  exact ⟨h1.trans k1, h2.trans k2⟩

theorem twinVerdict_frame (v : Vol) (flags : Nat) :
    YokTouches VerdictRegs v (twinVerdict v flags) ∧ SameFrames v.yok (twinVerdict v flags).yok := by
  unfold twinVerdict
  split
  · have ht : Touches VerdictRegs (setYok v fun y => { y with twinV := some (flags.testBit 4) }) _ :=
      touches_rbSet _ 8 (flags.testBit 4) (a := aYok 0x064) (by simp [VerdictRegs])
    refine ⟨(YokTouches.setYok v _).trans (.of_touches ht), ?_⟩
    rw [ht.yok]
    exact ⟨rfl, rfl, rfl, rfl, rfl⟩
  · exact ⟨.refl v, ⟨rfl, rfl, rfl, rfl, rfl⟩⟩

theorem exec_mark (s : State) (f : List Byte) : exec (.mark f) s = .next (withVol s (markArrives s.vol f)) := rfl

/-- What a sound MARK leaves to a part that waits for it (R410, R424, R433). -/
theorem markArrives_sound {v : Vol} {f : List Byte} (ht : takesFrames v = true) (hk : v.yok.token = false)
    (hf : frameIs f 1 none = true) : let p := payloadOf f
      let v' := markArrives v f
      v'.yok.mark = p ∧ v'.yok.sof = true ∧ v'.yok.noMark = 0 ∧ v'.tick = (placeBoundary v).tick
        ∧ (v.yok.role = 2 → (byteAt p 20).testBit 0 = true ∨ (byteAt p 20).testBit 1 = true ∨ (byteAt p 20).testBit 2 = true →
          v'.yok.takeDue = true)
        ∧ v'.sram = v.sram ∧ v'.cores = v.cores := by
  obtain ⟨hrole, hsram, hcores⟩ := placeBoundary_frame v
  dsimp only
  unfold markArrives
  rw [if_neg (by simp [ht]), if_neg (by simp [hk])]
  dsimp only
  rw [if_neg (by simp [hf])]
  generalize hu : setYok (placeBoundary v) _ = u
  obtain ⟨r1, r2⟩ := relaysArrive_frame u (payloadOf f) 22
  obtain ⟨t1, t2⟩ := twinVerdict_frame (relaysArrive u (payloadOf f) 22) (byteAt (payloadOf f) 20)
  have hframe := r1.trans t1
  obtain ⟨hmark, -, hsof, hno, htake⟩ := r2.trans t2
  rw [hmark, hsof, hno, htake, hframe.tick, hframe.sram, hframe.cores]
  subst hu
  refine ⟨rfl, placeBoundary_sof v, rfl, rfl, fun h2 hfl => ?_, hsram, hcores⟩
  rw [← hrole] at h2
  simp only [setYok, h2, beq_self_eq_true, Bool.true_and, Bool.or_eq_true]
  exact .inr (or_assoc.mpr hfl)

/-- A MARK that fails its check is counted (R409). -/
theorem markArrives_counted {v : Vol} {f : List Byte} (ht : takesFrames v = true) (hf : frameIs f 1 none = false) :
    FrameCounted v (markArrives v f) := by
  obtain ⟨-, hsram, hcores⟩ := placeBoundary_frame v
  unfold markArrives
  rw [if_neg (by simp [ht]), hf]
  split
  · rw [if_neg Bool.false_ne_true]
    exact frameDiscard_counted v _
  · obtain ⟨hcount, hfault, hs, hc⟩ := askResend_counted (placeBoundary v) 7
    exact ⟨hcount.trans (by rw [placeBoundary_count]), hfault, hs.trans hsram, hc.trans hcores⟩

end Sys2Proof.Machine
end

section
/-! SUPPORT. What the entry into SAFE keeps (R24, R486): the generator, the SRAM, Yoke's page and what its frames brought. -/

namespace Sys2Proof.Machine

/-- Nothing of a mode change, a switch of image or a fall back waits for the boundary. -/
def NothingDue (v : Vol) : Prop := v.sys.target = none ∧ v.lks.pauseAt = none ∧ v.lks.switchTo = none ∧ v.lks.fellDue = false

/-- What the entry into SAFE keeps. -/
structure SafeKeeps (v v' : Vol) : Prop where
  now : v'.now = v.now
  tick : v'.tick = v.tick
  sram : v'.sram = v.sram
  rply : v'.yok.rply = v.yok.rply
  alone : v.yok.role = 0 → v'.yok.role = 0
  idle : NothingDue v → NothingDue v'
  regs : ∀ a, YokRegs a → rg v' a = rg v a

/-- The registers of all pages but Yoke's. -/
def OffYok (a : Nat) : Prop := ¬ YokRegs a

theorem offYok_ra {p off : Nat} (hp : p ≠ pYok) (h : off < 0x1000) : OffYok (ra p off) := by
  simp only [OffYok, YokRegs, ra, pYok] at *; omega

theorem Touches.lks {W : Nat → Prop} {v v' : Vol} (h : Touches W v v') : v'.lks = v.lks := by rw [h.rest]

namespace SafeKeeps

variable {v v' v'' : Vol}

theorem refl (v : Vol) : SafeKeeps v v := ⟨rfl, rfl, rfl, rfl, id, id, fun _ _ => rfl⟩

theorem trans (h : SafeKeeps v v') (h' : SafeKeeps v' v'') : SafeKeeps v v'' where
  now := h'.now.trans h.now
  tick := h'.tick.trans h.tick
  sram := h'.sram.trans h.sram
  rply := h'.rply.trans h.rply
  alone hr := h'.alone (h.alone hr)
  idle hi := h'.idle (h.idle hi)
  regs a ha := (h'.regs a ha).trans (h.regs a ha)

theorem of_touches (h : Touches OffYok v v') : SafeKeeps v v' where
  now := h.now
  tick := h.tick
  sram := h.sram
  rply := by rw [h.yok]
  alone hr := by rw [h.yok]; exact hr
  idle hi := by rw [NothingDue, h.sys, h.lks]; exact hi
  regs a ha := h.regs a fun hw => hw ha

/-- The parts of the state that the entry changes beside registers. -/
theorem of_parts {lks : Lks} {sys : Sys} {tally : Tally} {cores : List Core}
    (hi : NothingDue v → NothingDue { v with lks := lks, sys := sys }) :
    SafeKeeps v { v with lks := lks, sys := sys, tally := tally, cores := cores } := ⟨rfl, rfl, rfl, rfl, id, hi, fun _ _ => rfl⟩

end SafeKeeps

theorem yokRelease_keeps (v : Vol) (why : Nat) : SafeKeeps v (yokRelease v why) := by
  have hrole (r : Nat) (h : r = 0) : (if r = 1 then 0 else r) = 0 := by rw [h]; rfl
  unfold yokRelease
  dsimp only
  split
  · unfold yokCtrl yokSend yokSendAt
    split
    · exact ⟨rfl, rfl, rfl, rfl, hrole _, id, fun _ _ => rfl⟩
    · exact ⟨rfl, rfl, rfl, rfl, hrole _, id, fun _ _ => rfl⟩
  · exact ⟨rfl, rfl, rfl, rfl, hrole _, id, fun _ _ => rfl⟩

theorem transitionEnds_keeps (v : Vol) (m : Mode) : SafeKeeps v (transitionEnds v m) :=
  (SafeKeeps.of_touches (touches_rgSet v _ (offYok_ra (by decide) (by decide)))).trans
    ((SafeKeeps.of_parts fun ⟨_, h⟩ => ⟨rfl, h⟩).trans (.of_touches (touches_raiseEvent _ 0 (offYok_ra (by decide) (by decide)))))

theorem stkClear_touches (v : Vol) : Touches OffYok v (stkClear v) := by
  refine (touches_outs v _).trans (touches_foldl _ _ (fun c hc u => touches_rgSet u 0 (offYok_ra (by decide) ?_)) _)
  have := List.mem_range.mp hc
  omega

theorem outForceSafe_touches (v : Vol) : Touches OffYok v (outForceSafe v) := by
  refine (stkClear_touches v).trans ((outApply_touches _).mono fun a ha => ?_)
  simp only [OffYok, YokRegs, OutRegs] at *; omega

/-- Probation that ends at t. -/
def probFrom (v : Vol) (t : Nat) : Vol :=
  raiseEvent (rgOr { v with lks := { v.lks with probEnd := t } } (ra pLks 0x05C) 16) pLks 2

theorem probStart_eq (v : Vol) : ∃ t, probStart v = probFrom v t := ⟨_, rfl⟩

theorem probFrom_keeps (v : Vol) (t : Nat) : SafeKeeps v (probFrom v t) := by
  have hlks : SafeKeeps v { v with lks := { v.lks with probEnd := t } } := ⟨rfl, rfl, rfl, rfl, id, id, fun _ _ => rfl⟩
  exact (hlks.trans (.of_touches (touches_rgSet _ _ (offYok_ra (by decide) (by decide))))).trans
    (.of_touches (touches_raiseEvent _ 2 (offYok_ra (by decide) (by decide))))

theorem probStart_keeps (v : Vol) : SafeKeeps v (probStart v) := by
  obtain ⟨t, ht⟩ := probStart_eq v
  rw [ht]
  exact probFrom_keeps v t

theorem SafeKeeps.foldl {β : Type} (f : Vol → β → Vol) (h : ∀ v x, SafeKeeps v (f v x)) (l : List β) (v : Vol) :
    SafeKeeps v (l.foldl f v) := by
  induction l generalizing v with
  | nil => exact .refl v
  | cons x l ih => exact (h v x).trans (ih (f v x))

theorem onCore_keeps (v : Vol) (k : Nat) (f : Core → Core) : SafeKeeps v (onCore v k f) :=
  ⟨rfl, rfl, rfl, rfl, id, id, fun _ _ => rfl⟩

theorem safeEntered_keeps (v : Vol) : SafeKeeps v (safeEntered v) := by
  have hmode := (yokRelease_keeps v (if rb v (aStat pClk) 4 then 2 else 1)).trans (transitionEnds_keeps _ .safe)
  unfold safeEntered
  extract_lets released changed tally stopped halted svc prob lks last
  have hstopped : SafeKeeps changed stopped := ⟨rfl, rfl, rfl, rfl, id, id, fun _ _ => rfl⟩
  have hhalted : SafeKeeps stopped halted := .foldl _ (fun u k => onCore_keeps u k _) _ stopped
  have hsvc : SafeKeeps halted svc := .of_touches (touches_rgSet _ _ (offYok_ra (by decide) (by decide)))
  have hprob : SafeKeeps svc prob := by
    unfold prob
    split
    · exact probStart_keeps svc
    · exact .refl svc
  have hlast : SafeKeeps prob last := ⟨rfl, rfl, rfl, rfl, id, fun ⟨h, _, h'⟩ => ⟨h, rfl, h'⟩, fun _ _ => rfl⟩
  exact (hmode.trans (hstopped.trans (hhalted.trans hsvc))).trans (hprob.trans (hlast.trans (.of_touches (outForceSafe_touches last))))

theorem enterSafe_keeps (v : Vol) : SafeKeeps v (enterSafe v) := by
  have hsys (s : Sys) (h : v.sys.target = none → s.target = none) : SafeKeeps v { v with sys := s } :=
    ⟨rfl, rfl, rfl, rfl, id, fun ⟨h1, h2⟩ => ⟨h h1, h2⟩, fun _ _ => rfl⟩
  unfold enterSafe
  split
  · exact (hsys _ fun _ => rfl).trans (safeEntered_keeps _)
  split
  · exact hsys _ id
  · exact hsys _ fun _ => rfl

end Sys2Proof.Machine
end

section
/-! SUPPORT. Segments, answers, messages and words of a STATE frame that arrive (R411-R416, R418, R428, R436, R440). -/

namespace Sys2Proof.Machine

/-! ### Snapshot segments -/

theorem foldl_keeps {α β : Type} (g : Vol → α) (f : Vol → β → Vol) (l : List β) (h : ∀ x ∈ l, ∀ v, g (f v x) = g v) (v : Vol) :
    g (l.foldl f v) = g v := by
  induction l generalizing v with
  | nil => rfl
  | cons x l ih => exact (ih (fun y hy => h y (List.mem_cons_of_mem _ hy)) (f v x)).trans (h x List.mem_cons_self v)

theorem dropPut_snaps (v : Vol) (k i : Nat) (w : TWord) : (dropPut v k i w).yok.snaps = v.yok.snaps := rfl

theorem dropChans_snaps (v : Vol) (k : Nat) (seg : Nat → Bool) (word : Nat → TWord) :
    (dropChans v k seg word).yok.snaps = v.yok.snaps := by
  refine foldl_keeps (·.yok.snaps) _ _ (fun n _ v => ?_) v
  split
  · exact dropPut_snaps v k n _
  · rfl

theorem dropAux_snaps (v : Vol) (k : Nat) (word : Nat → TWord) : (dropAux v k word).yok.snaps = v.yok.snaps :=
  foldl_keeps (·.yok.snaps) (fun v i => dropPut v k (192 + i) (word i)) _ (fun i _ u => dropPut_snaps u k (192 + i) (word i)) v

theorem rbSet_yok (v : Vol) (a i : Nat) (b : Bool) : (rbSet v a i b).yok = v.yok :=
  (touches_rbSet (W := fun _ => True) v i b trivial).yok

theorem crossCheck_snaps (v : Vol) (n : Nat) (twin : TWord) : (crossCheck v n twin).yok.snaps = v.yok.snaps := by
  unfold crossCheck
  extract_lets t own diff beyond c told counted bitSet first
  split
  · rfl
  split
  · rfl
  · have hfirst : first.yok = counted.yok := (apply_ite Vol.yok _ _ _).trans ((ite_self _).trans (rbSet_yok counted _ _ true))
    rw [raiseEvent_yok]
    show first.yok.snaps = counted.yok.snaps
    rw [hfirst]

theorem snapApply_snaps (v : Vol) (s : Nat) (p : List Byte) : (snapApply v s p).yok.snaps = v.yok.snaps := by
  unfold snapApply
  dsimp only
  split
  · refine (foldl_keeps (·.yok.snaps) _ _ (fun i _ v => crossCheck_snaps v _ _) _).trans
      (foldl_keeps (·.yok.snaps) _ _ (fun k _ v => ?_) v)
    split
    · exact dropChans_snaps _ _ _ _
    · rfl
  · refine foldl_keeps (·.yok.snaps) _ _ (fun k _ v => ?_) v
    split
    · exact dropAux_snaps _ _ _
    · rfl

theorem exec_snap (s : State) (f : List Byte) : exec (.snap f) s = .next (withVol s (snapArrives s.vol f)) := rfl

/-- A sound segment is held (R412). -/
def snapHeld (v : Vol) (f : List Byte) : Vol := setYok v fun y => { y with snaps := smapPut y.snaps (byteAt f 1) (payloadOf f) }

theorem snapArrives_sound {v : Vol} {f : List Byte} (ht : takesFrames v = true) (hk : v.yok.token = false)
    (hf : frameIs f 2 none = true) : snapArrives v f =
      if v.yok.snapOpen && v.tick.inDrop && decide (2 ≤ v.yok.role) then snapApply (snapHeld v f) (byteAt f 1) (payloadOf f)
      else snapHeld v f := by
  unfold snapArrives
  rw [if_neg (by simp [ht])]
  dsimp only
  rw [if_neg (by simp [hf]), if_neg (by simp [hk])]
  rfl

theorem snapArrives_counted {v : Vol} {f : List Byte} (ht : takesFrames v = true) (hf : frameIs f 2 none = false) :
    FrameCounted v (snapArrives v f) := by
  unfold snapArrives
  rw [if_neg (by simp [ht])]
  dsimp only
  rw [if_pos (by simp [hf])]
  exact askResend_counted v _

/-! ### Answers of the twin -/

theorem exec_rply (s : State) (f : List Byte) : exec (.rply f) s = .next (withVol s (rplyArrives s.vol f)) := rfl

theorem rplyArrives_alone {v : Vol} {f : List Byte} (ht : takesFrames v = true) (hf : frameIs f 3 none = true)
    (ha : v.yok.role ≠ 1 ∨ v.yok.twin = false) : rplyArrives v f = relaysArrive v (payloadOf f) 18 := by
  unfold rplyArrives
  rw [if_neg (by simp [ht]), if_neg (by simp [hf]), if_pos (by simpa using ha)]

theorem byteAt_lt (p : List Byte) (i : Nat) : byteAt p i < 256 := (p.getD i 0).isLt

theorem relayArrives_none (v : Vol) {lo hi : Nat} (hlo : lo < 256) (h : hi < 128) : relayArrives v (lo + 256 * hi) = v :=
  if_pos (by omega)

theorem relayArrives_alone {v : Vol} {lo hi : Nat} (ha : v.yok.twin = false) (h : 128 ≤ hi) :
    relayArrives v (lo + 256 * hi) = setFault v pYok 5 := by
  rw [relayArrives, if_neg (by omega), if_pos (by simp [twinLinked, ha])]

theorem smapErase_idem {α : Type} (m : SMap α) (a : Nat) : smapErase (smapErase m a) a = smapErase m a := by
  induction m with
  | nil => rfl
  | cons e m ih =>
    by_cases h : a = e.1
    · simp only [smapErase, h, if_true] at ih ⊢
      exact ih
    · simp only [smapErase, h, if_false, ih]

theorem smapPut_idem {α : Type} (m : SMap α) (a : Nat) (x : α) : smapPut (smapPut m a x) a x = smapPut m a x := by
  induction m with
  | nil => simp [smapPut, smapErase]
  | cons e m ih =>
    by_cases h : a = e.1
    · simp [smapPut, h, smapErase_idem]
    · by_cases hlt : a < e.1
      · simp [smapPut, smapErase, h, hlt, smapErase_idem]
      · simp [smapPut, h, hlt, ih]

theorem smapSet_idem {α : Type} [DecidableEq α] (d : Nat → α) (m : SMap α) (a : Nat) (x : α) :
    smapSet d (smapSet d m a x) a x = smapSet d m a x := by
  unfold smapSet
  split
  · exact smapErase_idem m a
  · exact smapPut_idem m a x

/-- A fault bit that is set is set again without effect. -/
theorem setFault_idem (v : Vol) (p i : Nat) : setFault (setFault v p i) p i = setFault v p i := by
  have hw : rg (setFault v p i) (aFault p) ||| bitWord i = rg v (aFault p) ||| bitWord i := by
    rw [rg_setFault, if_pos rfl, BitVec.or_assoc, BitVec.or_self]
  have hput : rgSet (rgSet v (aFault p) (rg v (aFault p) ||| bitWord i)) (aFault p) (rg v (aFault p) ||| bitWord i)
      = rgSet v (aFault p) (rg v (aFault p) ||| bitWord i) := by
    unfold rgSet
    dsimp only
    rw [smapSet_idem]
  show rgSet (setFault v p i) (aFault p) (rg (setFault v p i) (aFault p) ||| bitWord i) = _
  rw [hw]
  exact hput

/-- Relays without a source change nothing. -/
theorem relaysArrive_none (v : Vol) {p : List Byte} {i : Nat} (h1 : byteAt p (i + 1) < 128) (h3 : byteAt p (i + 3) < 128) :
    relaysArrive v p i = v := by
  rw [relaysArrive_eq, relayArrives_none v (byteAt_lt p i) h1, relayArrives_none v (byteAt_lt p (i + 2)) h3]

/-- At a part alone relayed sources are lost (R440). -/
theorem relaysArrive_lost {v : Vol} {p : List Byte} {i : Nat} (ha : v.yok.twin = false)
    (h : 128 ≤ byteAt p (i + 1) ∨ 128 ≤ byteAt p (i + 3)) : relaysArrive v p i = setFault v pYok 5 := by
  rw [relaysArrive_eq]
  by_cases h1 : 128 ≤ byteAt p (i + 1)
  · rw [relayArrives_alone ha h1]
    by_cases h3 : 128 ≤ byteAt p (i + 3)
    · rw [relayArrives_alone (v := setFault v pYok 5) ha h3, setFault_idem]
    · exact relayArrives_none _ (byteAt_lt p (i + 2)) (by omega)
  · rw [relayArrives_none v (byteAt_lt p i) (by omega)]
    exact relayArrives_alone ha (h.resolve_left h1)

/-! ### The twin's digest, and SAFE after a comparison that fails (R411, R423, R428) -/

theorem yokCompare_frame (v : Vol) (own twin : BitVec 64) (noCmp : Bool) (n : Nat) (hw : v.whs.testing = false) :
    let u := rgSet (rgSet v (aYok 0x058) (twin.setWidth 32)) (aYok 0x05C) ((twin >>> 32).setWidth 32)
    YokTouches VerdictRegs u (yokCompare v own twin noCmp n).1 ∧ (yokCompare v own twin noCmp n).1.yok.rply = v.yok.rply := by
  extract_lets u
  have hstart (x : Vol) (hx : x.whs.testing = false) : YokTouches VerdictRegs x (selfTestStarts x)
      ∧ (selfTestStarts x).yok.rply = x.yok.rply := by
    unfold selfTestStarts
    split
    · exact ⟨.refl x, rfl⟩
    · dsimp only
      have h64 : YokTouches VerdictRegs x (rgSet (setYok x fun y => { y with st := 1, twinV := none, fast := none }) (aYok 0x064) 0) :=
        (YokTouches.setYok x _).trans (.of_touches (touches_rgSet _ 0 (by simp [VerdictRegs])))
      split
      · rw [whsFastStart]
        rw [if_neg (by simp [rgOr, rgSet, setYok, hx])]
        exact ⟨h64.trans (.of_touches (touches_rgSet _ _ (by simp [VerdictRegs]))), rfl⟩
      · exact ⟨h64, rfl⟩
  unfold yokCompare
  dsimp only
  split
  · exact ⟨.refl u, rfl⟩
  split
  · exact ⟨.of_touches (touches_rgSet u _ (by simp [VerdictRegs])), rfl⟩
  · have hsat : Touches VerdictRegs u (rgIncSat u (aYok 0x060) 4) :=
      touches_ite (.refl _ u) (touches_rgSet u _ (by simp [VerdictRegs]))
    have hraise : Touches VerdictRegs u (raiseEvent (rgIncSat u (aYok 0x060) 4) pYok 2) :=
      hsat.trans (touches_raiseEvent _ 2 (by simp [VerdictRegs]))
    obtain ⟨h1, h2⟩ := hstart (raiseEvent (rgIncSat u (aYok 0x060) 4) pYok 2) (by rw [hraise.rest]; exact hw)
    exact ⟨(YokTouches.of_touches hraise).trans h1, h2.trans (by rw [hraise.yok]; rfl)⟩

theorem not_verdictRegs_lo : ¬ VerdictRegs (aYok 0x058) := by
  simp only [VerdictRegs, aYok, aFault, aEvPend, aCtl, ra, pYok, pWhs]; omega

theorem not_verdictRegs_hi : ¬ VerdictRegs (aYok 0x05C) := by
  simp only [VerdictRegs, aYok, aFault, aEvPend, aCtl, ra, pYok, pWhs]; omega

theorem yokRegs_ra {off : Nat} (h : off < 0x1000) : YokRegs (ra pYok off) := by
  simp only [YokRegs, ra, pYok]; omega

theorem leWord_of_sum (p : List Byte) (i j : Nat) :
    let w : BitVec 64 := BitVec.ofNat 64 ((leWord p i).toNat + (leWord p j).toNat * 2 ^ 32)
    w.setWidth 32 = leWord p i ∧ (w >>> 32).setWidth 32 = leWord p j := by
  have hi := (leWord p i).isLt
  have hj := (leWord p j).isLt
  constructor
  · apply BitVec.eq_of_toNat_eq
    simp only [BitVec.toNat_setWidth, BitVec.toNat_ofNat]
    omega
  · apply BitVec.eq_of_toNat_eq
    simp only [BitVec.toNat_setWidth, BitVec.toNat_ushiftRight, BitVec.toNat_ofNat, Nat.shiftRight_eq_div_pow]
    omega

/-- What follows the comparison of the digests (R423, R427, R440). -/
def rplyEnds (r : Vol × Bool) (p : List Byte) : Vol :=
  let v := twinVerdict (relaysArrive r.1 p 18) (byteAt p 16)
  if r.2 then enterSafe v else v

/-- A lead holds a sound RPLY and compares the digest that it brings. -/
theorem rplyArrives_lead_eq {v : Vol} {f : List Byte} (ht : takesFrames v = true) (hr : v.yok.role = 1) (hw : v.yok.twin = true)
    (hf : frameIs f 3 none = true) : ∃ own twin noCmp n,
      rplyArrives v f = rplyEnds (yokCompare (setYok v fun y => { y with rply := payloadOf f }) own twin noCmp n) (payloadOf f)
        ∧ twin.setWidth 32 = leWord (payloadOf f) 8 ∧ (twin >>> 32).setWidth 32 = leWord (payloadOf f) 12 := by
  unfold rplyArrives
  rw [if_neg (by simp [ht]), if_neg (by simp [hf]), if_neg (by simp [hr, hw])]
  exact ⟨_, _, _, _, rfl, leWord_of_sum (payloadOf f) 8 12⟩

theorem rplyEnds_keeps (r : Vol × Bool) (p : List Byte) : (rplyEnds r p).yok.rply = r.1.yok.rply ∧ (rplyEnds r p).sram = r.1.sram
    ∧ rg (rplyEnds r p) (aYok 0x058) = rg r.1 (aYok 0x058) ∧ rg (rplyEnds r p) (aYok 0x05C) = rg r.1 (aYok 0x05C) := by
  obtain ⟨a1, a2⟩ := relaysArrive_frame r.1 p 18
  obtain ⟨b1, b2⟩ := twinVerdict_frame (relaysArrive r.1 p 18) (byteAt p 16)
  have hframe := a1.trans b1
  obtain ⟨-, hrply, -⟩ := a2.trans b2
  have hlo := hframe.rg_eq not_verdictRegs_lo
  have hhi := hframe.rg_eq not_verdictRegs_hi
  unfold rplyEnds
  dsimp only
  split
  · have hsafe := enterSafe_keeps (twinVerdict (relaysArrive r.1 p 18) (byteAt p 16))
    exact ⟨hsafe.rply.trans hrply, hsafe.sram.trans hframe.sram, (hsafe.regs _ (yokRegs_ra (by decide))).trans hlo,
      (hsafe.regs _ (yokRegs_ra (by decide))).trans hhi⟩
  · exact ⟨hrply, hframe.sram, hlo, hhi⟩

/-- What a sound RPLY leaves to a lead: the answer is held and the twin's digest shown. -/
theorem rplyArrives_lead {v : Vol} {f : List Byte} (ht : takesFrames v = true) (hr : v.yok.role = 1) (hw : v.yok.twin = true)
    (hf : frameIs f 3 none = true) (hn : v.whs.testing = false) : let p := payloadOf f
      let v' := rplyArrives v f
      v'.yok.rply = p ∧ rg v' (aYok 0x058) = leWord p 8 ∧ rg v' (aYok 0x05C) = leWord p 12 ∧ v'.sram = v.sram := by
  obtain ⟨own, twin, noCmp, n, heq, hlo, hhi⟩ := rplyArrives_lead_eq ht hr hw hf
  obtain ⟨hframe, hrply⟩ := yokCompare_frame (setYok v fun y => { y with rply := payloadOf f }) own twin noCmp n hn
  obtain ⟨e1, e2, e3, e4⟩ := rplyEnds_keeps (yokCompare (setYok v fun y => { y with rply := payloadOf f }) own twin noCmp n) (payloadOf f)
  dsimp only
  rw [heq, e1, e2, e3, e4, hframe.rg_eq not_verdictRegs_lo, hframe.rg_eq not_verdictRegs_hi, ← hlo, ← hhi]
  exact ⟨hrply, (rg_rgSet_ne _ _ (by decide)).trans (by rw [rg_rgSet, if_pos rfl]), by rw [rg_rgSet, if_pos rfl], hframe.sram⟩

/-! ### NAK (R416, R419) -/

theorem exec_nak (s : State) (f : List Byte) : exec (.nak f) s = .next (withVol s (nakArrives s.vol f)) := rfl

/-- Whether a frame is the one that a NAK for segment n, or for the MARK, names. -/
def nakNames (n : Nat) (g : List Byte) : Bool := if n = 7 then byteAt g 0 == 1 else byteAt g 0 == 2 && byteAt g 1 == n

/-- A NAK has a STATE frame's words marked again (R416, R430). -/
def stateAgain (v : Vol) (e : Nat × List Nat × Bool) : Vol :=
  setYok v fun y => { y with
    dirty := e.2.1.foldl (fun m a => smapSet noErr m a 1) y.dirty, flight := y.flight.filter fun g => g.1 != e.1
    cutSent := y.cutSent - if e.2.2 then e.2.1.length else 0 }

section
variable {v : Vol} {f : List Byte} (ht : takesFrames v = true) (hk : v.yok.token = true) (hf : frameIs f 4 none = true)
include ht hk hf

theorem nakArrives_state (h : 128 ≤ byteAt f 1) : nakArrives v f =
    ((v.yok.flight.find? fun e => e.1 == byteAt f 1 - 128).map (stateAgain v)).getD v := by
  unfold nakArrives
  rw [if_neg (by simp [ht]), if_neg (by simp [hf]), if_neg (by simp [hk])]
  dsimp only
  rw [if_pos h]
  cases v.yok.flight.find? fun e => e.1 == byteAt f 1 - 128 <;> rfl

theorem nakArrives_named (h : byteAt f 1 < 128) : nakArrives v f =
    ((v.yok.out.find? (nakNames (byteAt f 1))).map fun g =>
      if v.yok.out.countP (fun x => decide (byteAt x 0 ≤ 2)) < 8 then rgInc (yokAhead v g) (aYok 0x068) else v).getD v := by
  unfold nakArrives
  rw [if_neg (by simp [ht]), if_neg (by simp [hf]), if_neg (by simp [hk])]
  dsimp only
  rw [if_neg (by omega)]
  show (match v.yok.out.find? (nakNames (byteAt f 1)) with
    | none => v
    | some g => if 2 ≤ v.yok.out.countP (fun x => decide (byteAt x 0 ≤ 2)) - 6 then v else rgInc (yokAhead v g) (aYok 0x068)) = _
  cases v.yok.out.find? (nakNames (byteAt f 1)) with
  | none => rfl
  | some g =>
    dsimp only [Option.map_some, Option.getD_some]
    split
    · rw [if_neg (by omega)]
    · rw [if_pos (by omega)]

end

/-- Words marked: each of a list, and no other. -/
theorem smapGet_foldl_mark (l : List Nat) (m : SMap Nat) (a : Nat) :
    smapGet noErr (l.foldl (fun m a => smapSet noErr m a 1) m) a = if a ∈ l then 1 else smapGet noErr m a := by
  induction l generalizing m with
  | nil => simp
  | cons b l ih =>
    rw [List.foldl_cons, ih, smapGet_set]
    by_cases hl : a ∈ l
    · simp [hl]
    · by_cases hb : a = b
      · simp [hb]
      · simp [hl, hb]

/-! ### MBOX (R413, R436) -/

theorem exec_mbox (s : State) (f : List Byte) : exec (.mbox f) s = .next (withVol s (mailArrives s.vol f)) := rfl

/-- The message words of a post from the twin (R413). -/
def mailWords (v : Vol) (p : List Byte) : Vol :=
  (List.range 8).foldl (fun v i => rgSet v (aMbx (byteAt p 0) (0x20 + 4 * i)) (leWord p (8 + 4 * i))) v

theorem rg_rgSet_foldl (f : Nat → Nat) (g : Nat → Word) (hf : ∀ i j, f i = f j → i = j) (l : List Nat) (v : Vol) (i : Nat) :
    rg (l.foldl (fun v i => rgSet v (f i) (g i)) v) (f i) = if i ∈ l then g i else rg v (f i) := by
  induction l generalizing v with
  | nil => simp
  | cons j l ih =>
    rw [List.foldl_cons, ih, rg_rgSet]
    by_cases hl : i ∈ l
    · simp [hl]
    · by_cases hj : i = j
      · simp [hj]
      · simp [hl, hj, mt (hf i j) hj]

theorem mailWords_word (v : Vol) (p : List Byte) {i : Nat} (hi : i < 8) :
    rg (mailWords v p) (aMbx (byteAt p 0) (0x20 + 4 * i)) = leWord p (8 + 4 * i) := by
  have h := rg_rgSet_foldl (fun i => aMbx (byteAt p 0) (0x20 + 4 * i)) (fun i => leWord p (8 + 4 * i))
    (fun i j h => by simp only [aMbx, ra] at h; omega) (List.range 8) v i
  rw [if_pos (List.mem_range.mpr hi)] at h
  exact h

theorem rgSet_foldl_rest (f : Nat → Nat) (g : Nat → Word) (l : List Nat) (v : Vol) :
    (l.foldl (fun v i => rgSet v (f i) (g i)) v).sram = v.sram ∧ (l.foldl (fun v i => rgSet v (f i) (g i)) v).yok = v.yok :=
  ⟨foldl_keeps (·.sram) (fun v i => rgSet v (f i) (g i)) l (fun _ _ _ => rfl) v, foldl_keeps (·.yok) (fun v i => rgSet v (f i) (g i)) l (fun _ _ _ => rfl) v⟩

theorem mailWords_rest (v : Vol) (p : List Byte) : (mailWords v p).sram = v.sram ∧ (mailWords v p).yok = v.yok :=
  rgSet_foldl_rest (fun i => aMbx (byteAt p 0) (0x20 + 4 * i)) (fun i => leWord p (8 + 4 * i)) (List.range 8) v

theorem mailArrives_sound {v : Vol} {f : List Byte} (ht : takesFrames v = true) (hf : frameIs f 5 none = true) :
    let p := payloadOf f
    let b := byteAt p 0
    (24 ≤ b → mailArrives v f = v)
      ∧ (b < 24 →
        (byteAt p 1 = 1 → mbxFull v b = false → mailArrives v f = mbxPost (mailWords v p) b 14 (leWord p 4))
        ∧ (byteAt p 1 = 1 → mbxFull v b = true → mailArrives v f =
          let v1 := mbxPost v b 14 (leWord p 4)
          { v1 with yok := { v1.yok with mboxQ := v1.yok.mboxQ ++ [[BitVec.ofNat 8 b, 4] ++ List.replicate 38 0] } })
        ∧ (byteAt p 1 = 2 → mailArrives v f = mbxRing v b 14 (leWord p 4))
        ∧ (byteAt p 1 = 3 → mailArrives v f = mbxDone v b 14)
        ∧ (byteAt p 1 = 4 → mailArrives v f = rbSet (rbSet v (aMbx b 0x04) 31 false) (aMbx b 0x04) 29 true)) := by
  dsimp only
  unfold mailArrives
  rw [if_neg (by simp [ht]), if_neg (by simp [hf])]
  dsimp only
  refine ⟨fun h => if_pos h, fun h => ?_⟩
  rw [if_neg (by omega)]
  refine ⟨fun h1 hb => ?_, fun h1 hb => ?_, fun h2 => ?_, fun h3 => ?_, fun h4 => ?_⟩
  · rw [if_pos h1, if_neg (by simp [hb])]; rfl
  · rw [if_pos h1, if_pos hb]
  · rw [if_neg (by omega), if_pos h2]
  · rw [if_neg (by omega), if_neg (by omega), if_pos h3]
  · rw [if_neg (by omega), if_neg (by omega), if_neg (by omega), if_pos h4]

/-! ### STATE (R414, R430) -/

theorem exec_state (s : State) (f : List Byte) : exec (.state f) s = .next (withVol s (stateArrives s.vol f)) := rfl

/-- In its direct window a word of SRAM lies under its own address. -/
theorem place_direct {a : Nat} {q : Place} (h : place a = some q) (hw : q.win = .direct) (ht : q.tagged = true) : q.key = a - a % 4 := by
  have hz (n : Nat) (hn : winOf n = .direct) : n = 0 := by
    unfold winOf at hn
    by_contra hne
    rw [if_neg hne] at hn
    split at hn <;> [cases hn; split at hn <;> cases hn]
  unfold place at h
  dsimp only at h
  split at h
  · obtain rfl := Option.some.inj h
    have := hz _ hw
    dsimp only
    omega
  · split at h
    · obtain rfl := Option.some.inj h
      cases ht
    · split at h
      · obtain rfl := Option.some.inj h
        have := hz _ hw
        dsimp only
        omega
      · cases h

/-- What the attach notes once the words of a STATE frame are written. -/
def stateNoted (v : Vol) (n t : Nat) : Vol :=
  let v := setYok v fun y => { y with
    got := y.got + n, gotTick := (t, n + if y.gotTick.1 = t then y.gotTick.2 else 0)
    attPh := if y.attPh = 2 ∧ y.need ≤ y.got + n then 3 else y.attPh
    cutAt := if y.attPh = 2 ∧ y.need ≤ y.got + n then t else y.cutAt }
  if 3 ≤ v.yok.attPh then yokSendAt v t 7 7 (leBytes 4 v.yok.gotTick.2 ++ List.replicate 12 0) else v

/-- `put` writes word i, `w i`, at a + 4i where that lies in tagged SRAM that is up, and changes nothing elsewhere. -/
structure PutsWords (a : Nat) (w : Nat → TWord) (put : Vol → Nat → Vol) : Prop where
  cases : ∀ u i, put u i = u ∨ ∃ q, place (a + 4 * i) = some q ∧ q.win = .direct ∧ q.tagged = true ∧ put u i = sramPut u q.key (w i)
  hit : ∀ u i q, place (a + 4 * i) = some q → q.win = .direct → q.tagged = true → domUp u q.dom = true →
    put u i = sramPut u q.key (w i)

theorem stateArrives_sound {v : Vol} {f : List Byte} (ht : takesFrames v = true) (hr : v.yok.role = 3) (hf : frameIs f 6 none = true) :
    let p := payloadOf f
    ∃ put w, stateArrives v f = stateNoted ((List.range (byteAt p 4)).foldl put v) (byteAt p 4) (frameTick f)
      ∧ PutsWords (leWord p 0).toNat w put
      ∧ ∀ i, w i = ⟨leWord p (8 + 4 * i), BitVec.ofNat 4 (byteAt p (8 + 4 * byteAt p 4 + i / 2) / 16 ^ (i % 2))⟩ := by
  dsimp only
  unfold stateArrives
  rw [if_neg (by simp [ht]), if_neg (by simp [hf]), if_neg (by simp [hr])]
  refine ⟨_, _, rfl, ⟨fun u i => ?_, fun u i q hq hw htag hd => ?_⟩, fun _ => rfl⟩
  · split
    · next q hq =>
      split
      · next h => exact .inr ⟨q, hq, h.1, h.2.1, rfl⟩
      · exact .inl rfl
    · exact .inl rfl
  · rw [hq]
    exact if_pos ⟨hw, htag, hd⟩

theorem stateNoted_frame (v : Vol) (n t : Nat) : (stateNoted v n t).sram = v.sram ∧ (stateNoted v n t).cores = v.cores
    ∧ (stateNoted v n t).regs = v.regs ∧ (stateNoted v n t).yok.got = v.yok.got + n := by
  unfold stateNoted yokSendAt yokQueue
  extract_lets u
  split
  · split
    · exact ⟨rfl, rfl, rfl, rfl⟩
    · exact ⟨rfl, rfl, rfl, rfl⟩
  · exact ⟨rfl, rfl, rfl, rfl⟩

namespace PutsWords

variable {a : Nat} {w : Nat → TWord} {put : Vol → Nat → Vol}

theorem rest (h : PutsWords a w put) (u : Vol) (i : Nat) : (put u i).regs = u.regs ∧ (put u i).cores = u.cores
    ∧ (put u i).yok.got = u.yok.got ∧ ∀ d, domUp (put u i) d = domUp u d := by
  rcases h.cases u i with hp | ⟨q, -, -, -, hp⟩
  · rw [hp]
    exact ⟨rfl, rfl, rfl, fun _ => rfl⟩
  · rw [hp]
    exact ⟨rfl, rfl, rfl, fun _ => rfl⟩

theorem foldl_rest (h : PutsWords a w put) (l : List Nat) (u : Vol) : (l.foldl put u).regs = u.regs ∧ (l.foldl put u).cores = u.cores
    ∧ (l.foldl put u).yok.got = u.yok.got :=
  ⟨foldl_keeps (·.regs) put l (fun j _ x => (h.rest x j).1) u, foldl_keeps (·.cores) put l (fun j _ x => (h.rest x j).2.1) u,
    foldl_keeps (·.yok.got) put l (fun j _ x => (h.rest x j).2.2.1) u⟩

variable {i : Nat} {q : Place} (hq : place (a + 4 * i) = some q) (hw : q.win = .direct) (ht : q.tagged = true)
include hq hw ht

/-- The words lie apart: word j is written to the place of word i alone if it is word i. -/
theorem sramWord_put (h : PutsWords a w put) {u : Vol} (hd : domUp u q.dom = true) (j : Nat) :
    sramWord (put u j) q.key = if i = j then w i else sramWord u q.key := by
  by_cases hij : i = j
  · subst hij
    rw [if_pos rfl, h.hit u i q hq hw ht hd, sramWord_sramPut]
  · rw [if_neg hij]
    rcases h.cases u j with hp | ⟨q', hq', hw', ht', hp⟩
    · rw [hp]
    · rw [hp]
      refine sramWord_sramPut_ne u _ ?_
      rw [place_direct hq hw ht, place_direct hq' hw' ht']
      omega

theorem sramWord_foldl (h : PutsWords a w put) (l : List Nat) {u : Vol} (hd : domUp u q.dom = true) :
    sramWord (l.foldl put u) q.key = if i ∈ l then w i else sramWord u q.key := by
  induction l generalizing u with
  | nil => simp
  | cons j l ih =>
    obtain ⟨-, -, -, hdom⟩ := h.rest u j
    rw [List.foldl_cons, ih ((hdom q.dom).trans hd), sramWord_put hq hw ht h hd]
    by_cases hl : i ∈ l
    · simp [hl]
    · by_cases hj : i = j
      · simp [hj]
      · simp [hl, hj]

end PutsWords

/-! ### Frames that change nothing, or only the count -/

theorem frames_not_taken {s : State} (f : List Byte) (ht : takesFrames s.vol = false) {i : Instr}
    (hi : i ∈ [Instr.mark f, .snap f, .rply f, .nak f, .mbox f, .state f]) : exec i s = .next s := by
  have hn : (!takesFrames s.vol) = true := by simp [ht]
  have hkeep (act : Vol → List Byte → Vol) (h : act s.vol f = s.vol) : (.next (withVol s (act s.vol f)) : Out) = .next s := by
    rw [h]
  simp only [List.mem_cons, List.not_mem_nil, or_false] at hi
  rcases hi with rfl | rfl | rfl | rfl | rfl | rfl
  · exact hkeep markArrives (if_pos hn)
  · exact hkeep snapArrives (if_pos hn)
  · exact hkeep rplyArrives (if_pos hn)
  · exact hkeep nakArrives (if_pos hn)
  · exact hkeep mailArrives (if_pos hn)
  · exact hkeep stateArrives (if_pos hn)

section
variable {v : Vol} {f : List Byte} (ht : takesFrames v = true)
include ht

theorem markArrives_token (hk : v.yok.token = true) (hf : frameIs f 1 none = true) : markArrives v f = v := by
  rw [markArrives, if_neg (by simp [ht]), if_pos hk, if_pos hf]

theorem snapArrives_token (hk : v.yok.token = true) (hf : frameIs f 2 none = true) : snapArrives v f = v := by
  unfold snapArrives
  rw [if_neg (by simp [ht])]
  dsimp only
  rw [if_neg (by simp [hf]), if_pos hk]

theorem nakArrives_noToken (hk : v.yok.token = false) (hf : frameIs f 4 none = true) : nakArrives v f = v := by
  rw [nakArrives, if_neg (by simp [ht]), if_neg (by simp [hf]), if_pos (by simp [hk])]

theorem stateArrives_notJoining (hr : v.yok.role ≠ 3) (hf : frameIs f 6 none = true) : stateArrives v f = v := by
  rw [stateArrives, if_neg (by simp [ht]), if_neg (by simp [hf]), if_pos hr]

theorem rplyArrives_unsound (hf : frameIs f 3 none = false) : rplyArrives v f = frameDiscard v none := by
  rw [rplyArrives, if_neg (by simp [ht]), if_pos (by simp [hf])]

theorem nakArrives_unsound (hf : frameIs f 4 none = false) : nakArrives v f = frameDiscard v none := by
  rw [nakArrives, if_neg (by simp [ht]), if_pos (by simp [hf])]

theorem mailArrives_unsound (hf : frameIs f 5 none = false) : mailArrives v f = frameDiscard v none := by
  rw [mailArrives, if_neg (by simp [ht]), if_pos (by simp [hf])]

theorem stateArrives_unsound (hf : frameIs f 6 none = false) :
    stateArrives v f = frameDiscard v (some (128 + byteAt f 1 % 128)) := by
  rw [stateArrives, if_neg (by simp [ht]), if_pos (by simp [hf])]

end

theorem next_withVol {s : State} {u u' : Vol} (h : u = u') : (.next (withVol s u) : Out) = .next (withVol s u') := by rw [h]

theorem frameCounted_run (s : State) {c : Instr} {u : Vol} (hc : exec c s = .next (withVol s u)) (h : FrameCounted s.vol u) :
    ∃ t, exec c s = .next t ∧ rg t.vol (aYok 0x06C) = rg s.vol (aYok 0x06C) + 1 ∧ rb t.vol (aFault pYok) 0 = true ∧ t.nv = s.nv
      ∧ t.vol.sram = s.vol.sram ∧ t.vol.cores = s.vol.cores := by
  obtain ⟨h1, h2, h3, h4⟩ := h
  exact ⟨_, hc, h1, h2, rfl, h3, h4⟩

end Sys2Proof.Machine

namespace Sys2Proof

open Sys2Proof.Machine

/-- Settles O47: a clause for each frame, from the lemma that says what its arrival does. -/
theorem yokeDataFramesAct : Obligations.YokeDataFramesAct := by
  unfold Obligations.YokeDataFramesAct
  intro s f
  dsimp only
  refine ⟨fun ht i hi => frames_not_taken f ht hi, fun ht hk => ⟨fun hf => ?_, fun hf => ?_⟩, fun ht hk hf => ?_, fun ht hr hf => ?_,
    fun ht ha hf => ⟨fun h1 h3 => ?_, fun htw h => ?_⟩, fun ht => ⟨fun hk hf => ?mark, fun hf => ?_, fun hk hf => ⟨?snap, fun hopen => ?_⟩,
      fun hf => ?_, fun hr htw hf hn => ?_, fun hf => ?_, fun hk hf => ⟨fun g hn hg => ?nak, fun hn hg => ?_, fun e hn he => ?again,
        fun hn he => ?_⟩, fun hf => ?_, fun hf hb => ?_, fun hf hb => ?mbox, fun hf => ?_, fun hr hf => ?state, fun hf => ?_⟩⟩
  · exact next_withVol (markArrives_token ht hk hf)
  · exact next_withVol (snapArrives_token ht hk hf)
  · exact next_withVol (nakArrives_noToken ht hk hf)
  · exact next_withVol (stateArrives_notJoining ht hr hf)
  · exact next_withVol ((rplyArrives_alone ht hf ha).trans (relaysArrive_none s.vol h1 h3))
  · exact next_withVol ((rplyArrives_alone ht hf (.inr htw)).trans (relaysArrive_lost htw h))
  case mark =>
    obtain ⟨hmark, hsof, hno, htick, htake, hsram, hcores⟩ := markArrives_sound ht hk hf
    refine ⟨_, exec_mark s f, hmark, hsof, hno, fun h hrun hsrc => ?_, fun h => ?_, htake, rfl, hsram, hcores⟩
    · exact (congrArg Tick.next htick).trans (placeBoundary_next h hrun hsrc)
    · exact htick.trans (congrArg Vol.tick (placeBoundary_again h))
  · exact frameCounted_run s (exec_mark s f) (markArrives_counted ht hf)
  case snap =>
    refine ⟨_, exec_snap s f, ?_, rfl⟩
    show (snapArrives s.vol f).yok.snaps = _
    rw [snapArrives_sound ht hk hf]
    split
    · exact snapApply_snaps _ _ _
    · rfl
  · refine next_withVol ((snapArrives_sound ht hk hf).trans (if_neg ?_))
    simp [hopen]
  · exact frameCounted_run s (exec_snap s f) (snapArrives_counted ht hf)
  · obtain ⟨h1, h2, h3, h4⟩ := rplyArrives_lead ht hr htw hf hn
    exact ⟨_, exec_rply s f, h1, h2, h3, rfl, h4⟩
  · exact next_withVol (rplyArrives_unsound ht hf)
  case nak =>
    have hact := nakArrives_named ht hk hf hn
    rw [show s.vol.yok.out.find? (nakNames (byteAt f 1)) = some g from hg] at hact
    split
    · next hc => exact ⟨next_withVol (hact.trans (if_pos hc)), _, rfl⟩
    · next hc => exact next_withVol (hact.trans (if_neg hc))
  · have hact := nakArrives_named ht hk hf hn
    rw [show s.vol.yok.out.find? (nakNames (byteAt f 1)) = none from hg] at hact
    exact next_withVol hact
  case again =>
    have hact := nakArrives_state ht hk hf hn
    rw [he] at hact
    refine ⟨_, (exec_nak s f).trans (next_withVol hact), fun a ha => ?_, fun a ha => ?_, rfl, rfl, rfl⟩
    · exact (smapGet_foldl_mark e.2.1 s.vol.yok.dirty a).trans (if_pos ha)
    · exact (smapGet_foldl_mark e.2.1 s.vol.yok.dirty a).trans (if_neg ha)
  · have hact := nakArrives_state ht hk hf hn
    rw [he] at hact
    exact next_withVol hact
  · exact next_withVol (nakArrives_unsound ht hf)
  · exact next_withVol ((mailArrives_sound ht hf).1 hb)
  case mbox =>
    obtain ⟨hpost, hfull, hring, hdone, hback⟩ := (mailArrives_sound ht hf).2 hb
    refine ⟨fun h => next_withVol (hring h), fun h => next_withVol (hdone h), fun h => next_withVol (hback h), fun h hb' => ?_,
      fun h hb' => next_withVol (hfull h hb')⟩
    obtain ⟨hsram, hyok⟩ := mailWords_rest s.vol (payloadOf f)
    exact ⟨mailWords s.vol (payloadOf f), next_withVol (hpost h hb'), fun i hi => mailWords_word s.vol (payloadOf f) hi, hsram, hyok⟩
  · exact next_withVol (mailArrives_unsound ht hf)
  case state =>
    obtain ⟨put, w, hact, hputs, hword⟩ := stateArrives_sound ht hr hf
    obtain ⟨hsram, hcores, hregs, hgot⟩ := stateNoted_frame ((List.range (byteAt (payloadOf f) 4)).foldl put s.vol)
      (byteAt (payloadOf f) 4) (frameTick f)
    obtain ⟨kregs, kcores, kgot⟩ := hputs.foldl_rest (List.range (byteAt (payloadOf f) 4)) s.vol
    refine ⟨_, (exec_state s f).trans (next_withVol hact), hgot.trans (by rw [kgot]), hcores.trans kcores, hregs.trans kregs,
      fun i q hi hq hw htag hd => ?_⟩
    rw [← hword i]
    refine (congrArg (fun m => smapGet sramBlank m q.key) hsram).trans ?_
    exact (hputs.sramWord_foldl hq hw htag _ hd).trans (if_pos (List.mem_range.mpr hi))
  · exact next_withVol (stateArrives_unsound ht hf)

end Sys2Proof
end

section
/-! SUPPORT. The end of DROP, the release of the cores and the loss of the source (R41, R43, R52). -/

namespace Sys2Proof.Machine

theorem yokReleases_none {v : Vol} (h : v.yok.relAt = none) : yokReleases v = v := by
  rw [yokReleases, h]

/-! ### DROP ends -/

theorem dropDone_eq {v : Vol} (hr : v.yok.relAt = none) (hd : v.tick.inDrop = true) (hs : v.yok.noSnap = false) :
    dropDone v = raiseEvent (setTick { v with now := max v.now v.tick.dropEnd } fun t =>
      { t with inDrop := false, release := max v.now v.tick.dropEnd + 3 }) pTick 1 := by
  have hends : dropEnds v = raiseEvent (setTick { v with now := max v.now v.tick.dropEnd } fun t =>
      { t with inDrop := false, release := max v.now v.tick.dropEnd + 3 }) pTick 1 := if_neg (by simp [hd])
  have hyok : (dropEnds v).yok = v.yok := by rw [hends, raiseEvent_yok]; rfl
  have hgiven : snapGivenUp (dropEnds v) = dropEnds v := if_pos (by simp [hyok, hs])
  rw [dropDone, if_pos hd, hgiven, yokReleases_none (by rw [hyok]; exact hr), hends]

/-! ### The release -/

/-- INVREL (R177) invalidates the BTB entries of a core, which leaves its waits. -/
theorem invRel_onCore (v : Vol) (k : Nat) : ∃ f : Core → Core, invRel v k = onCore v k f := by
  unfold invRel
  split
  · exact ⟨_, rfl⟩
  · exact ⟨id, (setCore_self v k).symm⟩

/-- The wake of a core that waits for the tick. -/
def woken (c : Core) : Core := if c.wait == .wft then { c with wait := .none, last := none } else c

theorem woken_wait (c : Core) : (woken c).wait ≠ .wft := by
  unfold woken
  split
  · simp
  · next h => simpa using h

/-- A core that neither starts afresh nor enters a handler is released by changes of its own state, and waits for the tick no more. -/
theorem releaseCore_wakes {v : Vol} {k : Nat} (hup : coreUp v k = true) (hr : v.tick.restart = 0) (he : v.tick.enter = 0) :
    ∃ f : Core → Core, releaseCore v k = onCore v k f ∧ ∀ c, (f c).wait ≠ .wft := by
  obtain ⟨f, hf⟩ := invRel_onCore v k
  have hwake : onCore (invRel v k) k woken = onCore v k fun c => woken (f c) := by rw [hf, onCore_onCore]
  have hover : onCore (onCore (invRel v k) k woken) k (fun c => { c with ovr := false })
      = onCore v k fun c => { woken (f c) with ovr := false } := by rw [hwake, onCore_onCore]
  unfold releaseCore
  dsimp only
  rw [if_neg (by simp [hup]), if_neg (by simp [hr])]
  show ∃ f' : Core → Core, (if (coreOf (onCore (invRel v k) k woken) k).dfHalt then onCore (invRel v k) k woken
    else if ctlBit (onCore (invRel v k) k woken) k 5 then onCore (onCore (invRel v k) k woken) k fun c => { c with ovr := false }
    else if v.tick.enter.getLsbD k then _
    else if v.tick.resume.getLsbD k then onCore (onCore (invRel v k) k woken) k fun c => { c with ovr := false }
    else onCore (invRel v k) k woken) = onCore v k f' ∧ ∀ c, (f' c).wait ≠ .wft
  rw [if_neg (c := v.tick.enter.getLsbD k) (by simp [he]), hover, hwake]
  split
  · exact ⟨_, rfl, fun c => woken_wait (f c)⟩
  split
  · exact ⟨_, rfl, fun c => woken_wait (f c)⟩
  split
  · exact ⟨_, rfl, fun c => woken_wait (f c)⟩
  · exact ⟨_, rfl, fun c => woken_wait (f c)⟩

/-- The part with other cores, none of those released so far waiting for the tick. -/
def Released (v u : Vol) (l : List Nat) : Prop :=
  ∃ cs, u = { v with cores := cs } ∧ cs.length = v.cores.length ∧ ∀ k ∈ l, k < v.cores.length → coreUp v k = true → (coreOf u k).wait ≠ .wft

theorem released_step {v u : Vol} {l : List Nat} {k : Nat} (h : Released v u l) (hr : v.tick.restart = 0) (he : v.tick.enter = 0) :
    Released v (releaseCore u k) (l ++ [k]) := by
  obtain ⟨cs, rfl, hlen, hdone⟩ := h
  have hother (w : Vol) (hw : ∀ j, j ≠ k → coreOf w j = coreOf { v with cores := cs } j)
      (hk : k < v.cores.length → coreUp v k = true → (coreOf w k).wait ≠ .wft) :
      ∀ j ∈ l ++ [k], j < v.cores.length → coreUp v j = true → (coreOf w j).wait ≠ .wft := by
    intro j hj hlt hup
    by_cases hjk : j = k
    · subst hjk
      exact hk hlt hup
    · rw [hw j hjk]
      exact hdone j (by simpa [hjk] using hj) hlt hup
  by_cases hup : coreUp v k = true
  · obtain ⟨f, hf, hwait⟩ := releaseCore_wakes (v := { v with cores := cs }) (k := k) hup hr he
    rw [hf]
    refine ⟨_, rfl, (List.length_set ..).trans hlen, hother _ (fun j hj => coreOf_onCore_ne _ _ hj) fun hlt _ => ?_⟩
    rw [coreOf_onCore _ _ _ (by simpa [hlen] using hlt)]
    exact hwait _
  · have hskip : releaseCore { v with cores := cs } k = { v with cores := cs } := by
      refine if_pos ?_
      rw [show coreUp { v with cores := cs } k = coreUp v k from rfl]
      simpa using hup
    rw [hskip]
    exact ⟨cs, rfl, hlen, hother _ (fun _ _ => rfl) fun _ h => absurd h hup⟩

theorem released_foldl {v : Vol} (hr : v.tick.restart = 0) (he : v.tick.enter = 0) (n : Nat) :
    Released v ((List.range n).foldl releaseCore v) (List.range n) := by
  induction n with
  | zero => exact ⟨v.cores, rfl, rfl, fun k hk => absurd hk List.not_mem_nil⟩
  | succ n ih =>
    rw [List.range_succ, List.foldl_append, List.foldl_cons, List.foldl_nil]
    exact released_step ih hr he

/-- The instant of the release: the control cores are about to be released. -/
def releasing (v : Vol) : Vol := setTick { v with now := max v.now v.tick.release } fun t => { t with released := true }

theorem releaseCores_eq {v : Vol} (hrel : v.yok.relAt = none) (hd : v.tick.inDrop = false) (hr : v.tick.released = false)
    (hh : v.tick.had = true) (hm : v.sys.mode ≠ .safe) (hp : tickPaused v = false) :
    releaseCores v = setTick ((List.range 8).foldl releaseCore (releasing v)) fun t =>
      { t with enter := t.enter &&& 0, resume := t.resume &&& 0, restart := t.restart &&& 0 } := by
  obtain ⟨hpause, hat⟩ := Bool.or_eq_false_iff.mp hp
  have hnone : yokReleases { v with now := max v.now v.tick.release } = { v with now := max v.now v.tick.release } :=
    yokReleases_none hrel
  unfold releaseCores
  rw [if_neg (by simp [hd, hr, hh])]
  dsimp only
  rw [hnone, if_neg (by simpa [setTick, hat] using hm), show (setTick { v with now := max v.now v.tick.release } fun t =>
    { t with released := true }).yok.pause = false from hpause]
  simp only [Bool.false_eq_true, if_false]
  rfl

theorem releaseCores_spec {v : Vol} (hrel : v.yok.relAt = none) (hd : v.tick.inDrop = false) (hr : v.tick.released = false)
    (hh : v.tick.had = true) (hm : v.sys.mode ≠ .safe) (hp : tickPaused v = false) (hrs : v.tick.restart = 0) (he : v.tick.enter = 0)
    (hlen : v.cores.length = 9) : (releaseCores v).tick.released = true ∧ (releaseCores v).sram = v.sram
      ∧ ∀ k, k < 8 → coreUp v k = true → (coreOf (releaseCores v) k).wait ≠ .wft := by
  obtain ⟨cs, hcs, -, hwait⟩ := released_foldl (v := releasing v) hrs he 8
  rw [releaseCores_eq hrel hd hr hh hm hp]
  refine ⟨?_, ?_, fun k hk hup => hwait k (List.mem_range.mpr hk) ?_ (ready_later v v.outs (pCore k) (le_max_left _ _) hup)⟩
  · rw [hcs]; rfl
  · rw [hcs]; rfl
  · show k < v.cores.length
    omega

/-! ### The source is lost -/

/-- What the loss of the source at cycle n leaves (R52). -/
theorem sourceLoss_spec (v : Vol) (n : Nat) : let u := sourceLoss { v with now := n }
    u.now = n ∧ u.tick.next = (if v.tick.first then v.tick.next else max (v.tick.boundary + taf v 0x044 18 0) (n + 1))
      ∧ tickSource u = 0 ∧ rb u (aFault pTick) 16 = true ∧ rb u (aStat pTick) 1 = false
      ∧ (rb v (aEvEn pTick) 3 = true → rb u (aEvPend pTick) 3 = true) ∧ u.sram = v.sram ∧ u.cores = v.cores :=
  ⟨sourceLoss_now _, by rw [sourceLoss_tick]; rfl, tickSource_sourceLoss _, sourceLoss_fault _, (sourceLoss_stat _).2,
    fun h => sourceLoss_event { v with now := n } h, sourceLoss_sram _, sourceLoss_cores _⟩

section
variable {v : Vol} (hrdy : ready v pTick = true) (hrun : v.tick.running = true)
include hrdy hrun

theorem sourceLost_ptp (h : tickSource v = 1) (hs : rb v (aStat pPtp) 0 = false) : sourceLost v = sourceLoss { v with now := v.now } := by
  rw [sourceLost, if_neg (by simp [hrdy, hrun]), h]
  exact if_neg (by simp [hs])

theorem sourceLost_yoke (h : markMissing v = true) : sourceLost v = sourceLoss { v with now := max v.now v.tick.next } := by
  have hsrc : tickSource v = 2 := by
    simp only [markMissing, Bool.and_eq_true, beq_iff_eq] at h
    exact h.1.1
  rw [sourceLost, if_neg (by simp [hrdy, hrun]), hsrc]
  exact if_pos h

theorem sourceLost_mains (h : tickSource v = 3) : sourceLost v = sourceLoss { v with now := max v.now (mainsDeadline v) } := by
  rw [sourceLost, if_neg (by simp [hrdy, hrun]), h]
  rfl

theorem sourceLost_kept (h1 : ¬ (tickSource v = 1 ∧ rb v (aStat pPtp) 0 = false)) (h2 : markMissing v = false) (h3 : tickSource v ≠ 3) :
    sourceLost v = v := by
  rw [sourceLost, if_neg (by simp [hrdy, hrun])]
  split
  · next hsrc => exact if_pos (by simpa [hsrc] using h1)
  · exact if_neg (by simp [h2])
  · next hsrc => exact absurd hsrc h3
  · rfl

end

end Sys2Proof.Machine
end

section
/-! SUPPORT. What the parts of a boundary leave of the tick's course: each part of `boundary` but the few that open the tick keeps it. -/

namespace Sys2Proof.Machine

/-- The part of the generator's state that the course of a tick shows. -/
def courseOf (t : Tick) : Bool × Bool × Bool × BitVec 64 × Nat × Bool × Bool × SMap Nat :=
  (t.running, t.stopReq, t.had, t.number, t.boundary, t.inDrop, t.released, t.commits)

/-- The time and the tick's course stand, a part alone stays alone, and what was not due does not become due. -/
structure Steady (v v' : Vol) : Prop where
  now : v'.now = v.now
  course : courseOf v'.tick = courseOf v.tick
  alone : v.yok.role = 0 → v'.yok.role = 0
  idle : NothingDue v → NothingDue v'

/-- Every register. -/
def AnyReg (_ : Nat) : Prop := True

namespace Steady

variable {v v' v'' : Vol}

theorem refl (v : Vol) : Steady v v := ⟨rfl, rfl, id, id⟩

theorem trans (h : Steady v v') (h' : Steady v' v'') : Steady v v'' :=
  ⟨h'.now.trans h.now, h'.course.trans h.course, fun hr => h'.alone (h.alone hr), fun hi => h'.idle (h.idle hi)⟩

theorem of_touches {W : Nat → Prop} (h : Touches W v v') : Steady v v' where
  now := h.now
  course := by rw [h.tick]
  alone hr := by rw [h.yok]; exact hr
  idle hi := by rw [NothingDue, h.sys, h.lks]; exact hi

theorem of_safe (h : SafeKeeps v v') : Steady v v' := ⟨h.now, by rw [h.tick], h.alone, h.idle⟩

theorem ite {c : Prop} [Decidable c] {a b : Vol} (ha : Steady v a) (hb : Steady v b) : Steady v (if c then a else b) := by
  split
  · exact ha
  · exact hb

theorem foldl {β : Type} (f : Vol → β → Vol) (h : ∀ v x, Steady v (f v x)) (l : List β) (v : Vol) : Steady v (l.foldl f v) := by
  induction l generalizing v with
  | nil => exact .refl v
  | cons x l ih => exact (h v x).trans (ih (f v x))

theorem foldl_fst {β γ : Type} (f : Vol × γ → β → Vol × γ) (h : ∀ r x, Steady r.1 (f r x).1) (l : List β) (r : Vol × γ) :
    Steady r.1 (l.foldl f r).1 := by
  induction l generalizing r with
  | nil => exact .refl r.1
  | cons x l ih => exact (h r x).trans (ih (f r x))

theorem rgSet (v : Vol) (a : Nat) (w : Word) : Steady v (rgSet v a w) := ⟨rfl, rfl, id, id⟩
theorem raiseEvent (v : Vol) (p i : Nat) : Steady v (raiseEvent v p i) := of_touches (touches_raiseEvent (W := AnyReg) v i trivial)
theorem raiseIf (c : Bool) (v : Vol) (p i : Nat) : Steady v (raiseIf c v p i) := of_touches (touches_raiseIf (W := AnyReg) c v i trivial)
theorem rbSet (v : Vol) (a i : Nat) (b : Bool) : Steady v (rbSet v a i b) := of_touches (touches_rbSet (W := AnyReg) v i b trivial)
theorem setMea (v : Vol) (b : Nat) (m : Mea) : Steady v (setMea v b m) := ⟨rfl, rfl, id, id⟩
theorem rgIncSat (v : Vol) (a w : Nat) : Steady v (rgIncSat v a w) := .ite (.refl v) (rgSet v _ _)

end Steady

/-! ### Yoke before the boundary's own actions -/

theorem verdictActs_steady (v : Vol) : Steady v (verdictActs v) := by
  have hst : Steady v (setYok v fun y => { y with st := 0 }) := ⟨rfl, rfl, id, id⟩
  unfold verdictActs
  extract_lets own twin lead u
  refine hst.trans ?_
  split
  · exact .raiseEvent u _ _
  split
  · cases lead <;> exact ⟨rfl, rfl, id, id⟩
  split
  · cases lead <;> exact ⟨rfl, rfl, id, id⟩
  · exact ⟨rfl, rfl, id, id⟩

theorem formVerdict_steady (v : Vol) : Steady v (formVerdict v) := ⟨rfl, rfl, id, id⟩

/-- A part alone neither takes over nor attaches as its boundary comes. -/
theorem yokDecide_steady {v : Vol} (h : v.yok.role = 0) : Steady v (yokDecide v) := by
  unfold yokDecide
  extract_lets st heard kept m r compared
  split
  · exact .refl v
  have hheard : Steady v heard := ⟨rfl, rfl, id, id⟩
  have hrole : heard.yok.role = 0 := h
  have hkept : kept = heard := (if_neg (by simp [hrole])).trans (if_neg (by simp [hrole]))
  have hcompared : compared = kept := if_neg (by simp [hkept, hrole])
  rw [hcompared, hkept]
  refine hheard.trans ?_
  split
  · exact .refl heard
  split
  · exact verdictActs_steady heard
  split
  · exact formVerdict_steady heard
  · exact .refl heard

/-! ### Measurements and outputs -/

theorem meaLatchChan_steady (b : Nat) (v : Vol) (i : Nat) (r : MeaRes) : Steady v (meaLatchChan b v i r) := by
  unfold meaLatchChan
  extract_lets a v1 st v2 v3 v4 v5 v6 m was b8 v7
  have h5 : Steady v v5 := ⟨rfl, rfl, id, id⟩
  exact ((h5.trans (.ite (.rgIncSat v5 _ _) (.refl v5))).trans (.setMea v6 b _)).trans (.raiseIf _ v7 _ _)

theorem meaLatch_steady (v : Vol) (b mask : Nat) : Steady v (meaLatch v b mask) := by
  unfold meaLatch
  dsimp only
  split
  · exact .refl v
  · refine Steady.trans ?_ (.foldl _ (fun u (r : MeaRes × Nat) => meaLatchChan_steady b u r.2 r.1) _ _)
    exact ⟨rfl, rfl, id, id⟩

theorem touches_any_of {W : Nat → Prop} {v v' : Vol} (h : Touches W v v') : Touches AnyReg v v' := h.mono fun _ _ => trivial

theorem any_rgSet (v : Vol) (a : Nat) (w : Word) : Touches AnyReg v (rgSet v a w) := touches_rgSet v w trivial
theorem any_rbSet (v : Vol) (a i : Nat) (b : Bool) : Touches AnyReg v (rbSet v a i b) := touches_rbSet v i b trivial
theorem any_raiseEvent (v : Vol) (p i : Nat) : Touches AnyReg v (raiseEvent v p i) := touches_raiseEvent v i trivial
theorem any_setFault (v : Vol) (p i : Nat) : Touches AnyReg v (setFault v p i) := touches_setFault v i trivial

theorem gioLatch_touches (v : Vol) : Touches AnyReg v (gioLatch v) := by
  unfold gioLatch
  split
  · exact .refl _ v
  · exact ((touches_any_of (gioSettle_touches v _)).trans (touches_putPair _ _ trivial trivial)).trans
      (touches_foldl _ _ (fun k _ u => touches_ite (any_rgSet u _ _) (.refl _ u)) _)

theorem channelEvent_touches (v : Vol) (i : Nat) : Touches AnyReg v (channelEvent v i) := by
  unfold channelEvent
  split
  · exact touches_ite (.refl _ v) ((any_rbSet v _ _ _).trans (any_raiseEvent _ _ _))
  · exact touches_ite (any_raiseEvent v _ _) (any_raiseEvent v _ _)

theorem checkWord_touches (v : Vol) (i : Nat) : Touches AnyReg v (checkWord v i) := by
  unfold checkWord
  extract_lets w bad o noted told
  have hnoted : Touches AnyReg v noted := touches_outs v _
  exact (hnoted.trans (touches_ite (any_setFault noted _ _) (.refl _ noted))).trans (touches_ite (channelEvent_touches told i) (.refl _ told))

theorem copyWord_touches (owners : Nat → Nat) (v : Vol) (i : Nat) : Touches AnyReg v (copyWord owners v i).1 := by
  unfold copyWord
  split
  · exact (touches_outs v _).trans (checkWord_touches _ i)
  · exact .refl _ v

theorem fireConvert_touches (v : Vol) (c : Nat) : Touches AnyReg v (fireConvert v c) := by
  unfold fireConvert
  extract_lets d u
  exact (any_rgSet v _ _).trans (touches_ite (any_rbSet u _ _ _) (.refl _ u))

theorem stkBoundary_touches (v : Vol) (changed : List Nat) (old : SMap Word) : Touches AnyReg v (stkBoundary v changed old) := by
  have hcheck (u : Vol) (c : Nat) : Touches AnyReg u (if (actOf u c).isPoison then u
      else if wordOk u c (actOf u c) then { u with outs := { u.outs with bad := smapSet noErr u.outs.bad c 0 } }
      else if isBad u c then u else checkWord u c) :=
    touches_ite (.refl _ u) (touches_ite (touches_outs u _) (touches_ite (.refl _ u) (checkWord_touches u c)))
  unfold stkBoundary
  split
  · exact .refl _ v
  · refine ((touches_foldl _ _ (fun c _ u => ?_) v).trans (any_rgSet _ _ 0)).trans (touches_outs _ _)
    extract_lets vn conv o checked
    have hchecked : Touches AnyReg u checked := touches_ite (hcheck u c) (.refl _ u)
    exact hchecked.trans (touches_ite (fireConvert_touches checked c) (touches_ite (any_rgSet checked _ _) (.refl _ checked)))

theorem motBoundary_touches (v : Vol) {m : Nat} (hm : m < 8) : Touches AnyReg v (motBoundary v m) := by
  unfold motBoundary
  split
  · exact .refl _ v
  · extract_lets told u
    have htold : Touches AnyReg v told := touches_ite (.refl _ v) ((any_setFault v _ _).trans (any_raiseEvent _ _ _))
    have hlatch : Touches AnyReg told (motLatch told m told.now) := by
      unfold motLatch
      exact touches_outs told _
    have hu : Touches AnyReg v u := touches_ite (htold.trans hlatch) (.refl _ v)
    exact hu.trans (touches_any_of (motShow_touches u hm))

theorem touches_foldl_fst {β γ : Type} {W : Nat → Prop} (f : Vol × γ → β → Vol × γ) (h : ∀ r x, Touches W r.1 (f r x).1) (l : List β)
    (r : Vol × γ) : Touches W r.1 (l.foldl f r).1 := by
  induction l generalizing r with
  | nil => exact .refl W r.1
  | cons x l ih => exact (h r x).trans (ih (f r x))

theorem outBoundary_touches (v : Vol) : Touches AnyReg v (outBoundary v) := by
  unfold outBoundary
  extract_lets latched owner owners by' oldForce o forced safe step copied out stk o' held moved cleared
  have hforced : Touches AnyReg v forced := (gioLatch_touches v).trans (touches_outs latched _)
  have hcopied : Touches AnyReg forced copied.1 := by
    unfold copied
    split
    · exact .refl _ forced
    · exact touches_foldl_fst step (fun r i => copyWord_touches by' r.1 i) outWords (forced, [])
  have hheld : Touches AnyReg copied.1 held := (stkBoundary_touches out _ oldForce).trans (touches_outs stk _)
  have hmoved : Touches AnyReg held moved :=
    touches_foldl _ _ (fun m hm u => motBoundary_touches u (List.mem_range.mp hm)) held
  have hcleared := touches_foldl (W := AnyReg) (fun u k => if cleared k then
    { u with outs := { u.outs with flow := smapSet (fun _ => 0) u.outs.flow k 0 } } else u) (List.range 48)
    (fun k _ u => touches_ite (touches_outs u _) (.refl _ u)) moved
  exact ((hforced.trans hcopied).trans (hheld.trans hmoved)).trans (hcleared.trans (touches_any_of (outApply_touches _)))

/-! ### The account of the tick that ends, and the overrun -/

theorem kerfAccount_steady (v : Vol) (len k : Nat) : Steady v (kerfAccount v len k) := by
  unfold kerfAccount
  extract_lets src
  split
  · exact .rgSet v _ _
  · extract_lets use used most at' ok warn
    have hused : Steady v used := .rgSet v _ _
    have hmost : Steady used most := .ite (.rgSet used _ _) (.refl used)
    have hat : Steady most at' := .rgSet most _ _
    have hok : Steady at' ok := .ite (.refl at') (.rgSet at' _ _)
    exact ((hused.trans hmost).trans (hat.trans hok)).trans (.raiseIf _ ok _ _)

theorem discardPending_touches (v : Vol) (k : Nat) : Touches AnyReg v (discardPending v k) :=
  touches_foldl _ _ (fun _ _ u => touches_ite (touches_outs u _) (.refl _ u)) v

theorem overrun_steady (v : Vol) (k : Nat) : Steady v (overrun v k) := by
  unfold overrun
  extract_lets gone told counted c b ovr
  have htold : Steady v told := (Steady.of_touches (discardPending_touches v k)).trans ⟨rfl, rfl, id, id⟩
  have hcounted : Steady told counted := (Steady.raiseEvent told _ _).trans (.rgIncSat _ _ _)
  refine (htold.trans hcounted).trans ?_
  split
  · exact .refl counted
  · refine Steady.trans ⟨rfl, rfl, id, id⟩ (v' := ovr) ⟨rfl, ?_, id, id⟩
    show courseOf (if xActive c then _ else _) = courseOf ovr.tick
    split <;> rfl

theorem kerfCheck_steady (v : Vol) (len : Nat) (check : Bool) : Steady v (kerfCheck v len check).1 := by
  unfold kerfCheck
  extract_lets step r
  have hstep (a : Vol × Bool) (k : Nat) : Steady a.1 (step a k).1 := by
    unfold step
    extract_lets acc marked
    have hacc : Steady a.1 acc := kerfAccount_steady a.1 len k
    split
    · exact hacc.trans (overrun_steady acc k)
    · exact hacc
  exact (Steady.foldl_fst step hstep (List.range 8) (v, false)).trans (.raiseIf _ _ _ _)

end Sys2Proof.Machine
end

section
/-! SUPPORT. What the hand of a Tally source to its route, an apply, the length of the next tick and the actions of Yoke leave of the
tick's course. -/

namespace Sys2Proof.Machine

/-! ### An overrun limit reached -/

theorem talTrace_steady (v : Vol) (n : Nat) : Steady v (talTrace v n) := by
  unfold talTrace
  extract_lets p c e o noted first second wrap
  split
  · exact .refl v
  split
  · exact .of_touches (any_setFault v _ _)
  · have hnoted : Steady v noted := ⟨rfl, rfl, id, id⟩
    have hfirst : Steady noted first := .rgSet noted _ _
    have hsecond : Steady first second := .rgSet first _ _
    exact ((hnoted.trans hfirst).trans hsecond).trans (.rgSet second _ _)

theorem bankedWake_steady (v : Vol) (n : Nat) : Steady v (bankedWake v n) := by
  unfold bankedWake seqPlls
  split
  · exact .refl v
  · dsimp only
    split
    · exact ⟨rfl, rfl, id, id⟩
    · exact ⟨rfl, rfl, id, id⟩

theorem safeCause_steady (v : Vol) (n : Nat) : Steady v (safeCause v n) := .ite (.refl v) (.rgSet v _ _)

theorem relaySend_steady (v : Vol) (n : Nat) : Steady v (relaySend v n) :=
  .ite (.of_touches (any_setFault v _ _)) ⟨rfl, rfl, id, id⟩

theorem enterSafe_steady (v : Vol) : Steady v (enterSafe v) := .of_safe (enterSafe_keeps v)

theorem tallyHand_steady (v : Vol) (n : Nat) : Steady v (tallyHand v n) := by
  unfold tallyHand
  extract_lets o handed traced woken cause back
  split
  · exact .refl v
  have hhanded : Steady v handed := ⟨rfl, rfl, id, id⟩
  have htraced : Steady handed traced := talTrace_steady handed n
  have hwoken : Steady traced woken := .ite (bankedWake_steady traced n) (.refl traced)
  refine (hhanded.trans htraced).trans (hwoken.trans ?_)
  split
  · have hcause : Steady woken cause := safeCause_steady woken n
    have hback : Steady cause back := .ite (bankedWake_steady cause n) (.refl cause)
    exact (hcause.trans hback).trans (enterSafe_steady back)
  · exact .ite (relaySend_steady woken n) (.refl woken)

theorem overLimitSafe_steady (v : Vol) : Steady v (overLimitSafe v) :=
  (tallyHand_steady v 39).trans (.ite (.refl _) ((safeCause_steady _ 39).trans (enterSafe_steady _)))

/-! ### An apply, and the length of the next tick -/

theorem applyCheck_steady (v : Vol) : Steady v (applyCheck v) := by
  unfold applyCheck
  extract_lets cleared get old o taken kept sel other armed
  have hcleared : Steady v cleared := ⟨rfl, rfl, id, id⟩
  refine hcleared.trans ?_
  split
  · have hkept : Steady cleared kept := ⟨rfl, rfl, id, id⟩
    have harmed : Steady kept armed := .ite ⟨rfl, rfl, id, id⟩ (.refl kept)
    exact (hkept.trans harmed).trans (.raiseEvent armed _ _)
  · exact (Steady.of_touches (any_setFault cleared _ _)).trans (.raiseEvent _ _ _)

theorem sourceLoss_steady (v : Vol) : Steady v (sourceLoss v) :=
  Steady.trans (v' := sourceGone v) ⟨rfl, rfl, id, id⟩ (.of_touches (sourceLoss_touches v))

/-- STAT.LOCKED sets with event 4, once (R50). -/
def lockNoted (v : Vol) : Vol := if rb v (aStat pTick) 1 then v else raiseEvent (rgOr v (aStat pTick) 2) pTick 4

theorem lockNoted_steady (v : Vol) : Steady v (lockNoted v) :=
  .ite (.refl v) ((Steady.rgSet v _ _).trans (.raiseEvent _ _ _))

theorem ptpLength_steady (v : Vol) : Steady v (ptpLength v).1 := by
  unfold ptpLength
  extract_lets x err shown near n phased locked slew len
  have hphased : Steady v phased := ⟨rfl, rfl, id, id⟩
  exact hphased.trans (.ite (lockNoted_steady phased) (.ite (.refl phased) (.rgSet phased _ _)))

theorem mainsLength_steady (v : Vol) : Steady v (mainsLength v).1 := by
  unfold mainsLength
  split
  · extract_lets long len
    split
    · exact .refl v
    · exact ⟨rfl, rfl, id, id⟩
  · split
    · exact .refl v
    · extract_lets n e lim e' total base rem shown near locked top
      have hlocked : Steady v locked :=
        (Steady.rgSet v _ _).trans (.ite (lockNoted_steady shown) (.rgSet shown _ _))
      split
      · exact hlocked
      · exact hlocked.trans ⟨rfl, rfl, id, id⟩

theorem tickLength_steady (v : Vol) : Steady v (tickLength v).1 := by
  unfold tickLength
  split
  · exact .refl v
  dsimp only
  split
  · exact ptpLength_steady v
  · exact .refl v
  · have hm := mainsLength_steady v
    split
    · next h => rw [h] at hm; exact hm
    · next h =>
      rw [h] at hm
      exact hm.trans (sourceLoss_steady _)
  · exact .refl v

/-! ### Yoke's own actions at the boundary of a part alone -/

theorem yokSend_steady (v : Vol) (typ sub : Nat) (p : List Byte) : Steady v (yokSend v typ sub p) :=
  .ite ⟨rfl, rfl, id, id⟩ (.refl v)

theorem sendMail_steady (v : Vol) : Steady v (sendMail v) :=
  (Steady.foldl _ (fun u p => yokSend_steady u 5 0 p) _ v).trans ⟨rfl, rfl, id, id⟩

/-- At the boundary of a part alone Yoke sends what a holder of the token sends, and nothing of an attach ends (R404, R416). -/
theorem yokBoundary_steady {v : Vol} (h : v.yok.role = 0) : Steady v (yokBoundary v) := by
  unfold yokBoundary
  extract_lets digest hand noted resumed joined due shadowed marked snapped ends ended mail mailed answered cleared sent tx last
  split
  · exact .refl v
  have hresumed : Steady v resumed :=
    Steady.trans (v' := noted) ⟨rfl, rfl, id, id⟩ (.ite ⟨rfl, rfl, id, id⟩ (.refl noted))
  have hrole : resumed.yok.role = 0 := hresumed.alone h
  have hjoined : joined = resumed := if_neg (by simp [hrole])
  have hshadowed : shadowed = resumed := (if_neg (by simp [hjoined, hrole])).trans hjoined
  have hsteady : Steady resumed shadowed := by
    rw [hshadowed]
    exact .refl resumed
  have hsnapped : Steady shadowed snapped :=
    (yokSend_steady shadowed 1 0 _).trans (.foldl _ (fun u s => yokSend_steady u 2 s _) _ marked)
  have hrole' : snapped.yok.role = 0 := hsnapped.alone (hsteady.alone hrole)
  have hends : ends = false := by simp [ends, cutEnds, hrole']
  have hended : ended = snapped := if_neg (by simp [hends])
  have hmailed : Steady shadowed mailed := by
    refine hsnapped.trans ?_
    unfold mailed
    rw [hended]
    exact .ite (sendMail_steady snapped) (.refl snapped)
  have hnotLead : ¬ (2 ≤ mailed.yok.attPh ∧ mailed.yok.role = 1) := by
    simp [hmailed.alone (hsteady.alone hrole)]
  have hsent : Steady shadowed sent := by
    unfold sent
    rw [if_neg (c := ends = true) (by simp [hends]), if_neg hnotLead, if_neg (c := shadowed.yok.role = 2) (by simp [hshadowed, hrole])]
    exact .ite hmailed (.refl shadowed)
  have hhand : ¬ hand = true := by
    have : digest.yok.role = 0 := h
    simp [hand, this]
  rw [if_neg hhand]
  exact (hresumed.trans hsteady).trans (hsent.trans ⟨rfl, rfl, id, id⟩)

theorem attachFails_steady (v : Vol) : Steady v (attachFails v) := by
  unfold attachFails
  extract_lets joiner ended
  have hended : Steady v ended := by
    refine ⟨rfl, rfl, fun h => ?_, id⟩
    show (if joiner then 0 else v.yok.role) = 0
    rw [h, ite_self]
  exact (hended.trans (.ite (.rgSet ended _ _) (.refl ended))).trans
    ((Steady.of_touches (any_setFault _ _ _)).trans (.raiseEvent _ _ _))

theorem mbxAbortOne_steady (v : Vol) (m : Nat) : Steady v (mbxAbortOne v m) := by
  unfold mbxAbortOne
  extract_lets words bells flags pend
  have hwords : Steady v words := .foldl _ (fun u i => .rgSet u _ _) _ v
  have hflags : Steady words flags := (Steady.rgSet words _ _).trans (.rgSet bells _ _)
  exact (hwords.trans hflags).trans ((Steady.rbSet flags _ _ _).trans (.raiseEvent pend _ _))

theorem mbxAbort_steady (v : Vol) (r : Nat) : Steady v (mbxAbort v r) :=
  .foldl _ (fun u m => .ite (mbxAbortOne_steady u m) (.refl u)) _ v

theorem yokDetach_steady (v : Vol) : Steady v (yokDetach v) := by
  unfold yokDetach
  extract_lets failed told parted
  have hfailed : Steady v failed := .ite (attachFails_steady v) (.refl v)
  refine hfailed.trans ?_
  split
  · exact .rgSet failed _ _
  · have htold : Steady failed told := yokSend_steady failed _ _ _
    have hparted : Steady told parted := ⟨rfl, rfl, id, id⟩
    exact (htold.trans hparted).trans ((Steady.raiseEvent parted _ _).trans (mbxAbort_steady _ _))

theorem detachBoundary_steady (v : Vol) : Steady v (detachBoundary v) := by
  unfold detachBoundary
  extract_lets parted shadow alone
  split
  · exact .refl v
  · have hparted : Steady v parted := .ite (yokDetach_steady v) (.refl v)
    have halone : Steady parted alone := ⟨rfl, rfl, fun _ => rfl, id⟩
    exact (hparted.trans halone).trans (.ite (enterSafe_steady alone) (.refl alone))

end Sys2Proof.Machine
end

section
/-! SUPPORT. The boundary of a part alone (R40, R41, R43, R52, R58), in the order of `boundary`. -/

namespace Sys2Proof.Machine

/-- The tick's course, field by field. -/
theorem Steady.fields {v v' : Vol} (h : Steady v v') : v'.tick.running = v.tick.running ∧ v'.tick.stopReq = v.tick.stopReq
    ∧ v'.tick.had = v.tick.had ∧ v'.tick.number = v.tick.number ∧ v'.tick.boundary = v.tick.boundary
    ∧ v'.tick.inDrop = v.tick.inDrop ∧ v'.tick.released = v.tick.released ∧ v'.tick.commits = v.tick.commits := by
  simpa only [courseOf, Prod.mk.injEq] using h.course

/-- Where the boundary comes: at its time, or at the nominal end that a lost marker gives. -/
def boundaryAt (v : Vol) : Nat :=
  let at' := max v.now v.tick.next
  if markMissing v then max at' (max (v.tick.boundary + taf v 0x044 18 0) (at' + 1)) else at'

/-- The part at its boundary, before its first action: a marker that is missing has been lost. -/
def boundaryComes (v : Vol) : Vol :=
  let u := if markMissing v then sourceLoss { v with now := max v.now v.tick.next } else v
  { u with now := max u.now u.tick.next }

theorem boundaryComes_steady (v : Vol) : Steady { v with now := boundaryAt v } (boundaryComes v) := by
  unfold boundaryComes boundaryAt
  split
  · next hm =>
    have hfirst : v.tick.first = false := by
      simp only [markMissing, Bool.and_eq_true, Bool.not_eq_true'] at hm
      exact hm.1.2
    have hloss := sourceLoss_steady { v with now := max v.now v.tick.next }
    have hnext : (sourceLoss { v with now := max v.now v.tick.next }).tick.next
        = max (v.tick.boundary + taf v 0x044 18 0) (max v.now v.tick.next + 1) := by
      rw [sourceLoss_tick]
      exact if_neg (by simp [hfirst])
    refine ⟨?_, hloss.course, hloss.alone, hloss.idle⟩
    show max _ _ = max _ _
    rw [hnext, sourceLoss_now]
  · exact .refl _

theorem boundaryComes_relAt {v : Vol} (h : v.yok.relAt = none) : (boundaryComes v).yok.relAt = none := by
  unfold boundaryComes
  show (if markMissing v then sourceLoss { v with now := max v.now v.tick.next } else v).yok.relAt = none
  split
  · rw [(sourceLoss_touches _).yok]
    exact h
  · exact h

theorem boundaryNumber_steady (v : Vol) :
    Steady (setTick v fun t => { t with number := nextNumber v, boundary := v.now, had := true }) (boundaryNumber v) := by
  unfold boundaryNumber
  extract_lets n captured told
  have hcaptured : Steady (setTick v fun t => { t with number := nextNumber v, boundary := v.now, had := true }) captured :=
    ⟨rfl, rfl, id, id⟩
  refine (hcaptured.trans (.raiseEvent captured _ _)).trans (.ite ?_ (.refl told))
  exact ⟨rfl, rfl, id, id⟩

theorem boundaryLength_steady (v : Vol) :
    Steady (setTick v fun t => { t with running := t.running && !t.stopReq, stopReq := false }) (boundaryLength v) := by
  unfold boundaryLength
  extract_lets r placed shown
  have hr : Steady v r.1 := tickLength_steady v
  have hshown : Steady v shown := hr.trans (Steady.trans (v' := placed) ⟨rfl, rfl, id, id⟩ (.rgSet placed _ _))
  obtain ⟨hrun, hstop, hhad, hnum, hbnd, hdrop, hrel, hcom⟩ := hshown.fields
  split
  · next hs =>
    refine ⟨hshown.now, ?_, hshown.alone, hshown.idle⟩
    show courseOf { shown.tick with running := false, stopReq := false } = courseOf { v.tick with running := _, stopReq := false }
    simp only [courseOf, hhad, hnum, hbnd, hdrop, hrel, hcom, ← hstop, hs, Bool.not_true, Bool.and_false]
  · next hs =>
    refine ⟨hshown.now, ?_, hshown.alone, hshown.idle⟩
    show courseOf shown.tick = courseOf { v.tick with running := _, stopReq := false }
    rw [Bool.not_eq_true] at hs
    simp only [courseOf, hrun, hhad, hnum, hbnd, hdrop, hrel, hcom, ← hstop, hs, Bool.not_false, Bool.and_true]

theorem dropPut_steady (v : Vol) (k i : Nat) (w : TWord) : Steady v (dropPut v k i w) := ⟨rfl, rfl, id, id⟩

theorem sampleDrop_steady (v : Vol) : Steady v (sampleDrop v) := by
  have hchans (u : Vol) (k : Nat) (word : Nat → TWord) : Steady u (dropChans u k (fun _ => true) word) :=
    .foldl _ (fun x n => .ite (dropPut_steady x k n _) (.refl x)) _ u
  have haux (u : Vol) (k : Nat) (word : Nat → TWord) : Steady u (dropAux u k word) :=
    .foldl _ (fun x i => dropPut_steady x k (192 + i) (word i)) _ u
  refine .foldl _ (fun u k => ?_) _ v
  extract_lets chans
  have hc : Steady u chans := .ite (hchans u k _) (.refl u)
  exact hc.trans (.ite (haux chans k _) (.refl chans))

theorem boundaryDrop_steady {v : Vol} (h : v.yok.role = 0) :
    Steady (setTick v fun t => { t with inDrop := true, released := false, commits := [] }) (boundaryDrop v) := by
  have hopen : Steady (setTick v fun t => { t with inDrop := true, released := false, commits := [] }) (openDrop v) :=
    ⟨rfl, rfl, id, id⟩
  have hrole : (openDrop v).yok.role = 0 := h
  unfold boundaryDrop
  dsimp only
  rw [if_neg (by simp [hrole])]
  exact hopen.trans (sampleDrop_steady _)

theorem lksBoundary_idle {v : Vol} (h : NothingDue v) : lksBoundary v = v := by
  obtain ⟨-, hpause, hswitch, -⟩ := h
  rw [lksBoundary, hpause, hswitch]

theorem boundaryMode_idle {v : Vol} (h : NothingDue v) : boundaryMode v = v := by
  rw [boundaryMode, h.1]

/-- What the boundary of a part alone leaves of the tick's course. -/
structure TickOpened (v v' : Vol) : Prop where
  number : v'.tick.number = if v.tick.had then v.tick.number + 1 else v.tick.number
  boundary : v'.tick.boundary = boundaryAt v
  inDrop : v'.tick.inDrop = true
  commits : v'.tick.commits = []
  had : v'.tick.had = true
  running : v'.tick.running = !v.tick.stopReq
  released : v'.tick.released = v.tick.stopReq
  idle : NothingDue v'

theorem nextNumber_alone {v : Vol} (h : v.yok.role = 0) : nextNumber v = if v.tick.had then v.tick.number + 1 else v.tick.number := by
  rw [nextNumber, if_neg (by simp [h])]

/-- The boundary up to the outputs. -/
def boundaryActs (v : Vol) : Vol :=
  let v := yokDecide v
  let v := if v.yok.role = 2 && v.yok.takeDue then takeoverSettle v else v
  let v := (List.range 24).foldl (fun v b => if ready v (pMea b) then meaLatch v b 0xFF else v) v
  outBoundary (boundaryMode (boundarySettings v))

/-- The boundary from the number of the tick to an apply: the account of the tick that ends (R70-R73), which `u`, the part as its
boundary came, and the source `sel` that it had then tell. -/
def boundaryAccounts (u : Vol) (sel : Nat) (lost : Bool) (v : Vol) : Vol :=
  let len := u.now - u.tick.boundary
  let v := boundaryNumber v
  let check := !(u.sys.mode == .safe) && !tickPaused v
  let r := if u.tick.first then (v, false) else kerfCheck v len check
  let v := if u.tick.first then r.1 else rgSet r.1 (aTick 0x074) (BitVec.ofNat 32 (len % 2 ^ 19))
  let v := if r.2 then overLimitSafe v else v
  let v := if rb v (aStat pTick) 3 then applyCheck v else v
  if lost && taf v 0x040 2 0 == sel then rgOr v (aStat pTick) 16 else v

/-- The boundary once DROP is open. -/
def boundaryCloses (v : Vol) : Vol :=
  let v := if v.tick.running then v else setTick v fun t => { t with released := true }
  let v := if v.yok.safeDue then enterSafe (setYok v fun y => { y with safeDue := false }) else v
  let v := yokBoundary v
  let v := if v.yok.takeDue && v.sys.mode == .shadow then v else detachBoundary v
  let v := lksBoundary v
  if v.sys.target = some .banked then outApply (applyMode v .banked) else v

theorem boundary_eq {v : Vol} (hrdy : ready v pTick = true) (hrun : v.tick.running = true) (hrel : v.yok.relAt = none) :
    boundary v = boundaryCloses (boundaryDrop (boundaryLength
      (boundaryAccounts (boundaryComes v) (taf v 0x040 2 0) (markMissing v) (boundaryActs (boundaryComes v))))) := by
  unfold boundary
  rw [if_neg (by simp [hrdy, hrun])]
  extract_lets sel lost gone come
  have hcome : come = boundaryComes v := yokReleases_none (boundaryComes_relAt hrel)
  rw [← hcome]
  rfl

theorem boundaryActs_steady {v : Vol} (hrole : v.yok.role = 0) (hidle : NothingDue v) : Steady v (boundaryActs v) := by
  unfold boundaryActs
  extract_lets decided settled latched
  have hdecided : Steady v decided := yokDecide_steady hrole
  have hsettled : settled = decided := if_neg (by simp [hdecided.alone hrole])
  have hlatched : Steady decided latched := by
    rw [← hsettled]
    exact .foldl _ (fun u b => .ite (meaLatch_steady u b 0xFF) (.refl u)) _ settled
  have hset : Steady latched (boundarySettings latched) := ⟨rfl, rfl, id, id⟩
  have hall := hdecided.trans (hlatched.trans hset)
  rw [boundaryMode_idle (hall.idle hidle)]
  exact hall.trans (.of_touches (outBoundary_touches _))

theorem boundaryAccounts_steady (u : Vol) (sel : Nat) (lost : Bool) (v : Vol) :
    Steady (setTick v fun t => { t with number := nextNumber v, boundary := v.now, had := true }) (boundaryAccounts u sel lost v) := by
  unfold boundaryAccounts
  extract_lets len numbered check kerf shown limited applied
  have hkerf : Steady numbered kerf.1 := by
    unfold kerf
    split
    · exact .refl numbered
    · exact kerfCheck_steady numbered len check
  have hshown : Steady kerf.1 shown := .ite (.refl _) (.rgSet _ _ _)
  have hlimited : Steady shown limited := .ite (overLimitSafe_steady shown) (.refl shown)
  have happlied : Steady limited applied := .ite (applyCheck_steady limited) (.refl limited)
  have hmarked : Steady applied (if lost && taf applied 0x040 2 0 == sel then rgOr applied (aStat pTick) 16 else applied) :=
    .ite (.rgSet applied _ _) (.refl applied)
  exact (boundaryNumber_steady v).trans ((hkerf.trans hshown).trans ((hlimited.trans happlied).trans hmarked))

/-- A part that has stopped counts as released. -/
theorem boundaryStops_steady (v : Vol) : Steady (setTick v fun t => { t with released := t.released || !t.running })
    (if v.tick.running then v else setTick v fun t => { t with released := true }) := by
  split
  · next h =>
    refine ⟨rfl, ?_, id, id⟩
    show courseOf v.tick = courseOf { v.tick with released := _ }
    rw [h, Bool.not_true, Bool.or_false]
  · next h =>
    refine ⟨rfl, ?_, id, id⟩
    show courseOf { v.tick with released := true } = courseOf { v.tick with released := _ }
    rw [Bool.not_eq_true] at h
    rw [h, Bool.not_false, Bool.or_true]

theorem boundaryCloses_steady {v : Vol} (hrole : v.yok.role = 0) (hidle : NothingDue v) :
    Steady (setTick v fun t => { t with released := t.released || !t.running }) (boundaryCloses v) := by
  unfold boundaryCloses
  extract_lets stopped safed yoked parted last
  have hstopped := boundaryStops_steady v
  have hsafed : Steady stopped safed := 
    .ite (Steady.trans (v' := setYok stopped fun y => { y with safeDue := false }) ⟨rfl, rfl, id, id⟩ (enterSafe_steady _)) (.refl stopped)
  have h1 := hstopped.trans hsafed
  have hyoked : Steady safed yoked := yokBoundary_steady (h1.alone hrole)
  have hparted : Steady yoked parted := .ite (.refl yoked) (detachBoundary_steady yoked)
  have h2 := h1.trans (hyoked.trans hparted)
  have hdue : NothingDue parted := h2.idle hidle
  have hlast : last = parted := lksBoundary_idle hdue
  rw [hlast, if_neg (by simp [hdue.1])]
  exact h2

theorem boundary_opens {v : Vol} (hrdy : ready v pTick = true) (hrun : v.tick.running = true) (hrole : v.yok.role = 0)
    (hidle : NothingDue v) (hrel : v.yok.relAt = none) : TickOpened v (boundary v) := by
  rw [boundary_eq hrdy hrun hrel]
  have hcomes := boundaryComes_steady v
  generalize boundaryComes v = come at hcomes ⊢
  have hA := hcomes.trans (boundaryActs_steady (hcomes.alone hrole) (hcomes.idle hidle))
  generalize boundaryActs come = acted at hA ⊢
  have hB := boundaryAccounts_steady come (taf v 0x040 2 0) (markMissing v) acted
  generalize boundaryAccounts come (taf v 0x040 2 0) (markMissing v) acted = counted at hB ⊢
  have hC := boundaryLength_steady counted
  generalize boundaryLength counted = long at hC ⊢
  have hlong : long.yok.role = 0 := hC.alone (hB.alone (hA.alone hrole))
  have hD := boundaryDrop_steady hlong
  generalize boundaryDrop long = dropped at hD ⊢
  have hdue : NothingDue dropped := hD.idle (hC.idle (hB.idle (hA.idle hidle)))
  have hE := boundaryCloses_steady (hD.alone hlong) hdue
  generalize boundaryCloses dropped = closed at hE ⊢
  obtain ⟨arun, astop, ahad, anum, -, -, -, -⟩ := hA.fields
  obtain ⟨brun, bstop, bhad, bnum, bbnd, -, -, -⟩ := hB.fields
  obtain ⟨crun, -, chad, cnum, cbnd, -, -, -⟩ := hC.fields
  obtain ⟨drun, -, dhad, dnum, dbnd, ddrop, drel, dcom⟩ := hD.fields
  obtain ⟨erun, -, ehad, enum', ebnd, edrop, erel, ecom⟩ := hE.fields
  have hrunning : dropped.tick.running = !v.tick.stopReq := by
    rw [drun]
    show long.tick.running = _
    rw [crun]
    show (counted.tick.running && !counted.tick.stopReq) = _
    rw [brun, bstop]
    show (acted.tick.running && !acted.tick.stopReq) = _
    rw [arun, astop, show ({ v with now := boundaryAt v } : Vol).tick = v.tick from rfl, hrun, Bool.true_and]
  refine ⟨?_, ?_, edrop.trans ddrop, ecom.trans dcom, ?_, erun.trans hrunning, ?_, hE.idle hdue⟩
  · rw [enum'.trans (dnum.trans (cnum.trans bnum))]
    show nextNumber acted = _
    rw [nextNumber_alone (hA.alone hrole), ahad, anum]
  · exact (ebnd.trans (dbnd.trans (cbnd.trans bbnd))).trans hA.now
  · exact ehad.trans (dhad.trans (chad.trans bhad))
  · rw [erel]
    show (dropped.tick.released || !dropped.tick.running) = _
    rw [drel, hrunning]
    show (false || !!v.tick.stopReq) = _
    rw [Bool.false_or, Bool.not_not]

end Sys2Proof.Machine

namespace Sys2Proof

open Sys2Proof.Machine

/-- Settles O15: the boundary by the course that its parts keep, the end of DROP and the loss of a source by what they do, the
release by an induction over the control cores. -/
theorem tickProceeds : Obligations.TickProceeds := by
  unfold Obligations.TickProceeds
  refine ⟨fun s hrdy hrun _ hrole _ _ _ htarget hpause hswitch hfell hrel => ?_, fun s => ⟨fun hrel hdrop hsnap => ?_,
    fun hrel hdrop hrls hhad hmode hpaused hrestart henter hlen => ?_, fun hrdy hrun => ⟨fun h => ?_, fun h => ?_, fun h => ?_, fun h1 h2 h3 => ?_⟩⟩⟩
  · obtain ⟨hnum, hbnd, hdrop, hcom, hhad, hrun', hrls, hidle⟩ := boundary_opens hrdy hrun hrole ⟨htarget, hpause, hswitch, hfell⟩ hrel
    have hback : fellBack s.nv (boundary s.vol) = (s.nv, boundary s.vol) := if_pos (by simp [hidle.2.2.2])
    have hexec : exec .tickBoundary s = .next { s with vol := boundary s.vol } := by
      show onBoth s (fun nv v => fellBack nv (boundary v)) = _
      rw [onBoth, hback]
    exact ⟨_, hexec, hnum, hbnd, hdrop, hcom, hhad, hrun', hrls, rfl⟩
  · exact next_withVol (dropDone_eq hrel hdrop hsnap)
  · obtain ⟨h1, h2, h3⟩ := releaseCores_spec hrel hdrop hrls hhad hmode hpaused hrestart henter hlen
    exact ⟨_, rfl, h1, h2, rfl, h3⟩
  · obtain ⟨h1, h2, h3, h4, h5, h6, h7, h8⟩ := sourceLoss_spec s.vol s.vol.now
    exact ⟨_, next_withVol (sourceLost_ptp hrdy hrun h.1 h.2), h1, h2, h3, h4, h5, h6, h7, h8, rfl⟩
  · obtain ⟨h1, h2, h3, h4, h5, h6, h7, h8⟩ := sourceLoss_spec s.vol (max s.vol.now s.vol.tick.next)
    exact ⟨_, next_withVol (sourceLost_yoke hrdy hrun h), h1, h2, h3, h4, h5, h6, h7, h8, rfl⟩
  · obtain ⟨h1, h2, h3, h4, h5, h6, h7, h8⟩ := sourceLoss_spec s.vol (max s.vol.now (mainsDeadline s.vol))
    exact ⟨_, next_withVol (sourceLost_mains hrdy hrun h), h1, h2, h3, h4, h5, h6, h7, h8, rfl⟩
  · exact next_withVol (sourceLost_kept hrdy hrun h1 h2 h3)

end Sys2Proof
end

section
/-! SUPPORT. A move to any trigger port of a core: when nothing turns it away, and what it then makes of its core (R119, R127, R170, R190). -/

namespace Sys2Proof.Machine

/-! ### A core that may move -/

/-- A core that issues is one of the part's. -/
theorem lt_of_canMove {v : Vol} {k : Nat} (h : canMove v k = true) : k < v.cores.length := by
  by_contra hk
  obtain ⟨hi, -, -⟩ := canMove_iff.mp h
  simp [issuing, coreOf_short v k hk, Core.reset] at hi

theorem setCore_onMove (v : Vol) (k : Nat) (f : Core → Core) (c : Core) : setCore (onMove v k f) k c = setCore v k c :=
  setCore_setCore v k _ c

theorem coreOf_onMove {v : Vol} {k : Nat} (hk : k < v.cores.length) (f : Core → Core) : coreOf (onMove v k f) k = f (moved v k) := by
  rw [onMove, coreOf_setCore, if_pos hk]

theorem onCore_onMove {v : Vol} {k : Nat} (hk : k < v.cores.length) (f g : Core → Core) :
    onCore (onMove v k f) k g = onMove v k fun c => g (f c) := by
  rw [onCore, coreOf_onMove hk, setCore_onMove]; rfl

/-- A mode change that comes into force changes MODE and what was pending alone (R120). -/
theorem modeDue_eq (c : Core) : modeDue c = { c with modeChg := (modeDue c).modeChg, sys := (modeDue c).sys } := by
  unfold modeDue
  split <;> rfl

theorem sysW_modeDue (c : Core) {n : Nat} (hn : n ≠ 0x40) : sysW (modeDue c) n = sysW c n := by
  unfold modeDue
  split
  · simp only [setUser, setSys, setSysT, sysW]
    rw [smapGet_set_ne _ _ _ _ hn]
  · rfl

/-- What a trigger finds of its core's fields: all but MODE and the store of the bundle before are as they were. -/
theorem moved_eq (v : Vol) (k : Nat) :
    moved v k = { coreOf v k with modeChg := (moved v k).modeChg, sys := (moved v k).sys, last := none } := by
  unfold moved
  rw [modeDue_eq]

theorem moved_g (v : Vol) (k : Nat) : (moved v k).g = (coreOf v k).g := by rw [moved_eq]
theorem moved_pc (v : Vol) (k : Nat) : (moved v k).pc = (coreOf v k).pc := by rw [moved_eq]
theorem moved_long (v : Vol) (k : Nat) : (moved v k).long = (coreOf v k).long := by rw [moved_eq]
theorem moved_busf (v : Vol) (k : Nat) : (moved v k).busf = (coreOf v k).busf := by rw [moved_eq]
theorem moved_trapNo (v : Vol) (k : Nat) : (moved v k).trapNo = (coreOf v k).trapNo := by rw [moved_eq]
theorem sysW_moved (v : Vol) (k : Nat) {n : Nat} (hn : n ≠ 0x40) : sysW (moved v k) n = sysW (coreOf v k) n := sysW_modeDue _ hn

/-! ### What an update of a core leaves -/

@[simp] theorem setSys_busf (c : Core) (n : Nat) (w : Word) : (setSys c n w).busf = c.busf := rfl
@[simp] theorem setSys_trapNo (c : Core) (n : Nat) (w : Word) : (setSys c n w).trapNo = c.trapNo := rfl
@[simp] theorem rsPush_busf (c : Core) (a : Nat) : (rsPush c a).busf = c.busf := by simp [rsPush]
@[simp] theorem rsPush_trapNo (c : Core) (a : Nat) : (rsPush c a).trapNo = c.trapNo := by simp [rsPush]
@[simp] theorem rsPop_busf (c : Core) : (rsPop c).1.busf = c.busf := by simp [rsPop]
@[simp] theorem rsPop_trapNo (c : Core) : (rsPop c).1.trapNo = c.trapNo := by simp [rsPop]

/-! ### The checks of one move -/

/-- Both kinds of core have every destination below 112 but the tag ports and the commit (R96, R122). -/
theorem dstOk_common {d : Nat} (k : Nat) (hd : d < 112 ∧ d ≠ 49 ∧ d ≠ 50 ∧ d ≠ 89) : dstOk k d = true := by
  obtain ⟨h, h49, h50, h89⟩ := hd
  simp [dstOk, h, h49, h50, h89]

theorem trigPriv_supervisor {d : Nat} {c : Core} (h : userMode c = false) : trigPriv d c = false := by
  rw [trigPriv, h, Bool.false_and]

/-- A return is held only by an access of its frame that has no response (R205). -/
theorem trigHolds_retx {k : Nat} {x : TWord} {c : Core} (h : ∀ h, fheldAt c (xDepth c) = some h → h.done = true) :
    trigHolds k 86 x c = false := by
  cases hf : fheldAt c (xDepth c) with
  | none => simp [trigHolds, trigUnit, hf]
  | some a => simp [trigHolds, trigUnit, hf, h a hf]

/-- A move that no check of R190 turns away. -/
theorem execFault_none {v : Vol} {k d pc : Nat} {a : TWord} {c : Core} (hpriv : trigPriv d c = false) (hpois : movePoison d a c = false)
    (hstack : trigStack v k d c = none) (hlsu : lsuFault v k 0 d a c pc = none) (himg : imageFault v k 0 d a c pc = none) :
    execFault v k pc none [(⟨0, d, 0⟩, a)] c = none := by
  simp [execFault, hpriv, hpois, hstack, hlsu, himg]

/-- A move of the control, loop or sys unit meets the checks of privilege, poisoned control, the stack and the frame image. -/
theorem canTake_control {v : Vol} {k d : Nat} {x : TWord} (hm : canMove v k = true) (hok : dstOk k d = true)
    (hunit : trigUnit d = some .cu ∨ trigUnit d = some .lp ∨ trigUnit d = some .sys)
    (hds : (isTransfer d || d == 91) = true → (moved v k).ds = none) (hholds : trigHolds k d x (modeDue (coreOf v k)) = false)
    (hres : trigReserved d x (modeDue (coreOf v k)) = false) (hpriv : trigPriv d (modeDue (coreOf v k)) = false)
    (hpois : movePoison d x (modeDue (coreOf v k)) = false) (hstack : trigStack v k d (modeDue (coreOf v k)) = none)
    (himg : d ≠ 103 ∨ (opnd (moved v k) 102).data ≠ 0x55) : canTake v k d x = true := by
  have hlsu : lsuFault v k 0 d x (modeDue (coreOf v k)) (modeDue (coreOf v k)).pc = none := by
    rcases hunit with h | h | h <;> simp [lsuFault, h]
  have hnoimg : imageFault v k 0 d x (modeDue (coreOf v k)) (modeDue (coreOf v k)).pc = none :=
    if_pos (by rcases himg with h | h; exacts [.inl h, .inr (.inl h)])
  have hnots : ((isTransfer d || d == 91) && (modeDue (coreOf v k)).ds.isSome) = false := by
    cases ht : (isTransfer d || d == 91)
    · rfl
    · rw [show (modeDue (coreOf v k)).ds = none from hds ht]; rfl
  simp [canTake, hm, hok, hnots, hholds, hres, execFault_none hpriv hpois hstack hlsu hnoimg]

/-! ### What a move makes of its core -/

/-- A move that nothing turns away has its trigger's effect, and then what that has recorded. -/
theorem triggerMove_of_canTake {nv : Nv} {v : Vol} {k d : Nat} {w : TWord} (h : canTake v k d (untag k w) = true) :
    triggerMove nv v k d w = afterIssue nv (trig (onMove v k fun c => c) k 0 d (untag k w)) k := by
  simp only [canTake, Bool.and_eq_true, Bool.not_eq_true', Option.isNone_iff_eq_none] at h
  obtain ⟨⟨⟨⟨⟨hm, hok⟩, hds⟩, hholds⟩, hres⟩, hfault⟩ := h
  refine triggerMove_plain nv v k d w _ rfl (canMove_iff.mp hm).1 hholds hok (fun ht => ?_) hres hfault
  rw [ht, Bool.true_and, Option.isSome_eq_false_iff, Option.isNone_iff_eq_none] at hds
  exact hds

theorem canMove_of_canTake {v : Vol} {k d : Nat} {x : TWord} (h : canTake v k d x = true) : canMove v k = true := by
  simp only [canTake, Bool.and_eq_true] at h
  exact h.1.1.1.1.1

/-- Behind a change of a core that can move which records nothing, nothing follows. -/
theorem afterIssue_onMove {nv : Nv} {v : Vol} {k : Nat} {f : Core → Core} (hm : canMove v k = true)
    (hbus : ∀ c, (f c).busf = c.busf) (htrap : ∀ c, (f c).trapNo = c.trapNo) : afterIssue nv (onMove v k f) k = onMove v k f := by
  obtain ⟨-, hb, ht⟩ := canMove_iff.mp hm
  have hk := lt_of_canMove hm
  refine afterIssue_none nv _ k ?_ ?_
  · rw [coreOf_onMove hk, hbus, moved_busf, hb]
  · rw [coreOf_onMove hk, htrap, moved_trapNo, ht]

/-- A move whose trigger changes its core alone and records nothing. -/
theorem triggerMove_onMove {nv : Nv} {v : Vol} {k d : Nat} {w : TWord} {f : Core → Core} (h : canTake v k d (untag k w) = true)
    (htrig : trig (onMove v k fun c => c) k 0 d (untag k w) = onMove v k f) (hbus : ∀ c, (f c).busf = c.busf)
    (htrap : ∀ c, (f c).trapNo = c.trapNo) : triggerMove nv v k d w = onMove v k f := by
  rw [triggerMove_of_canTake h, htrig, afterIssue_onMove (canMove_of_canTake h) hbus htrap]

/-- A trigger that the user may not make takes the privilege fault (R121). -/
theorem triggerMove_priv {nv : Nv} {v : Vol} {k d : Nat} {w : TWord} (hm : canMove v k = true) (hok : dstOk k d = true)
    (hds : (isTransfer d || d == 91) = true → (moved v k).ds = none) (hholds : trigHolds k d (untag k w) (modeDue (coreOf v k)) = false)
    (hres : trigReserved d (untag k w) (modeDue (coreOf v k)) = false) (hpriv : trigPriv d (modeDue (coreOf v k)) = true) :
    triggerMove nv v k d w = takePrecise nv v k (cfault 5 0 d (moved v k).pc) := by
  have hnots : ((isTransfer d || d == 91) && (modeDue (coreOf v k)).ds.isSome) = false := by
    cases ht : (isTransfer d || d == 91)
    · rfl
    · rw [show (modeDue (coreOf v k)).ds = none from hds ht]; rfl
  have hfault : execFault v k (modeDue (coreOf v k)).pc none [(⟨0, d, 0⟩, untag k w)] (modeDue (coreOf v k))
      = some (cfault 5 0 d (moved v k).pc) := by
    simp [execFault, hpriv, moved]
  unfold triggerMove triggerWith
  simp [(canMove_iff.mp hm).1, hholds, hok, hnots, hres, hfault]

end Sys2Proof.Machine
end


section
/-! PROOFS. Jumps, calls, returns and loops (O25). -/

namespace Sys2Proof.Machine

/-- A core on its way to a target, with two delay slots (R105). -/
def transferring (c : Core) (now target : Nat) (rx : Bool) : Core :=
  { c with ds := some (target / 16 * 16, 2), dsAt := now, rx := rx }

@[simp] theorem transferring_busf (c : Core) (now target : Nat) (rx : Bool) : (transferring c now target rx).busf = c.busf := rfl
@[simp] theorem transferring_trapNo (c : Core) (now target : Nat) (rx : Bool) : (transferring c now target rx).trapNo = c.trapNo := rfl

/-- A transfer that sets out from a core which has been changed before. -/
theorem startTransfer_onMove {v : Vol} {k : Nat} (hk : k < v.cores.length) (f : Core → Core) (target : Nat) (rx : Bool) :
    startTransfer (onMove v k f) k target rx = onMove v k fun c => transferring (f c) v.now target rx :=
  onCore_onMove hk f _

section
variable {nv : Nv} {v : Vol} {k : Nat} {a : TWord}

theorem triggerMove_jump (hm : canMove v k = true) (hds : (moved v k).ds = none) (hp : (untag k a).isPoison = false) :
    triggerMove nv v k 83 a = onMove v k fun c => transferring c v.now (untag k a).data.toNat false := by
  have htake : canTake v k 83 (untag k a) = true :=
    canTake_control hm (dstOk_common k (by decide)) (.inl rfl) (fun _ => hds) rfl rfl (by simp [trigPriv])
      (by simp [movePoison, isControl, hp]) (by simp [trigStack]) (.inl (by decide))
  exact triggerMove_onMove htake (startTransfer_onMove (lt_of_canMove hm) _ _ _) (fun _ => by simp) fun _ => by simp

/-- The return stack takes a call and gives a return where RSTRAP is 0 or it is not full or empty (R109). -/
theorem trigStack_roomy {d n : Nat} {c : Core} (hd : d = 84 ∧ n = 16 ∨ d = 85 ∧ n = 0)
    (hroom : ctlBit v k 0 = false ∨ fld (sysW c 0x46) 8 4 ≠ n) : trigStack v k d c = none := by
  have hfree : ¬ (ctlBit v k 0 = true ∧ fld (sysW c 0x46) 8 4 = n) :=
    fun h => hroom.elim (fun h0 => Bool.false_ne_true (h0.symm.trans h.1)) fun hn => hn h.2
  rcases hd with ⟨rfl, rfl⟩ | ⟨rfl, rfl⟩ <;> simpa [trigStack] using hfree

theorem triggerMove_call (hm : canMove v k = true) (hds : (moved v k).ds = none) (hp : (untag k a).isPoison = false)
    (hroom : ctlBit v k 0 = false ∨ fld (sysW (moved v k) 0x46) 8 4 ≠ 16) :
    triggerMove nv v k 84 a
      = onMove v k fun c => transferring (rsPush c (curBundle v k + 48)) v.now (untag k a).data.toNat false := by
  have hk := lt_of_canMove hm
  have htake : canTake v k 84 (untag k a) = true :=
    canTake_control hm (dstOk_common k (by decide)) (.inl rfl) (fun _ => hds) rfl rfl (by simp [trigPriv])
      (by simp [movePoison, isControl, hp]) (trigStack_roomy (.inl ⟨rfl, rfl⟩) hroom) (.inl (by decide))
  refine triggerMove_onMove htake ?_ (fun _ => by simp) fun _ => by simp
  show startTransfer (setCore _ k (rsPush (coreOf _ k) _)) k _ _ = _
  rw [coreOf_onMove hk, setCore_onMove]
  exact startTransfer_onMove hk (fun c => rsPush c (curBundle v k + 48)) _ _

theorem triggerMove_ret (hm : canMove v k = true) (hds : (moved v k).ds = none)
    (hroom : ctlBit v k 0 = false ∨ fld (sysW (moved v k) 0x46) 8 4 ≠ 0) :
    triggerMove nv v k 85 TWord.zero = onMove v k fun c => transferring (rsPop c).1 v.now (rsPop c).2 false := by
  have hk := lt_of_canMove hm
  have htake : canTake v k 85 (untag k TWord.zero) = true :=
    canTake_control hm (dstOk_common k (by decide)) (.inl rfl) (fun _ => hds) rfl rfl (by simp [trigPriv])
      (by simp [movePoison, isControl]) (trigStack_roomy (.inr ⟨rfl, rfl⟩) hroom) (.inl (by decide))
  refine triggerMove_onMove htake ?_ (fun _ => by simp) fun _ => by simp
  show startTransfer (setCore _ k (rsPop (coreOf _ k)).1) k (rsPop (coreOf _ k)).2 _ = _
  rw [coreOf_onMove hk, setCore_onMove]
  exact startTransfer_onMove hk (fun c => (rsPop c).1) _ _

theorem triggerMove_retx (hm : canMove v k = true) (hds : (moved v k).ds = none) (huser : userMode (moved v k) = false)
    (hframe : ∀ h, fheldAt (moved v k) (xDepth (moved v k)) = some h → h.done = true) :
    triggerMove nv v k 86 TWord.zero = onMove v k fun c => transferring c v.now (sysW c 0x48).toNat true := by
  have hk := lt_of_canMove hm
  have hpriv : trigPriv 86 (modeDue (coreOf v k)) = false := trigPriv_supervisor huser
  have htake : canTake v k 86 (untag k TWord.zero) = true :=
    canTake_control hm (dstOk_common k (by decide)) (.inl rfl) (fun _ => hds) (trigHolds_retx hframe) rfl hpriv
      (by simp [movePoison, isControl]) (by simp [trigStack]) (.inl (by decide))
  refine triggerMove_onMove htake ?_ (fun _ => by simp) fun _ => by simp
  show startTransfer _ k (sysW (coreOf _ k) 0x48).toNat true = _
  rw [coreOf_onMove hk]
  exact startTransfer_onMove hk _ _ _

/-- A core with a further loop level open, from the bundle behind pc (R112, R181). -/
def loopOpened (c : Core) (pc cnt : Nat) : Core :=
  { setSys (setSys (setSys c (0x41 + 2 * loopLevels c) (BitVec.ofNat 32 (pc + 16)))
      (0x42 + 2 * loopLevels c) (BitVec.ofNat 32 (if cnt = 0 then 65536 else cnt)))
      0x45 (BitVec.ofNat 32 (loopLevels c + 1)) with
    lpCold := c.lpCold &&& ~~~(BitVec.ofNat 2 (2 ^ loopLevels c)) }

@[simp] theorem loopOpened_busf (c : Core) (pc cnt : Nat) : (loopOpened c pc cnt).busf = c.busf := by simp [loopOpened]
@[simp] theorem loopOpened_trapNo (c : Core) (pc cnt : Nat) : (loopOpened c pc cnt).trapNo = c.trapNo := by
  simp [loopOpened]

theorem triggerMove_lpBegin (hm : canMove v k = true) (hds : (moved v k).ds = none) (hp : (untag k a).isPoison = false)
    (hlevels : loopLevels (moved v k) ≠ 2) :
    triggerMove nv v k 91 a = onMove v k fun c => loopOpened c (curBundle v k) ((untag k a).data.toNat % 65536) := by
  have hfree : loopLevels (modeDue (coreOf v k)) ≠ 2 := hlevels
  have htake : canTake v k 91 (untag k a) = true :=
    canTake_control hm (dstOk_common k (by decide)) (.inr (.inl rfl)) (fun _ => hds) rfl rfl (by simp [trigPriv])
      (by simp [movePoison, isControl, hp]) (by simp [trigStack, hfree]) (.inl (by decide))
  refine triggerMove_onMove htake ?_ (fun _ => by simp) fun _ => by simp
  show setCore _ k _ = setCore v k _
  rw [setCore_onMove, coreOf_onMove (lt_of_canMove hm)]
  rfl

theorem triggerMove_lpPop (hm : canMove v k = true) :
    triggerMove nv v k 92 TWord.zero = onMove v k fun c => setSys c 0x45 (BitVec.ofNat 32 (loopLevels c - 1)) := by
  have htake : canTake v k 92 (untag k TWord.zero) = true :=
    canTake_control hm (dstOk_common k (by decide)) (.inr (.inl rfl)) (fun h => absurd h (by decide)) rfl rfl (by simp [trigPriv])
      (by simp [movePoison, isControl]) (by simp [trigStack]) (.inl (by decide))
  refine triggerMove_onMove htake ?_ (fun _ => by simp) fun _ => by simp
  show setCore _ k _ = setCore v k _
  rw [setCore_onMove, coreOf_onMove (lt_of_canMove hm)]

end

end Sys2Proof.Machine

namespace Sys2Proof

open Sys2Proof.Machine

/-- Settles O25: each command is a move to one port, which passes its checks and does what the port's lemma says. -/
theorem transfersAndLoopsAct : Obligations.TransfersAndLoopsAct := by
  intro s k a hm v c x pc dep cnt goes
  refine ⟨fun hds hp => ⟨?_, fun hroom => ?_, fun hlevels => ?_⟩, fun hds hroom => ?_, fun hds huser hframe => ?_, ?_⟩
  · exact next_withVol (triggerMove_jump hm hds hp)
  · exact next_withVol (triggerMove_call hm hds hp hroom)
  · exact next_withVol (triggerMove_lpBegin hm hds hp hlevels)
  · exact next_withVol (triggerMove_ret hm hds hroom)
  · exact next_withVol (triggerMove_retx hm hds huser hframe)
  · exact next_withVol (triggerMove_lpPop hm)

end Sys2Proof
end

section
/-! PROOFS. Sys registers, MODE, EVEC and the privilege checks (O28). -/

namespace Sys2Proof.Machine

/-! ### What a write of a sys register does -/

/-- A field outside a mask's cleared bits is read through the mask. -/
theorem fld_and_mask {w m : Word} {hi lo : Nat} (h : ∀ i, i < hi + 1 - lo → m.getLsbD (lo + i) = true) :
    fld (w &&& m) hi lo = fld w hi lo := by
  apply Nat.eq_of_testBit_eq
  intro i
  simp only [fld, Nat.testBit_mod_two_pow, Nat.testBit_div_two_pow, BitVec.toNat_and, Nat.testBit_and]
  by_cases hi' : i < hi + 1 - lo
  · have hm : m.toNat.testBit (i + lo) = true := by rw [Nat.add_comm]; exact h i hi'
    simp [hi', hm]
  · simp [hi']

section
variable {v : Vol} {k n : Nat} {x : TWord}

/-- The registers that keep their bits and nothing more (R118, R191). -/
theorem sysWrite_plain (hn : n = 0 ∨ n = 0x46 ∨ n = 0x48 ∨ n = 0x49 ∨ 0x4C ≤ n ∧ n ≤ 0x50 ∨ 0x53 = n ∨ 0x60 ≤ n ∧ n ≤ 0x6F) :
    sysWrite v k n x = onCore v k fun c => setSys c n (x.data &&& sysMask k n) := by
  unfold sysWrite
  simp only [show n ≠ 0x40 by omega, show n ≠ 0x51 by omega, show n ≠ 0x54 by omega, show n ≠ 0x55 by omega, show n ≠ 0x4A by omega,
    show n ≠ 0x4B by omega, show n ≠ 0x56 by omega, show n ≠ 0x57 by omega, show n ≠ 0x41 by omega, show n ≠ 0x42 by omega,
    show n ≠ 0x43 by omega, show n ≠ 0x44 by omega, show n ≠ 0x45 by omega, or_self, if_false]
  rw [show ∀ b : BitVec 2, b ||| 0 = b from fun _ => BitVec.or_zero]
  rfl

/-- A loop register also marks its loop cold (R181). -/
theorem sysWrite_loop (hn : 0x41 ≤ n ∧ n ≤ 0x45) : sysWrite v k n x = onCore v k fun c =>
    { setSys c n (x.data &&& sysMask k n) with lpCold := c.lpCold ||| (if n = 0x45 then 3 else if n ≤ 0x42 then 1 else 2) } := by
  obtain ⟨hlo, hhi⟩ := hn
  interval_cases n <;> rfl

/-- ESCR0 and ESCR1 keep the tag too (R191). -/
theorem sysWrite_scratch {a : TWord} (hn : n = 0x56 ∨ n = 0x57) :
    sysWrite v k n (untag k a) = onCore v k fun c => setSysT c n (untag k a) := by
  have htag : (if k = 8 then (⟨(untag k a).data, Tag.raw⟩ : TWord) else untag k a) = untag k a := by
    unfold untag; split <;> rfl
  have hwrite : sysWrite v k n (untag k a)
      = onCore v k fun c => setSysT c n (if k = 8 then ⟨(untag k a).data, Tag.raw⟩ else untag k a) := by
    rcases hn with rfl | rfl <;> rfl
  rw [hwrite, htag]

/-- A word without reserved codes is what ECAUSE takes (R14, R192). -/
theorem sysWrite_cause (hcause : causeCodeOk (fld x.data 5 0) = true) (hresp : respCodeOk (fld x.data 21 19) = true) :
    sysWrite v k 0x4A x = onCore v k fun c => setSys c 0x4A (x.data &&& 0x7FFFFFFF) := by
  have h1 : fld (x.data &&& 0x7FFFFFFF) 5 0 = fld x.data 5 0 := fld_and_mask (by decide)
  have h2 : fld (x.data &&& 0x7FFFFFFF) 21 19 = fld x.data 21 19 := fld_and_mask (by decide)
  show frameReg v k 0x4A x.data = _
  simp only [frameReg, h1, h2, hcause, hresp, if_true, Bool.not_true, Bool.or_self, Bool.false_eq_true, if_false]

/-- And what ESTAT takes. -/
theorem sysWrite_stat (hslots : fld x.data 2 1 ≠ 3) : sysWrite v k 0x4B x = onCore v k fun c => setSys c 0x4B (x.data &&& 0xBF) := by
  have h1 : fld (x.data &&& 0xBF) 2 1 = fld x.data 2 1 := fld_and_mask (by decide)
  show frameReg v k 0x4B x.data = _
  simp only [frameReg, h1, hslots, if_false, show (0x4B : Nat) ≠ 0x4A by decide, beq_eq_false_iff_ne.mpr hslots, Bool.false_eq_true]

end

/-! ### Moves to the sys unit -/

/-- The number that the sys unit's operand port holds. -/
abbrev sysNum (c : Core) : Nat := (opnd c 102).data.toNat

theorem opnd_setOpnd (c : Core) (d : Nat) (w : TWord) : opnd (setOpnd c d w) d = w := smapGet_set_same zeroT c.port d w

theorem untag_raw (k : Nat) (w : Word) : untag k (TWord.ofWord w) = TWord.ofWord w := by
  unfold untag; split <;> rfl

/-- In user mode the registers from 0x40 up are the supervisor's (R121). -/
theorem trigPriv_sys {d : Nat} {c : Core} (hd : d = 103 ∨ d = 104) (huser : userMode c = true) (hn : 0x40 ≤ sysNum c) :
    trigPriv d c = true := by
  rcases hd with rfl | rfl <;> simpa [trigPriv, huser] using hn

/-- And supervisor mode, or a lower number, passes the check. -/
theorem trigPriv_sysAllowed {d : Nat} {c : Core} (hd : d = 103 ∨ d = 104) (h : userMode c = false ∨ sysNum c < 0x40) :
    trigPriv d c = false := by
  rcases h with h | h
  · exact trigPriv_supervisor h
  · rcases hd with rfl | rfl <;> simpa [trigPriv] using fun _ => h

/-- A register number that `sys.w` or `sys.r` allows is no reserved operation (R119). -/
theorem trigReserved_sysW {c : Core} {x : TWord} (hok : sysOk (sysNum c) true x.data = true) : trigReserved 103 x c = false := by
  show (!sysOk (sysNum c) true x.data) = false
  rw [hok]; rfl

theorem trigReserved_sysR {k : Nat} {c : Core} (hok : sysOk (sysNum c) false 0 = true) : trigReserved 104 (untag k TWord.zero) c = false := by
  show (!sysOk (sysNum c) false (untag k TWord.zero).data) = false
  rw [untag_raw, hok]; rfl

section
variable {nv : Nv} {v : Vol} {k n : Nat} {a : TWord}

/-- A move to `sys.w` that the mode allows writes the register, FRESTORE aside. -/
theorem triggerMove_sysW {f : Core → Core} (hm : canMove v k = true) (hn : sysNum (moved v k) = n)
    (huser : userMode (moved v k) = false ∨ n < 0x40) (hp : (untag k a).isPoison = false) (hok : sysOk n true (untag k a).data = true)
    (hload : n ≠ 0x55) (hwrite : ∀ u, sysWrite u k n (untag k a) = onCore u k f) (hbus : ∀ c, (f c).busf = c.busf)
    (htrap : ∀ c, (f c).trapNo = c.trapNo) : triggerMove nv v k 103 a = onMove v k f := by
  have hk := lt_of_canMove hm
  have hnum : (opnd (moved v k) 102).data ≠ 0x55 := fun h => hload (by rw [← hn, sysNum, h]; rfl)
  have htake : canTake v k 103 (untag k a) = true :=
    canTake_control hm (dstOk_common k (by decide)) (.inr (.inr rfl)) (fun h => absurd h (by decide)) rfl
      (trigReserved_sysW (hn ▸ hok)) (trigPriv_sysAllowed (.inl rfl) (hn ▸ huser)) (by simp [movePoison, isControl, hp])
      (by simp [trigStack]) (.inr hnum)
  refine triggerMove_onMove htake ?_ hbus htrap
  show sysWrite _ k (sysNum (coreOf _ k)) _ = _
  rw [coreOf_onMove hk, hn, hwrite, onCore_onMove hk]

/-- A move to `sys.r` that the mode allows delivers the register (R118). -/
theorem triggerMove_sysR (hm : canMove v k = true) (hn : sysNum (moved v k) = n) (huser : userMode (moved v k) = false ∨ n < 0x40)
    (hok : sysOk n false 0 = true) :
    triggerMove nv v k 104 TWord.zero = onMove v k fun c => setRes c 47 (sysRead (onMove v k fun c => c) k n) := by
  have hk := lt_of_canMove hm
  have htake : canTake v k 104 (untag k TWord.zero) = true :=
    canTake_control hm (dstOk_common k (by decide)) (.inr (.inr rfl)) (fun h => absurd h (by decide)) rfl
      (trigReserved_sysR (hn ▸ hok)) (trigPriv_sysAllowed (.inr rfl) (hn ▸ huser)) (by simp [movePoison, isControl]) (by simp [trigStack])
      (.inl (by decide))
  refine triggerMove_onMove htake ?_ (fun _ => rfl) fun _ => rfl
  show onCore _ k (fun c => setRes c 47 (sysRead _ k (sysNum (coreOf _ k)))) = _
  rw [onCore_onMove hk, coreOf_onMove hk, hn]

/-! ### EVEC and MODE -/

/-- A trigger with operand moves that nothing turns away. -/
theorem triggerWith_plain {ops : List (Nat × TWord)} {d : Nat} {c : Core}
    (hc : ops.foldl (fun c o => setOpnd c o.1 (untag k o.2)) (modeDue (coreOf v k)) = c) (hi : issuing v k = true)
    (hh : trigHolds k d (untag k a) c = false) (hok : dstOk k d = true) (hds : (isTransfer d || d == 91) = false)
    (hr : trigReserved d (untag k a) c = false) (he : execFault v k c.pc none [(⟨0, d, 0⟩, untag k a)] c = none) :
    triggerWith nv v k ops d a = afterIssue nv (trig (setCore v k { c with last := none }) k 0 d (untag k a)) k := by
  subst hc
  unfold triggerWith
  simp [hi, hh, hok, hds, hr, he]

/-- A core with the number of EVEC in its operand port and a new EVEC that waits for its lines (R196). -/
def evecNamed (x : TWord) (c : Core) : Core :=
  { setOpnd c 102 (TWord.ofWord 0x51) with evecNew := some (x.data &&& 0xFFFFFFF0).toNat }

theorem evecNamed_busf {x : TWord} (c : Core) : (evecNamed x c).busf = c.busf := rfl
theorem evecNamed_trapNo {x : TWord} (c : Core) : (evecNamed x c).trapNo = c.trapNo := rfl

/-- A write of EVEC with its number in the same bundle waits for the vector lines (R196). -/
theorem sysMove_evec (hm : canMove v k = true) (huser : userMode (moved v k) = false) (hp : (untag k a).isPoison = false) :
    sysMove nv v k 0x51 a = onMove v k (evecNamed (untag k a)) := by
  have hk := lt_of_canMove hm
  have hnum (c : Core) : sysNum (setOpnd c 102 (TWord.ofWord 0x51)) = 0x51 := by rw [sysNum, opnd_setOpnd]; rfl
  have hfault : execFault v k (setOpnd (modeDue (coreOf v k)) 102 (TWord.ofWord 0x51)).pc none [(⟨0, 103, 0⟩, untag k a)]
      (setOpnd (modeDue (coreOf v k)) 102 (TWord.ofWord 0x51)) = none :=
    execFault_none (trigPriv_supervisor huser) (by simp [movePoison, isControl, hp]) (by simp [trigStack]) (by simp [lsuFault, trigUnit])
      (if_pos (.inr (.inl (by rw [opnd_setOpnd]; decide))))
  have htrig : trig (onMove v k fun c => setOpnd c 102 (TWord.ofWord 0x51)) k 0 103 (untag k a)
      = onMove v k (evecNamed (untag k a)) := by
    show sysWrite _ k (sysNum (coreOf _ k)) _ = _
    rw [coreOf_onMove hk, hnum]
    show setCore _ k { coreOf _ k with evecNew := some _ } = _
    rw [coreOf_onMove hk, setCore_onMove]
    rfl
  have hops : [((102 : Nat), TWord.ofWord 0x51)].foldl (fun c o => setOpnd c o.1 (untag k o.2)) (modeDue (coreOf v k))
      = setOpnd (modeDue (coreOf v k)) 102 (TWord.ofWord 0x51) := congrArg (setOpnd _ 102) (untag_raw k 0x51)
  have hres : trigReserved 103 (untag k a) (setOpnd (modeDue (coreOf v k)) 102 (TWord.ofWord 0x51)) = false :=
    trigReserved_sysW (by rw [hnum]; rfl)
  have hholds : trigHolds k 103 (untag k a) (setOpnd (modeDue (coreOf v k)) 102 (TWord.ofWord 0x51)) = false := rfl
  have hmove := triggerWith_plain (nv := nv) hops (canMove_iff.mp hm).1 hholds (dstOk_common k (by decide)) rfl hres hfault
  have hnamed : setCore v k { setOpnd (modeDue (coreOf v k)) 102 (TWord.ofWord 0x51) with last := none }
    = onMove v k fun c => setOpnd c 102 (TWord.ofWord 0x51) := rfl
  rw [hnamed, htrig, afterIssue_onMove hm evecNamed_busf evecNamed_trapNo] at hmove
  exact hmove

/-- Once the vector lines are in, EVEC takes effect or XSTAT.FERR sets (R196). -/
theorem evecDone_eq {e : Nat} (he : (coreOf v k).evecNew = some e) : evecDone nv v k = onCore (nextFree v) k fun c =>
    if executable nv v e = true ∧ lineErr nv v.free e < 2 ∧ lineErr nv v.free (e + 128) < 2 then
      { setSys c 0x51 (BitVec.ofNat 32 e) with evecNew := none } else { setXBit c 4 true with evecNew := none } := by
  unfold evecDone
  simp only [he, Bool.and_eq_true, decide_eq_true_eq, and_assoc]
  rfl

/-- A mode change whose two bundles have passed takes effect; any other waits (R120). -/
theorem modeApplies_due {u : Bool} (hu : (coreOf v k).modeChg = some (0, u)) :
    modeApplies v k = onCore v k fun c => setUser { c with modeChg := none } u := by
  simp only [modeApplies, onCore, modeDue, hu]

theorem modeApplies_waits (hu : ∀ u, (coreOf v k).modeChg ≠ some (0, u)) : modeApplies v k = v := by
  have hsame : modeDue (coreOf v k) = coreOf v k := by
    unfold modeDue
    split
    · next u h => exact absurd h (hu u)
    · rfl
  rw [modeApplies, onCore, hsame, setCore_self]

end

end Sys2Proof.Machine

namespace Sys2Proof

open Sys2Proof.Machine

/-- Settles O28: each write by what it does to its register, the rest by its move's lemma or by what ends a wait. -/
theorem sysCommandsAct : Obligations.SysCommandsAct := by
  intro s k a v c x n does
  have write {f : Core → Core} (hm : canMove v k = true) (huser : userMode c = false ∨ n < 0x40) (hp : x.isPoison = false)
      (hok : sysOk n true x.data = true) (hload : n ≠ 0x55) (hwrite : ∀ u, sysWrite u k n x = onCore u k f)
      (hbus : ∀ c, (f c).busf = c.busf) (htrap : ∀ c, (f c).trapNo = c.trapNo) : exec (.sysW k a) s = does f :=
    next_withVol (triggerMove_sysW hm rfl huser hp hok hload hwrite hbus htrap)
  refine ⟨fun hm huser => ⟨fun hp hok => ⟨fun hn => ?_, fun hn => ?_, fun hn => ?_, fun hn => ?_, fun hn hcause hresp => ?_,
      fun hn hslots => ?_⟩, fun hok => ?_⟩, fun u hu => ?_, fun hu => ?_, fun hm huser hp => ?_, fun e he => ?_,
    fun hm huser => ⟨fun hds hframe => ?_, fun hn hok => ?_, fun hn hok => ?_⟩⟩
  · exact write hm huser hp hok (by omega) (fun _ => sysWrite_plain hn) (fun _ => rfl) fun _ => rfl
  · exact write hm huser hp hok (by omega) (fun u => by rw [hn]; rfl) (fun _ => rfl) fun _ => rfl
  · exact write hm huser hp hok (by omega) (fun _ => sysWrite_loop hn) (fun _ => rfl) fun _ => rfl
  · exact write hm huser hp hok (by omega) (fun _ => sysWrite_scratch hn) (fun _ => rfl) fun _ => rfl
  · exact write hm huser hp hok (by omega) (fun _ => by rw [hn]; exact sysWrite_cause hcause hresp) (fun _ => rfl) fun _ => rfl
  · exact write hm huser hp hok (by omega) (fun _ => by rw [hn]; exact sysWrite_stat hslots) (fun _ => rfl) fun _ => rfl
  · exact next_withVol (triggerMove_sysR hm rfl huser hok)
  · exact next_withVol (modeApplies_due hu)
  · exact next_withVol (modeApplies_waits hu)
  · exact next_withVol (sysMove_evec hm huser hp)
  · exact next_withVol (evecDone_eq he)
  · exact next_withVol (triggerMove_priv hm (dstOk_common k (by decide)) (fun _ => hds) (trigHolds_retx hframe) rfl
      (by rw [trigPriv, show userMode (modeDue (coreOf v k)) = true from huser]; rfl))
  · exact next_withVol (triggerMove_priv hm (dstOk_common k (by decide)) (fun h => absurd h (by decide)) rfl (trigReserved_sysW hok)
      (trigPriv_sys (.inl rfl) huser hn))
  · exact next_withVol (triggerMove_priv hm (dstOk_common k (by decide)) (fun h => absurd h (by decide)) rfl (trigReserved_sysR hok)
      (trigPriv_sys (.inr rfl) huser hn))

end Sys2Proof
end

section
/-! PROOFS. Taking an exception outside a handler, and the entry of traps and interrupts (O24). -/

namespace Sys2Proof.Machine

/-! ### Sys registers behind writes -/

theorem sysW_setSys (c : Core) (n : Nat) (w : Word) (m : Nat) : sysW (setSys c n w) m = if m = n then w else sysW c m := by
  simp only [sysW, setSys, setSysT, smapGet_set]
  split <;> rfl

@[simp] theorem setSys_g (c : Core) (n : Nat) (w : Word) : (setSys c n w).g = c.g := by rw [setSys, setSysT]

theorem sysW_congr {c c' : Core} (h : c'.sys = c.sys) (n : Nat) : sysW c' n = sysW c n := by rw [sysW, sysW, h]

/-! ### What an entry finds and leaves -/

/-- A flight that lands changes ports and records alone (R125, R145). -/
theorem landFlight_keeps (c : Core) (f : Flight) : (landFlight c f).sys = c.sys ∧ (landFlight c f).g = c.g := by
  have hports (l : List (Nat × TWord)) : ∀ c : Core, (l.foldl (fun c p => setRes c p.1 p.2) c).sys = c.sys
      ∧ (l.foldl (fun c p => setRes c p.1 p.2) c).g = c.g := by
    induction l with
    | nil => exact fun _ => ⟨rfl, rfl⟩
    | cons p l ih => exact fun c => ih (setRes c p.1 p.2)
  obtain ⟨hs, hg⟩ := hports (flightRes f).1 c
  unfold landFlight
  dsimp only
  split
  · exact ⟨hs, hg⟩
  · exact ⟨hs, hg⟩

theorem foldl_landFlight_keeps (l : List Flight) : ∀ c : Core, (l.foldl landFlight c).sys = c.sys ∧ (l.foldl landFlight c).g = c.g := by
  induction l with
  | nil => exact fun _ => ⟨rfl, rfl⟩
  | cons f l ih =>
    intro c
    obtain ⟨hs, hg⟩ := landFlight_keeps c f
    obtain ⟨hs', hg'⟩ := ih (landFlight c f)
    exact ⟨hs'.trans hs, hg'.trans hg⟩

/-- What an entry finds of its core keeps the general registers, and the sys registers but MODE. -/
theorem frozen_keeps (c : Core) : (frozen c).g = c.g ∧ ∀ n, n ≠ 0x40 → sysW (frozen c) n = sysW c n := by
  have hland : (frozen c).sys = (modeDue c).sys ∧ (frozen c).g = (modeDue c).g := by
    unfold frozen
    dsimp only
    obtain ⟨hs, hg⟩ := foldl_landFlight_keeps ((modeDue c).fl.filter splitLoad)
      { modeDue c with fl := (modeDue c).fl.filter fun f => !splitLoad f }
    split
    · exact ⟨hs, hg⟩
    · exact ⟨hs, hg⟩
  obtain ⟨hs, hg⟩ := hland
  refine ⟨hg.trans ?_, fun n hn => ?_⟩
  · rw [modeDue_eq]
  · rw [sysW, hs]
    exact sysW_modeDue c hn

theorem captureFault_keeps (v : Vol) (k : Nat) (f : CFault) (bun : BitVec 128) :
    (captureFault v k f bun).cores = v.cores ∧ (captureFault v k f bun).sram = v.sram := by
  unfold captureFault
  split
  · exact ⟨rfl, rfl⟩
  · extract_lets a counted seen noted put shown at' addr opc oinfo number cyc drop
    have hcounted : counted.cores = v.cores ∧ counted.sram = v.sram := by
      simp only [counted, rgIncSat]
      split <;> exact ⟨rfl, rfl⟩
    split
    · exact hcounted
    · have hfold {α : Type} (g : Vol → α) (hg : ∀ u a w, g (rgSet u a w) = g u) (b : BitVec 128) :
          g ((List.range 4).foldl (fun v i => rgSet v (a (0x120 + 4 * i)) (bunWord b i)) drop) = g counted := by
        rw [foldl_keeps g _ _ fun i _ u => hg u _ _]
        simp only [drop, cyc, number, oinfo, opc, addr, at', shown, noted, put, rgOr, hg]
      exact ⟨(hfold (·.cores) rgSet_cores _).trans hcounted.1, (hfold (·.sram) rgSet_sram _).trans hcounted.2⟩

theorem raiseIf_keeps (b : Bool) (v : Vol) (p i : Nat) : (raiseIf b v p i).cores = v.cores ∧ (raiseIf b v p i).sram = v.sram := by
  unfold raiseIf
  split
  · exact ⟨raiseEvent_cores .., raiseEvent_sram ..⟩
  · exact ⟨rfl, rfl⟩

/-- No block operation runs that would catch up with the time (R117). -/
theorem repCatch_idle {v : Vol} {k : Nat} (h : ((coreOf v k).long.any fun l => l.kind == 3) = false) : repCatch v k = (v, none) := by
  have hnone : ((coreOf v k).long.find? fun l => l.kind == 3) = none := by
    rw [List.find?_eq_none]
    exact fun l hl => by simpa using List.any_eq_false.mp h l hl
  unfold repCatch
  rw [hnone]

/-- The core that an entry outside a handler leaves: the cause and EPC in their sys registers, supervisor mode at EVEC (R191-R194). -/
structure Entered (c c' : Core) (f : CFault) (epc : Nat) : Prop where
  cause : sysW c' 0x4A = causeWord f
  epc   : sysW c' 0x48 = BitVec.ofNat 32 (epc / 16 * 16)
  pc    : c'.pc = (sysW c 0x51).toNat / 16 * 16
  mode  : userMode c' = false
  g     : c'.g = c.g

theorem enterExc_enters {v : Vol} {k : Nat} {f : CFault} {bun : BitVec 128} {epc : Nat} {le : Bool} (hk : k < v.cores.length)
    (hact : xActive (coreOf v k) = false) (hrep : ((coreOf v k).long.any fun l => l.kind == 3) = false) :
    Entered (coreOf v k) (coreOf (enterExc v k f bun epc le) k) f epc ∧ (enterExc v k f bun epc le).sram = v.sram
      ∧ (enterExc v k f bun epc le).cores.length = v.cores.length := by
  obtain ⟨hg, hsys⟩ := frozen_keeps (coreOf v k)
  unfold enterExc
  rw [if_neg (by simp [hact]), repCatch_idle hrep]
  extract_lets v0 c impr ds pm estat put a1 a2 a3 a4 a5 a6 a7 a8 at' dep c' v1 v2 v3 v4
  have hsaved : sysW a8 0x4A = causeWord f ∧ sysW a8 0x48 = BitVec.ofNat 32 (epc / 16 * 16) ∧ sysW a8 0x40 = 0 := by
    simp [a8, a7, a6, a5, a4, a3, a2, a1, put, setXBit, setUser, sysW_setSys, List.range_succ]
  have hregs : a8.g = (coreOf v k).g := by
    simpa [a8, a7, a6, a5, a4, a3, a2, a1, put, setXBit, setUser, List.range_succ] using hg
  clear_value a8
  have hcore : c'.sys = a8.sys ∧ c'.g = a8.g ∧ c'.pc = (sysW c 0x51).toNat / 16 * 16 := ⟨rfl, rfl, rfl⟩
  clear_value c'
  have hvol : coreOf v1 k = c' ∧ v1.sram = v.sram ∧ v1.cores.length = v.cores.length := by
    refine ⟨?_, rfl, List.length_set⟩
    rw [coreOf_setCore, if_pos hk]
  clear_value v1
  have hkept : (raiseIf (impr || f.sb) v4 (pCore k) 4).cores = v1.cores ∧ (raiseIf (impr || f.sb) v4 (pCore k) 4).sram = v1.sram := by
    simp only [v4, v3, v2, raiseIf_keeps, captureFault_keeps, raiseEvent_cores, raiseEvent_sram, and_self]
  obtain ⟨hcores, hsram⟩ := hkept
  obtain ⟨hcur, hsame, hlen⟩ := hvol
  obtain ⟨hcause, hepc, hmode⟩ := hsaved
  obtain ⟨hs, hg', hpc⟩ := hcore
  have hcore' : coreOf (raiseIf (impr || f.sb) v4 (pCore k) 4) k = c' := by
    rw [coreOf, hcores]; exact hcur
  refine ⟨?_, hsram.trans hsame, (congrArg List.length hcores).trans hlen⟩
  rw [hcore']
  refine ⟨(sysW_congr hs _).trans hcause, (sysW_congr hs _).trans hepc, ?_, ?_, hg'.trans hregs⟩
  · rw [hpc, hsys 0x51 (by decide)]
  · rw [userMode, sysW_congr hs, hmode]; rfl

/-! ### The cause record -/

theorem fld_causeWord_code (f : CFault) : fld (causeWord f) 5 0 = f.code % 64 := by
  simp only [fld, causeWord, BitVec.toNat_ofNat]
  omega

theorem fld_causeWord_info (f : CFault) : fld (causeWord f) 30 22 = f.info % 512 := by
  simp only [fld, causeWord, BitVec.toNat_ofNat]
  have hpart : b2n f.part ≤ 1 := by cases f.part <;> decide
  have himpr : b2n (imprCause f.code || f.sb) ≤ 1 := by cases (imprCause f.code || f.sb) <;> decide
  have hsrc : b2n f.src ≤ 1 := by cases f.src <;> decide
  omega

/-! ### Traps and interrupts -/

section
variable {nv : Nv} {v : Vol} {k n : Nat}

/-- The trap of a bundle enters at once, what its other moves have recorded stays (R107, R184, R195). -/
theorem afterIssue_trap (htrap : (coreOf v k).trapNo = some n) (hbus : (coreOf v k).busf = none) :
    afterIssue nv v k = onCore (enterExc v k { cfault 2 0 0 (curBundle v k) with info := n } 0 (coreOf v k).pc (coreOf v k).le) k
      fun t => { t with impr := (coreOf v k).impr } := by
  unfold afterIssue
  simp only [htrap, hbus, Option.isSome_none, Bool.and_false, Bool.false_eq_true, if_false, setCore_self]

/-- What an entry has left is said of any core with the same EVEC and general registers. -/
theorem Entered.of_same {c₁ c₂ c' : Core} {f : CFault} {epc : Nat} (h : Entered c₁ c' f epc)
    (hevec : sysW c₁ 0x51 = sysW c₂ 0x51) (hg : c₁.g = c₂.g) : Entered c₂ c' f epc :=
  ⟨h.cause, h.epc, by rw [h.pc, hevec], h.mode, h.g.trans hg⟩

/-- A core that a bundle's trap has been recorded in (R107). -/
def trapped (c : Core) (n : Nat) : Core := { c with trapNo := some n }

/-- A move to `cu.trap` enters the handler with the trap's number. -/
theorem triggerMove_trap {a : TWord} (hm : canMove v k = true) (hact : xActive (coreOf v k) = false)
    (hrep : ((coreOf v k).long.any fun l => l.kind == 3) = false) :
    Entered (coreOf v k) (coreOf (triggerMove nv v k 90 a) k) { cfault 2 0 0 (curBundle v k) with info := (untag k a).data.toNat % 256 }
      (coreOf v k).pc ∧ (triggerMove nv v k 90 a).sram = v.sram := by
  have hk := lt_of_canMove hm
  obtain ⟨-, hbus, -⟩ := canMove_iff.mp hm
  have htake : canTake v k 90 (untag k a) = true :=
    canTake_control hm (dstOk_common k (by decide)) (.inl rfl) (fun h => absurd h (by decide)) rfl rfl (by simp [trigPriv])
      (by simp [movePoison, isControl]) (by simp [trigStack]) (.inl (by decide))
  let u := onMove v k fun c => trapped c ((untag k a).data.toNat % 256)
  have hu : coreOf u k = trapped (moved v k) ((untag k a).data.toNat % 256) := coreOf_onMove hk _
  have htrig : trig (onMove v k fun c => c) k 0 90 (untag k a) = u := by
    show setCore _ k (trapped (coreOf _ k) _) = _
    rw [setCore_onMove, coreOf_onMove hk]
    rfl
  have hbus' : (coreOf u k).busf = none := by rw [hu]; exact (moved_busf v k).trans hbus
  have hrep' : ((coreOf u k).long.any fun l => l.kind == 3) = false := by rw [hu]; exact (congrArg (List.any · _) (moved_long v k)).trans hrep
  have hsys (n : Nat) (hn : n ≠ 0x40) : sysW (coreOf u k) n = sysW (coreOf v k) n := by rw [hu]; exact sysW_moved v k hn
  have hact' : xActive (coreOf u k) = false := by rw [xActive, hsys _ (by decide)]; exact hact
  have hpc : (coreOf u k).pc = (coreOf v k).pc := by rw [hu]; exact moved_pc v k
  have hg : (coreOf u k).g = (coreOf v k).g := by rw [hu]; exact moved_g v k
  have hlen : u.cores.length = v.cores.length := List.length_set
  obtain ⟨hent, hsram, hlen'⟩ := enterExc_enters (f := { cfault 2 0 0 (curBundle u k) with info := (untag k a).data.toNat % 256 })
    (bun := 0) (epc := (coreOf u k).pc) (le := (coreOf u k).le) (hlen ▸ hk) hact' hrep'
  obtain ⟨hcause, hepc, hat, hmode, hregs⟩ := hent.of_same (hsys _ (by decide)) hg
  rw [triggerMove_of_canTake htake, htrig, afterIssue_trap (by rw [hu]; rfl) hbus', ← hpc]
  refine ⟨?_, hsram⟩
  rw [coreOf_onCore _ _ _ (by rw [hlen', hlen]; exact hk)]
  exact ⟨hcause, hepc, hat, hmode, hregs⟩

/-- With nothing recorded no fault comes before the next bundle (R184). -/
theorem takePending_none (hsb : (coreOf v k).sbf = none) (hbus : (coreOf v k).busf = none) (himpr : (coreOf v k).impr = []) :
    takePending nv v k = none := by
  unfold takePending
  simp only [hsb, hbus, himpr]

/-- The service core's interrupt enters the handler with the number of its source (R198, R300). -/
theorem enterInterrupt_eq (hsrc : intSource v = some n) (hall : intAllowed v = true) (hsb : (coreOf v 8).sbf = none)
    (hbus : (coreOf v 8).busf = none) (himpr : (coreOf v 8).impr = []) (hrep : ((coreOf v 8).long.any fun l => l.kind == 3) = false) :
    enterInterrupt nv v = enterExc v 8 { cfault 1 0 0 (coreOf v 8).pc with info := n } 0 (coreOf v 8).pc (coreOf v 8).le := by
  have hlive : repLive v 8 = v := by rw [repLive, repCatch_idle hrep]
  unfold enterInterrupt
  simp only [hsrc, hall, hlive, takePending_none hsb hbus himpr, Bool.not_true, Bool.false_eq_true, if_false]

theorem xActive_of_intAllowed (h : intAllowed v = true) : xActive (coreOf v 8) = false := by
  simp only [intAllowed, Bool.and_eq_true, Bool.not_eq_true'] at h
  exact h.2

end

end Sys2Proof.Machine

namespace Sys2Proof

open Sys2Proof.Machine

/-- Settles O24: both entries leave the core that `enterExc_enters` describes, and the fields of ECAUSE are those of `causeWord`. -/
theorem trapAndInterruptEnter : Obligations.TrapAndInterruptEnter := by
  intro s k a
  refine ⟨fun hm hact _ hrep => ?_, fun n hsrc hall hbus himpr hsb hlen hrep => ?_⟩
  · obtain ⟨hent, hsram⟩ := triggerMove_trap (nv := s.nv) (a := a) hm hact hrep
    have hdata : (untag k a).data = a.data := by unfold untag; split <;> rfl
    refine ⟨_, rfl, ?_, ?_, hent.epc, hent.pc, hent.mode, hent.g, hsram, rfl⟩
    · exact (congrArg (fld · 5 0) hent.cause).trans (fld_causeWord_code _)
    · refine (congrArg (fld · 30 22) hent.cause).trans ((fld_causeWord_info _).trans ?_)
      show (untag k a).data.toNat % 256 % 512 = _
      rw [hdata]; omega
  · obtain ⟨hent, hsram, -⟩ := enterExc_enters (f := { cfault 1 0 0 (coreOf s.vol 8).pc with info := n }) (bun := 0)
      (epc := (coreOf s.vol 8).pc) (le := (coreOf s.vol 8).le) hlen (xActive_of_intAllowed hall) hrep
    refine ⟨_, next_withVol (enterInterrupt_eq hsrc hall hsb hbus himpr hrep), ?_, ?_, hent.epc, hent.pc, hent.g, hsram, rfl⟩
    · exact (congrArg (fld · 5 0) hent.cause).trans (fld_causeWord_code _)
    · exact (congrArg (fld · 30 22) hent.cause).trans (fld_causeWord_info _)

end Sys2Proof
end

section
/-! PROOFS. A bundle with one register move (O30): a store-buffer BUS fault that waits is taken before the next bundle issues (R210), and
the statement does not leave out a core for which one waits. -/

namespace Sys2Proof.Machine

/-- A service core at the bundle of flash 0x100, with a BUS fault of its store buffer recorded and no handler running (R210). -/
def sbFaultCore : Core :=
  { Core.reset with run := true, pc := 0x100, sbf := some ({ cfault 0x0F 0 80 0xF0 with sb := true, resp := 2 }, false) }

/-- A part in RUN with the domains up and that core, whose flash holds at 0x100 the bundle that moves g5 to g7 in lane 0. -/
def sbFaultAtMove : State :=
  { State.reset with
    nv := { State.reset.nv with flash := [(0x100, 0x03850000), (0x104, 0), (0x108, 0), (0x10C, 0)] }
    vol := { State.reset.vol with
      regs := smapSet regReset State.reset.vol.regs 0x4000204C 0xFFFFFFFF
      sys := { State.reset.vol.sys with mode := .run }
      cores := State.reset.vol.cores.set 8 sbFaultCore } }

/-- The core takes the fault: it stands at the bundle that EVEC names, not behind the move. -/
theorem issueBundle_sbFaultAtMove_pc : (coreOf (issueBundle sbFaultAtMove.nv sbFaultAtMove.vol 8) 8).pc = 0 := by decide +kernel

theorem sbFaultAtMove_issues :
    canMove sbFaultAtMove.vol 8 = true ∧ 8 < sbFaultAtMove.vol.cores.length
      ∧ executable sbFaultAtMove.nv sbFaultAtMove.vol (coreOf sbFaultAtMove.vol 8).pc = true
      ∧ lineErr sbFaultAtMove.nv sbFaultAtMove.vol.free (coreOf sbFaultAtMove.vol 8).pc = 0 := by decide +kernel

/-- Its bundle is the one ungated move from g5 to g7. -/
theorem sbFaultAtMove_bundle :
    let bun := fetchedAt sbFaultAtMove.nv sbFaultAtMove.vol (coreOf sbFaultAtMove.vol 8).pc
    bunBadHeader bun = false ∧ bunFmt bun = 0 ∧ bunMoves bun = [⟨0, 7, 5⟩] ∧ bunGen bun 0 = false := by decide +kernel

end Sys2Proof.Machine

namespace Sys2Proof

open Sys2Proof.Machine

/-- Refutes O30: a BUS fault of the store buffer waits, and the service core enters its handler before the bundle. -/
theorem not_registerMoveBundleIssues : ¬ Obligations.RegisterMoveBundleIssues := by
  intro h
  obtain ⟨hmove, hlen, hexecutable, hline⟩ := sbFaultAtMove_issues
  obtain ⟨hheader, hfmt, hmoves, hgen⟩ := sbFaultAtMove_bundle
  obtain ⟨t, hexec, -, -, hpc, -⟩ := h sbFaultAtMove 8 0 7 5 hmove hlen rfl rfl rfl rfl rfl rfl rfl rfl hexecutable hline hheader hfmt
    hmoves hgen (by decide) (by decide)
  have ht : withVol sbFaultAtMove (issueBundle sbFaultAtMove.nv sbFaultAtMove.vol 8) = t := Host.Outcome.next.inj hexec
  rw [← ht] at hpc
  exact absurd (issueBundle_sbFaultAtMove_pc.symm.trans hpc) (by decide)

end Sys2Proof
end

section
/-! SUPPORT. Words of SRAM with sound check bits (R252), the turn of a processor at a shared bank (R220, R259), and where an address leads
(R34). -/

namespace Sys2Proof.Machine

/-! ### Sound words -/

theorem sramRead_sound {v : Vol} {key m : Nat} (h : wrongBits v key = 0) : sramRead v key m = (v, some (sramWord v key)) := by
  unfold sramRead
  rw [if_pos h]

theorem sramWord_congr {v v' : Vol} (h : v'.sram = v.sram) (key : Nat) : sramWord v' key = sramWord v key := by
  rw [sramWord, h]

/-! ### The turn at a shared bank -/

/-- A debit changes the tick's account alone. -/
theorem debit_rest (v : Vol) (k flag n : Nat) : debit v k flag n = { v with tick := (debit v k flag n).tick } := by
  unfold debit
  split <;> rfl

theorem debit_cores (v : Vol) (x : List Core) (k flag n : Nat) : debit { v with cores := x } k flag n = { debit v k flag n with cores := x } := by
  unfold debit
  split <;> rfl

/-- Each processor whose turn comes behind k's waits one cycle more (log entry 104). -/
def lateDebited (ptr k : Nat) (others : List Nat) (v : Vol) : Vol :=
  (others.filter fun m => decide (bankTurn ptr k < bankTurn ptr m)).foldl (fun v m => debit v m 4 1) v

theorem lateDebited_rest (ptr k : Nat) (others : List Nat) (v : Vol) :
    lateDebited ptr k others v = { v with tick := (lateDebited ptr k others v).tick } := by
  have hfold (l : List Nat) : ∀ v : Vol, ∃ t, l.foldl (fun v m => debit v m 4 1) v = { v with tick := t } := by
    induction l with
    | nil => exact fun v => ⟨v.tick, rfl⟩
    | cons m l ih =>
      intro v
      obtain ⟨t, ht⟩ := ih (debit v m 4 1)
      exact ⟨t, by rw [List.foldl_cons, ht, debit_rest]⟩
  obtain ⟨t, ht⟩ := hfold (others.filter fun m => decide (bankTurn ptr k < bankTurn ptr m)) v
  rw [lateDebited, ht]

theorem lateDebited_cores (ptr k : Nat) (others : List Nat) (v : Vol) (x : List Core) :
    lateDebited ptr k others { v with cores := x } = { lateDebited ptr k others v with cores := x } := by
  unfold lateDebited
  induction others.filter fun m => decide (bankTurn ptr k < bankTurn ptr m) generalizing v with
  | nil => rfl
  | cons m l ih => rw [List.foldl_cons, List.foldl_cons, debit_cores, ih]

/-- A bank's use by processor k, with the pointer and the other processors that wait (R259). -/
def bankUsed (v : Vol) (k b : Nat) (now : Nat × List Nat) : Vol :=
  { v with mtx := { v.mtx with winner := smapSet (fun _ => 0) v.mtx.winner (181 + b) now.1
                               bankUse := smapSet (fun _ => (0, [])) v.mtx.bankUse b (v.now, k :: now.2.filter (· != k)) } }

/-- What a processor's access to a shared bank leaves before it takes its ID: the bank's rotation and users, and the waits' debits
(R68, R220, R259). -/
def bankTaken (v : Vol) (k b : Nat) (now : Nat × List Nat) : Vol :=
  let others := now.2.filter (· != k)
  let own := others.countP fun m => decide (bankTurn now.1 m < bankTurn now.1 k)
  let late := lateDebited now.1 k others (bankUsed v k b now)
  if own = 0 then late else debit late k 4 own

theorem bankTaken_rest (v : Vol) (k b : Nat) (now : Nat × List Nat) :
    bankTaken v k b now = { v with mtx := (bankTaken v k b now).mtx, tick := (bankTaken v k b now).tick } := by
  unfold bankTaken
  dsimp only
  split
  · rw [lateDebited_rest]; rfl
  · rw [debit_rest, lateDebited_rest]; rfl

/-- The bank's turn does not look at the cores. -/
theorem bankTaken_cores (v : Vol) (x : List Core) (k b : Nat) (now : Nat × List Nat) :
    bankTaken { v with cores := x } k b now = { bankTaken v k b now with cores := x } := by
  have hlate := lateDebited_cores now.1 k (now.2.filter (· != k)) (bankUsed v k b now) x
  unfold bankTaken
  rw [show bankUsed { v with cores := x } k b now = { bankUsed v k b now with cores := x } from rfl]
  dsimp only
  rw [hlate]
  split
  · rfl
  · exact debit_cores _ _ _ _ _

theorem sharedTurn_eq (v : Vol) (k : Nat) (p : Place) : (sharedTurn v k p).1 = if p.dom < 81 then v
    else idTaken (bankTaken v k (sharedBank p.key) (bankNow v (sharedBank p.key))) k (coreOf v k).busId := by
  unfold sharedTurn
  split
  · rfl
  · let now := bankNow v (sharedBank p.key)
    have hcore : coreOf (lateDebited now.1 k (now.2.filter (· != k)) (bankUsed v k (sharedBank p.key) now)) k = coreOf v k := by
      rw [lateDebited_rest]; rfl
    rw [← hcore]
    rfl

/-- A processor's turn changes the matrix's bookkeeping, the tick's account and its own ID counter alone. -/
theorem sharedTurn_rest (v : Vol) (k : Nat) (p : Place) : (sharedTurn v k p).1
    = { v with mtx := (sharedTurn v k p).1.mtx, tick := (sharedTurn v k p).1.tick, cores := (sharedTurn v k p).1.cores } := by
  rw [sharedTurn_eq]
  split
  · rfl
  · rw [idTaken]
    split
    · rw [bankTaken_rest]; rfl
    · rw [bankTaken_rest]

theorem wrongBits_sharedTurn (v : Vol) (k : Nat) (p : Place) (key : Nat) : wrongBits (sharedTurn v k p).1 key = wrongBits v key := by
  rw [sharedTurn_rest]; rfl

theorem sramWord_sharedTurn (v : Vol) (k : Nat) (p : Place) (key : Nat) : sramWord (sharedTurn v k p).1 key = sramWord v key := by
  rw [sharedTurn_rest]

/-! ### Where an address leads -/

theorem place_lt {a : Nat} {p : Place} (h : place a = some p) : a < 0x24000000 := by
  by_contra hge
  unfold place at h
  rw [if_neg (by omega), if_neg (by omega), if_neg (by omega)] at h
  exact absurd h (by simp)

/-- The state in which a master's access to SRAM is made: a processor has taken its turn (R220). -/
abbrev turned (v : Vol) (m : Nat) (p : Place) : Vol := if m < 9 then (sharedTurn v m p).1 else v

theorem wrongBits_turned (v : Vol) (m : Nat) (p : Place) (key : Nat) : wrongBits (turned v m p) key = wrongBits v key := by
  unfold turned
  split
  · exact wrongBits_sharedTurn v m p key
  · rfl

theorem sramWord_turned (v : Vol) (m : Nat) (p : Place) (key : Nat) : sramWord (turned v m p) key = sramWord v key := by
  unfold turned
  split
  · exact sramWord_sharedTurn v m p key
  · rfl

section
variable {nv : Nv} {v : Vol} {m id a : Nat} {w : TWord} {p : Place}

/-- A word access to an SRAM that is up and not being wiped reaches it (R276). -/
theorem route_sram {write : Bool} (hp : place a = some p) (h4 : a % 4 = 0) :
    route nv v ⟨m, id, write, .word, a, w⟩ = sramAccess v p ⟨m, id, write, .word, a, w⟩ := by
  have hlt := place_lt hp
  simp only [route, if_neg (show ¬ 0x40000000 ≤ a by omega), h4, sizeBytes, hp]
  rfl

theorem sramAccess_write {u : Vol} (h4 : a % 4 = 0) (hup : domUp v p.dom = true) (hwipe : wiping v p.dom = false)
    (hstore : (sramStore (turned v m p) m 4 a p 0xFFFFFFFF w).1 = some u) :
    sramAccess v p ⟨m, id, true, .word, a, w⟩ = (answer u 0 TWord.zero, false) := by
  have hlanes : (⟨w.data <<< (8 * (a % 4)), w.tag⟩ : TWord) = w := by rw [h4]; simp
  have hmask : byteMask (a % 4) 4 = 0xFFFFFFFF := by rw [h4]; rfl
  simp only [sramAccess, hwipe, hup, Bool.false_eq_true, if_false, Bool.not_true, sizeBytes, hmask, hlanes, if_true]
  split
  · next u' _ h => rw [show u' = u from Option.some.inj (by rw [← hstore, h])]
  · next _ h => rw [h] at hstore; exact absurd hstore (by simp)

end

end Sys2Proof.Machine
end

section
/-! PROOFS. Writes through the windows of SRAM (O13). -/

namespace Sys2Proof.Machine

/-- What a window makes of a stored word (R255, R256). -/
def windowWord (win : Win) (old w : TWord) : TWord :=
  match win with
  | .direct => w
  | .setBits => ⟨old.data ||| w.data, old.tag⟩
  | .clearBits => ⟨old.data &&& ~~~w.data, old.tag⟩
  | .tagView => ⟨old.data, w.data.setWidth 4⟩

theorem sramStore_window {v : Vol} {m a : Nat} {p : Place} {w : TWord} (hwin : p.win ≠ .direct) (h4 : a % 4 = 0)
    (hsound : wrongBits v p.key = 0) :
    (sramStore v m 4 a p 0xFFFFFFFF w).1 = some (sramPut v p.key (windowWord p.win (sramWord v p.key) w)) := by
  unfold sramStore
  cases h : p.win
  case direct => exact absurd h hwin
  all_goals
    dsimp only
    rw [if_neg (by simp [h4]), sramRead_sound hsound]
    rfl

end Sys2Proof.Machine

namespace Sys2Proof

open Sys2Proof.Machine

/-- Settles O13: the write reaches the word in the processor's turn, and the window makes the new word. -/
theorem sramWindowsChangeOneWord : Obligations.SramWindowsChangeOneWord := by
  intro s m a pl w hbus hp h4 hup hwipe hsound old turn to'
  have hwrite (hwin : pl.win ≠ .direct) : busWrite s.nv s.vol m .word a.toNat w
      = finish s.nv (answer (sramPut turn pl.key (windowWord pl.win old w)) 0 TWord.zero) ⟨m, masterId s.vol m, true, .word, a.toNat, w⟩ := by
    have hstore := sramStore_window (v := turned s.vol m pl) (m := m) (w := w) hwin h4 (by rw [wrongBits_turned, hsound])
    rw [sramWord_turned] at hstore
    rw [busWrite, busAccess_open s.nv s.vol _ hbus rfl, route_sram hp h4, sramAccess_write h4 hup hwipe hstore]
  have hto (hwin : pl.win ≠ .direct) : (.next (withVol s (busWrite s.nv s.vol m .word a.toNat w)) : Out)
      = .next (to' (windowWord pl.win old w)) := congrArg (fun v => (.next (withVol s v) : Out)) (hwrite hwin)
  refine ⟨fun hwin => ?_, fun hwin => ?_, fun hwin => ?_⟩
  all_goals
    refine (hto (by rw [hwin]; decide)).trans ?_
    rw [hwin]
    rfl

end Sys2Proof
end

section
/-! SUPPORT. The load and store triggers (R101, R102, R209): the words and bytes that an access names, the turn at a shared bank of a core
that moves, and what a trigger makes of its core. -/

namespace Sys2Proof.Machine

/-! ### Words and bytes -/

/-- An address and its word lie at one place. -/
theorem place_word (a : Nat) : place (a / 4 * 4) = place a := by
  have hw : a / 4 * 4 - a / 4 * 4 % 4 = a - a % 4 := by omega
  have h1 : (0x10000000 ≤ a / 4 * 4 ∧ a / 4 * 4 < 0x10800000) ↔ 0x10000000 ≤ a ∧ a < 0x10800000 := by omega
  have h2 : (0x10800000 ≤ a / 4 * 4 ∧ a / 4 * 4 < 0x10A00000) ↔ 0x10800000 ≤ a ∧ a < 0x10A00000 := by omega
  have h3 : (0x20000000 ≤ a / 4 * 4 ∧ a / 4 * 4 < 0x24000000 ∧ a / 4 * 4 % 0x1000000 < 0x200000)
      ↔ 0x20000000 ≤ a ∧ a < 0x24000000 ∧ a % 0x1000000 < 0x200000 := by omega
  unfold place
  simp only [hw, h1, h2, h3]
  split
  · rw [show (a / 4 * 4 - 0x10000000) / 0x100000 = (a - 0x10000000) / 0x100000 by omega]
  · split
    · rfl
    · split
      · rw [show (a / 4 * 4 - 0x20000000) / 0x1000000 = (a - 0x20000000) / 0x1000000 by omega]
      · rfl

theorem winOf_direct {n : Nat} (h : winOf n = .direct) : n = 0 := by
  unfold winOf at h
  split at h
  · assumption
  · split at h
    · simp at h
    · split at h <;> simp at h

/-- A word of a direct window is named by its address. -/
theorem place_key {a : Nat} {p : Place} (h : place a = some p) (hw : p.win = .direct) : p.key = a / 4 * 4 := by
  unfold place at h
  simp only at h
  split at h
  · obtain rfl := Option.some.inj h
    have := winOf_direct hw
    simp only
    omega
  · split at h
    · obtain rfl := Option.some.inj h
      have := winOf_direct hw
      simp only
      omega
    · split at h
      · obtain rfl := Option.some.inj h
        have := winOf_direct hw
        simp only
        omega
      · simp at h

/-- The domain of an SRAM says whether its words have tags (R253). -/
theorem place_tagged {a : Nat} {p : Place} (h : place a = some p) (hdom : p.dom ≠ 18) : p.tagged = true := by
  unfold place at h
  simp only at h
  split at h
  · obtain rfl := Option.some.inj h; rfl
  · split at h
    · obtain rfl := Option.some.inj h; exact absurd rfl hdom
    · split at h
      · obtain rfl := Option.some.inj h; rfl
      · simp at h

/-- A byte of n bytes of x that begin `off` bytes into a row of words. -/
theorem byte_of_shifted (x : Nat) {n off j i b : Nat} (hj : j < n) (hb : b < 4) (hpos : 4 * i + b = off + j) :
    x % 2 ^ (8 * n) * 2 ^ (8 * off) / 2 ^ (32 * i) % 2 ^ 32 / 2 ^ (8 * b) % 2 ^ 8 = x / 2 ^ (8 * j) % 2 ^ 8 := by
  refine Nat.eq_of_testBit_eq fun t => ?_
  by_cases ht : t < 8
  · simp only [Nat.testBit_mod_two_pow, Nat.testBit_div_two_pow, Nat.testBit_mul_two_pow, ht, decide_true, Bool.true_and,
      decide_eq_true (show t + 8 * b < 32 by omega), decide_eq_true (show 8 * off ≤ t + 8 * b + 32 * i by omega),
      show t + 8 * b + 32 * i - 8 * off = t + 8 * j by omega, decide_eq_true (show t + 8 * j < 8 * n by omega)]
  · simp only [Nat.testBit_mod_two_pow, ht, decide_false, Bool.false_and]

theorem byteMask_word : byteMask 0 4 = 0xFFFFFFFF := by decide

/-- A halfword or a byte is not the whole word. -/
theorem byteMask_part {off n : Nat} (hoff : off < 4) (hn : n = 2 ∨ n = 1) : byteMask off n ≠ 0xFFFFFFFF := by
  rcases hn with rfl | rfl <;> interval_cases off <;> decide

/-- A store of a control core through a direct window to tagged SRAM, as its bytes lie in the word (R102, R253). -/
theorem sramStore_direct (u : Vol) {k n a : Nat} {p : Place} {x : TWord} (hdir : p.win = .direct) (htag : p.tagged = true) (h8 : k < 8)
    (hword : wrongBits u p.key = 0) (hn : n = 4 ∧ a % 4 = 0 ∨ n = 2 ∨ n = 1) :
    sramStore u k n a p (byteMask (a % 4) n) ⟨x.data <<< (8 * (a % 4)), x.tag⟩ = (some (sramPut u p.key (if n = 4 then x else
      ⟨((sramWord u p.key).data &&& ~~~byteMask (a % 4) n) ||| ((x.data <<< (8 * (a % 4))) &&& byteMask (a % 4) n),
        (sramWord u p.key).tag⟩)), u) := by
  have hcarries : carriesTag k = true := by simp [carriesTag, h8]
  rcases hn with ⟨rfl, h0⟩ | hn
  · simp [sramStore, hdir, h0, byteMask_word, htag, hcarries]
  · rw [if_neg (by omega)]
    simp only [sramStore, hdir, if_neg (byteMask_part (Nat.mod_lt a (by decide)) hn), sramRead_sound hword]

/-! ### Values loaded -/

/-- The word that a load finds at an address, its check bits sound (R102, R253). -/
def soundWord (v : Vol) (x : Nat) : TWord :=
  match place x with
  | some p => loadTag p (sramWord v p.key)
  | none => TWord.zero

/-- The value of a load from words with sound check bits (R102, R104). -/
def soundValue (v : Vol) (a n : Nat) (sx : Bool) : TWord :=
  if a % 4 + n ≤ 4 then pickBytes (soundWord v (a / 4 * 4)) (a % 4) n sx
  else pickBytes ⟨BitVec.ofNat 32 (((soundWord v (a / 4 * 4)).data.toNat + (soundWord v (a / 4 * 4 + 4)).data.toNat * 2 ^ 32)
    / 2 ^ (8 * (a % 4))), Tag.raw⟩ 0 n sx

theorem soundValue_congr {v v' : Vol} (h : v'.sram = v.sram) (a n : Nat) (sx : Bool) : soundValue v' a n sx = soundValue v a n sx := by
  simp only [soundValue, soundWord, sramWord_congr h]

/-- A load from sound words changes nothing of memory. -/
theorem fastLoad_sound {v : Vol} {k a n : Nat} (sx : Bool) (h0 : ∀ p, place (a / 4 * 4) = some p → wrongBits v p.key = 0)
    (h1 : 4 < a % 4 + n → ∀ p, place (a / 4 * 4 + 4) = some p → wrongBits v p.key = 0) :
    fastLoad v k a n sx = (v, soundValue v a n sx) := by
  have hread (x : Nat) (hx : ∀ p, place x = some p → wrongBits v p.key = 0) (p : Place) (hp : place x = some p) :
      sramRead v p.key k = (v, some (sramWord v p.key)) := sramRead_sound (hx p hp)
  unfold fastLoad sramValue soundValue soundWord
  simp only [List.foldl_nil]
  by_cases hn : a % 4 + n ≤ 4
  · rw [if_pos hn, if_pos hn]
    cases hp : place (a / 4 * 4) with
    | none => rfl
    | some p => simp only [hread _ h0 p hp]
  · rw [if_neg hn, if_neg hn]
    have hsecond (q : Place) (hq : place (a / 4 * 4 + 4) = some q) := hread _ (h1 (by omega)) q hq
    cases hp : place (a / 4 * 4) with
    | none =>
      cases hq : place (a / 4 * 4 + 4) with
      | none => rfl
      | some q => simp only [hsecond q hq]
    | some p =>
      cases hq : place (a / 4 * 4 + 4) with
      | none => simp only [hread _ h0 p hp]
      | some q => simp only [hread _ h0 p hp, hsecond q hq]

/-! ### Places that a core reaches directly -/

/-- A core reaches directly what lies in a direct window of its own or of the shared SRAM, up and not being wiped (R102, R217). -/
theorem fastPlace_spec {v : Vol} {k a : Nat} {p : Place} (h : fastPlace v k a = some p) :
    place a = some p ∧ p.win = .direct ∧ (p.dom = 10 + k ∨ 81 ≤ p.dom) := by
  unfold fastPlace at h
  split at h
  · next q hq =>
    split at h
    · next hc =>
      obtain rfl := Option.some.inj h
      exact ⟨hq, hc.1, hc.2.1⟩
    · simp at h
  · simp at h

theorem fastSpan_spec {v : Vol} {k a n : Nat} {p : Place} (h : fastSpan v k a n = some p) :
    fastPlace v k a = some p ∧ (4 < a % 4 + n → ∃ q, fastPlace v k ((a / 4 * 4 + 4) % 2 ^ 32) = some q) := by
  unfold fastSpan at h
  split at h
  · next hc =>
    refine ⟨h, fun hn => ?_⟩
    rcases hc with hc | hc
    · omega
    · exact Option.isSome_iff_exists.mp hc
  · simp at h

theorem fastPlace_setCore (v : Vol) (k : Nat) (c : Core) (j a : Nat) : fastPlace (setCore v k c) j a = fastPlace v j a := rfl

theorem fastSpan_setCore (v : Vol) (k : Nat) (c : Core) (j a n : Nat) : fastSpan (setCore v k c) j a n = fastSpan v j a n := rfl

/-- A load that a core reaches directly, from sound words. -/
theorem fastLoad_of_fastSpan {v w : Vol} {k a n : Nat} {p : Place} (sx : Bool) (hs : fastSpan v k a n = some p)
    (h0 : wrongBits w (a / 4 * 4) = 0) (h1 : wrongBits w (a / 4 * 4 + 4) = 0) : fastLoad w k a n sx = (w, soundValue w a n sx) := by
  obtain ⟨hp, hq⟩ := fastSpan_spec hs
  obtain ⟨hpl, hdir, -⟩ := fastPlace_spec hp
  have hlt := place_lt hpl
  refine fastLoad_sound sx (fun q h => ?_) (fun hn q h => ?_)
  · rw [place_word, hpl] at h
    obtain rfl := Option.some.inj h
    rw [place_key hpl hdir, h0]
  · obtain ⟨r, hr⟩ := hq hn
    obtain ⟨hrp, hrd, -⟩ := fastPlace_spec hr
    rw [Nat.mod_eq_of_lt (by omega)] at hrp
    obtain rfl := Option.some.inj (hrp.symm.trans h)
    rw [place_key hrp hrd, show (a / 4 * 4 + 4) / 4 * 4 = a / 4 * 4 + 4 by omega, h1]

theorem soundValue_word {v : Vol} {k a n : Nat} {p : Place} (sx : Bool) (hp : fastPlace v k a = some p) (hn : a % 4 + n ≤ 4) :
    soundValue v a n sx = pickBytes (loadTag p (sramWord v p.key)) (a % 4) n sx := by
  rw [soundValue, if_pos hn, soundWord, place_word, (fastPlace_spec hp).1]

/-! ### The turn of a core that moves -/

theorem sharedTurn_sram (v : Vol) (k : Nat) (p : Place) : (sharedTurn v k p).1.sram = v.sram := by rw [sharedTurn_rest]

theorem length_sharedTurn (v : Vol) (k : Nat) (p : Place) : (sharedTurn v k p).1.cores.length = v.cores.length := by
  rw [sharedTurn_eq]
  split
  · rfl
  · rw [idTaken]
    split
    · simp only [onCore, setCore, List.length_set]
      rw [bankTaken_rest]
    · rw [bankTaken_rest]

/-- A change of a core that neither reads nor moves its ID counter. -/
def IdBlind (f : Core → Core) : Prop := ∀ c b, f { c with busId := b } = { f c with busId := b }

theorem IdBlind.busId {f : Core → Core} (hf : IdBlind f) (c : Core) : (f c).busId = c.busId := by
  have h : f c = { f c with busId := c.busId } := hf c c.busId
  rw [h]

/-- A mode change that is due does not look at the ID counter. -/
theorem modeDue_busId (c : Core) (b : Nat) : modeDue { c with busId := b } = { modeDue c with busId := b } := by
  rcases h : c.modeChg with _ | ⟨_ | n, u⟩
  · simp only [modeDue, h]
  · simp only [modeDue, h]
    rfl
  · simp only [modeDue, h]

theorem onMove_onCore_busId {v : Vol} {k : Nat} {f : Core → Core} (hk : k < v.cores.length) (hf : IdBlind f) (n : Nat) :
    onMove (onCore v k fun c => { c with busId := n }) k f = onCore (onMove v k f) k fun c => { c with busId := n } := by
  have hmoved : moved (onCore v k fun c => { c with busId := n }) k = { moved v k with busId := n } := by
    rw [moved, moved, coreOf_onCore v k _ hk, modeDue_busId]
  rw [onCore_onMove hk, onMove, hmoved, hf, onCore, setCore_setCore]
  rfl

theorem idTaken_onMove {v : Vol} {k : Nat} {f : Core → Core} (hk : k < v.cores.length) (hf : IdBlind f) (id : Nat) :
    idTaken (onMove v k f) k id = onMove (idTaken v k id) k f := by
  unfold idTaken
  rw [show (onMove v k f).sys = v.sys from rfl]
  split
  · rw [onMove_onCore_busId hk hf]
  · rfl

theorem sharedTurn_onMove {v : Vol} {k : Nat} {p : Place} {f : Core → Core} (hk : k < v.cores.length) (hf : IdBlind f) :
    (sharedTurn (onMove v k f) k p).1 = onMove (sharedTurn v k p).1 k f := by
  rw [sharedTurn_eq, sharedTurn_eq]
  split
  · rfl
  let b := bankTaken v k (sharedBank p.key) (bankNow v (sharedBank p.key))
  have hcores : b.cores = v.cores := by simp only [b]; rw [bankTaken_rest]
  have hcore : coreOf b k = coreOf v k := by simp only [coreOf, hcores]
  have hmoved : moved b k = moved v k := by simp only [moved, hcore]
  have hbank : bankTaken (onMove v k f) k (sharedBank p.key) (bankNow (onMove v k f) (sharedBank p.key)) = onMove b k f := by
    rw [show onMove b k f = { b with cores := v.cores.set k (f (moved v k)) } by rw [onMove, hmoved, setCore, hcores]]
    exact bankTaken_cores v _ k _ _
  have hid : (coreOf (onMove v k f) k).busId = (coreOf v k).busId := by
    rw [coreOf_onMove hk, hf.busId, moved_eq]
  rw [hbank, hid]
  exact idTaken_onMove (by rw [hcores]; exact hk) hf _

end Sys2Proof.Machine
end

section
/-! SUPPORT. The load and store triggers, continued: what each makes of its core. -/

namespace Sys2Proof.Machine

/-- The commands of the load ports, and those of the store ports, each with its trigger port (R96). -/
abbrev loadCommands (k : Fin 9) (a : TWord) : List (Instr × Nat) := [(.ldw k a, 77), (.ldh k a, 78), (.ldb k a, 79)]
abbrev storeCommands (k : Fin 9) (a : TWord) : List (Instr × Nat) := [(.stw k a, 80), (.sth k a, 81), (.stb k a, 82)]

theorem exec_load {s : State} {k : Fin 9} {a : TWord} {i : Instr} {d : Nat} (h : (i, d) ∈ loadCommands k a) :
    exec i s = .next (withVol s (triggerMove s.nv s.vol k d a)) ∧ trigUnit d = some .lsu ∧ isLoad d = true ∧ d < 80 := by
  simp only [List.mem_cons, Prod.mk.injEq, List.not_mem_nil, or_false] at h
  rcases h with ⟨rfl, rfl⟩ | ⟨rfl, rfl⟩ | ⟨rfl, rfl⟩ <;> exact ⟨rfl, rfl, rfl, by decide⟩

theorem exec_store {s : State} {k : Fin 9} {a : TWord} {i : Instr} {d : Nat} (h : (i, d) ∈ storeCommands k a) :
    exec i s = .next (withVol s (triggerMove s.nv s.vol k d a)) ∧ trigUnit d = some .lsu ∧ isLoad d = false ∧ 80 ≤ d := by
  simp only [List.mem_cons, Prod.mk.injEq, List.not_mem_nil, or_false] at h
  rcases h with ⟨rfl, rfl⟩ | ⟨rfl, rfl⟩ | ⟨rfl, rfl⟩ <;> exact ⟨rfl, rfl, rfl, by decide⟩

theorem lsuSize_cases (d : Nat) : lsuSize d = 4 ∨ lsuSize d = 2 ∨ lsuSize d = 1 := by
  unfold lsuSize
  split
  · exact .inl rfl
  · split
    · exact .inr (.inl rfl)
    · exact .inr (.inr rfl)

theorem trig_lsu (v : Vol) (k lane : Nat) {d : Nat} (a : TWord) (h : trigUnit d = some .lsu) : trig v k lane d a = trigLsu v k lane d a := by
  unfold trig
  rw [h]

/-- A core whose base register an access has moved (R101). -/
def based (nb : TWord) (c : Core) : Core := { c with port := smapSet zeroT c.port 74 nb }

/-- A core with a load on its way (R101, R125). -/
def loading (nb : TWord) (fl : Flight) (c : Core) : Core := { based nb c with fl := c.fl ++ [fl] }

/-- A core behind a store to SRAM, whose bank a store to its own occupies (R101, R218). -/
def stored (v : Vol) (k d ad : Nat) (nb : TWord) (p : Place) (c : Core) : Core :=
  { based nb c with last := if p.dom = 10 + k then some ⟨v.now, ad / 4 % 8, curBundle v k, 0, d⟩ else none }

theorem based_idBlind (nb : TWord) : IdBlind (based nb) := fun _ _ => rfl

/-- The load of y, n bytes at address ad, that trigger port d starts (R101, R217). -/
def loadFlight (v : Vol) (k d ad n : Nat) (y : TWord) (p : Place) : Flight :=
  ⟨true, ⟨BitVec.ofNat 32 ad, Tag.raw⟩, y,
    BitVec.ofNat 32 (b2n (bit (opnd (moved v k) 76).data 4) * 32 + (if n = 4 then 2 else n - 1) * 8),
    if p.dom = 10 + k then 2 else 4, curBundle v k, 0, d, false⟩

/-- Entry i of a store of n bytes of w at address ad in the buffer of core k (R104, R208). -/
def storeEntry (v : Vol) (k d ad n : Nat) (w : Word) (i : Nat) (half : Bool) : StoreEnt :=
  ⟨(ad / 4 * 4 + 4 * i) % 2 ^ 32, BitVec.ofNat 32 ((2 ^ (8 * n) - 1) * 2 ^ (8 * (ad % 4)) / 2 ^ (32 * i)),
    BitVec.ofNat 32 (w.toNat % 2 ^ (8 * n) * 2 ^ (8 * (ad % 4)) / 2 ^ (32 * i)), half, curBundle v k, 0, d⟩

def storeEntries (v : Vol) (k d ad n : Nat) (w : Word) : List StoreEnt :=
  if ad % 4 + n ≤ 4 then [storeEntry v k d ad n w 0 false] else [storeEntry v k d ad n w 0 false, storeEntry v k d ad n w 1 true]

section
variable {v : Vol} {k d ad n : Nat} {x nb : TWord} {p : Place} (hk : k < v.cores.length)
  (hform : lsuForm (moved v k) d x = (ad, nb, n))
include hk hform

/-- A load that a core reaches directly and that no buffered store covers. -/
theorem trigLsu_load (hd : isLoad d = true) (hs : fastSpan v k ad n = some p)
    (hb : (moved v k).sbuf.reverse.find? (entCover · ad n) = none) (h0 : wrongBits v (ad / 4 * 4) = 0)
    (h1 : wrongBits v (ad / 4 * 4 + 4) = 0) :
    trigLsu (onMove v k fun c => c) k 0 d x = onMove (sharedTurn v k p).1 k (loading nb
      (loadFlight v k d ad n (untag k (soundValue v ad n (bit (opnd (moved v k) 76).data 4))) p)) := by
  have hbased : setCore (onMove v k fun c => c) k (based nb (moved v k)) = onMove v k (based nb) := setCore_onMove v k _ _
  have hturn : (sharedTurn (onMove v k (based nb)) k p).1 = onMove (sharedTurn v k p).1 k (based nb) :=
    sharedTurn_onMove hk (based_idBlind nb)
  have hload := fastLoad_of_fastSpan (w := onMove (sharedTurn v k p).1 k (based nb)) (bit (opnd (moved v k) 76).data 4) hs
    ((wrongBits_sharedTurn v k p _).trans h0) ((wrongBits_sharedTurn v k p _).trans h1)
  unfold trigLsu
  rw [coreOf_onMove hk]
  simp only [hform, hd, if_true]
  rw [show ({ moved v k with port := smapSet zeroT (moved v k).port 74 nb } : Core) = based nb (moved v k) from rfl, hbased,
    show fastSpan (onMove v k (based nb)) k ad n = some p from hs, hb]
  simp only [hturn, hload, onCore_onMove ((length_sharedTurn v k p).symm ▸ hk)]
  rw [soundValue_congr (show (onMove (sharedTurn v k p).1 k (based nb)).sram = v.sram from sharedTurn_sram v k p)]
  rfl

/-- A load whose bytes a buffered store of the service core covers (R209). -/
theorem trigLsu_load_buffered (hd : isLoad d = true) (hs : fastSpan v k ad n = some p) {e : StoreEnt}
    (hb : (moved v k).sbuf.reverse.find? (entCover · ad n) = some e) :
    trigLsu (onMove v k fun c => c) k 0 d x = onMove v k (loading nb
      (loadFlight v k d ad n (pickBytes ⟨e.data, Tag.raw⟩ (ad % 4) n (bit (opnd (moved v k) 76).data 4)) p)) := by
  unfold trigLsu
  rw [coreOf_onMove hk]
  simp only [hform, hd, if_true, setCore_setCore, setCore_onMove, fastSpan_setCore, hb, hs]
  rfl

/-- A store of a control core to a word that it reaches directly. -/
theorem trigLsu_store (hd : isLoad d = false) (h8 : k < 8) (hp : fastPlace v k ad = some p) (hword : wrongBits v p.key = 0)
    (hn : n = 4 ∧ ad % 4 = 0 ∨ n = 2 ∨ n = 1) :
    trigLsu (onMove v k fun c => c) k 0 d x = sramPut (onMove (sharedTurn v k p).1 k (stored v k d ad nb p)) p.key
      (if n = 4 then x else ⟨((sramWord v p.key).data &&& ~~~byteMask (ad % 4) n) ||| ((x.data <<< (8 * (ad % 4))) &&& byteMask (ad % 4) n),
        (sramWord v p.key).tag⟩) := by
  obtain ⟨hpl, hdir, hdom⟩ := fastPlace_spec hp
  have htag := place_tagged hpl (show p.dom ≠ 18 by omega)
  unfold trigLsu
  rw [coreOf_onMove hk]
  simp only [hform, hd, Bool.false_eq_true, if_false, if_neg (show k ≠ 8 by omega), setCore_setCore, setCore_onMove, fastPlace_setCore, hp]
  by_cases hown : p.dom = 10 + k
  · rw [show (sharedTurn v k p).1 = v by rw [sharedTurn_eq, if_pos (by omega)]]
    simp only [if_pos hown]
    rw [sramStore_direct _ hdir htag h8 (by exact hword) hn]
    simp only [onMove, stored, if_pos hown]
    rfl
  · simp only [if_neg hown]
    rw [show setCore v k { moved v k with port := smapSet zeroT (moved v k).port 74 nb } = onMove v k (based nb) from rfl,
      sharedTurn_onMove hk (based_idBlind nb), sramStore_direct _ hdir htag h8 (by exact (wrongBits_sharedTurn v k p _).trans hword) hn]
    simp only
    rw [show sramWord (onMove (sharedTurn v k p).1 k (based nb)) p.key = sramWord v p.key from sramWord_sharedTurn v k p _]
    simp only [onMove, stored, if_neg hown]
    rfl

/-- A store of the service core fills an entry of its buffer, or two (R104, R208). -/
theorem trigLsu_store_buffered (hd : isLoad d = false) (h8 : k = 8) :
    trigLsu (onMove v k fun c => c) k 0 d x = onMove v k fun c => { based nb c with sbuf := c.sbuf ++ storeEntries v k d ad n x.data } := by
  subst h8
  unfold trigLsu
  rw [coreOf_onMove hk]
  simp only [hform, hd, Bool.false_eq_true, if_false, if_true, setCore_setCore, setCore_onMove]
  by_cases hfit : ad % 4 + n ≤ 4
  · simp only [storeEntries, if_pos hfit]
    rfl
  · simp only [storeEntries, if_neg hfit]
    rfl

end

/-! ### What follows the trigger -/

theorem coreOf_sharedTurn {v : Vol} {k : Nat} (hk : k < v.cores.length) (p : Place) :
    ∃ b, coreOf (sharedTurn v k p).1 k = { coreOf v k with busId := b } := by
  have hcores (b : Nat) (now : Nat × List Nat) : (bankTaken v k b now).cores = v.cores := by rw [bankTaken_rest]
  have hcore (b : Nat) (now : Nat × List Nat) : coreOf (bankTaken v k b now) k = coreOf v k := by rw [coreOf, coreOf, hcores]
  rw [sharedTurn_eq]
  split
  · exact ⟨(coreOf v k).busId, rfl⟩
  · rw [idTaken]
    split
    · exact ⟨((coreOf v k).busId + 1) % 16, by rw [coreOf_onCore _ k _ (by rw [hcores]; exact hk), hcore]⟩
    · exact ⟨(coreOf v k).busId, by rw [hcore]⟩

/-- Behind a turn and a change of a core that can move, which records nothing, nothing follows. -/
theorem afterIssue_turned {nv : Nv} {v : Vol} {k : Nat} {f : Core → Core} {p : Place} (hm : canMove v k = true)
    (hbus : ∀ c, (f c).busf = c.busf) (htrap : ∀ c, (f c).trapNo = c.trapNo) {u : Vol}
    (hu : u.cores = (onMove (sharedTurn v k p).1 k f).cores) : afterIssue nv u k = u := by
  obtain ⟨-, hb, ht⟩ := canMove_iff.mp hm
  have hk := lt_of_canMove hm
  obtain ⟨i, hi⟩ := coreOf_sharedTurn hk p
  have hcore : coreOf u k = f (moved (sharedTurn v k p).1 k) := by
    rw [coreOf, hu]
    exact coreOf_onMove ((length_sharedTurn v k p).symm ▸ hk) f
  refine afterIssue_none nv u k ?_ ?_
  · rw [hcore, hbus, moved_busf, hi, hb]
  · rw [hcore, htrap, moved_trapNo, hi, ht]

theorem lsuFault_of_canTake {v : Vol} {k d : Nat} {x : TWord} (h : canTake v k d x = true) :
    lsuFault v k 0 d x (modeDue (coreOf v k)) (modeDue (coreOf v k)).pc = none := by
  simp only [canTake, Bool.and_eq_true, Option.isNone_iff_eq_none] at h
  obtain ⟨-, hfault⟩ := h
  by_contra hsome
  obtain ⟨f, hf⟩ := Option.ne_none_iff_exists'.mp hsome
  unfold execFault at hfault
  simp only [List.findSome?_cons, hf] at hfault
  split at hfault
  · simp at hfault
  · split at hfault
    · simp at hfault
    · split at hfault <;> simp at hfault

/-- An access of a control core to SRAM, which no check turns away, lies within a word (R103). -/
theorem canTake_aligned {v : Vol} {k d ad n : Nat} {x nb : TWord} {p : Place} (h : canTake v k d x = true) (hd : trigUnit d = some .lsu)
    (hform : lsuForm (moved v k) d x = (ad, nb, n)) (hp : fastPlace v k ad = some p) (h8 : k < 8) : ad % 4 + n ≤ 4 := by
  obtain ⟨hpl, hdir, hdom⟩ := fastPlace_spec hp
  have htarget : taggedTarget ad = true := by
    simp [taggedTarget, hpl, hdir, place_tagged hpl (show p.dom ≠ 18 by omega)]
  have hfault := lsuFault_of_canTake h
  have hform' : lsuForm (modeDue (coreOf v k)) d x = (ad, nb, n) := hform
  unfold lsuFault at hfault
  simp only [hd, ne_eq, not_true_eq_false, if_false, hform', htarget, Bool.true_and] at hfault
  by_contra hbeyond
  split at hfault
  · simp at hfault
  · simp [show 4 < ad % 4 + n by omega] at hfault

end Sys2Proof.Machine
end

section
/-! PROOFS. Loads and stores of SRAM that a core reaches directly, and of its store buffer (O21). -/

namespace Sys2Proof.Machine

/-- A byte of an entry of the store buffer: the byte of the stored word, under a full mask (R104, R208). -/
theorem storeEntry_byte (v : Vol) (k d ad : Nat) {n j i b : Nat} (w : Word) (half : Bool) (hj : j < n) (hb : b < 4)
    (hpos : 4 * i + b = ad % 4 + j) :
    fld (storeEntry v k d ad n w i half).mask (8 * b + 7) (8 * b) = 255
      ∧ fld (storeEntry v k d ad n w i half).data (8 * b + 7) (8 * b) = fld w (8 * j + 7) (8 * j) := by
  have hwidth (x : Nat) : 8 * x + 7 + 1 - 8 * x = 8 := by omega
  have hones : (2 ^ (8 * n) - 1) / 2 ^ (8 * j) % 2 ^ 8 = 255 := by
    refine Nat.eq_of_testBit_eq fun t => ?_
    rw [show (255 : Nat) = 2 ^ 8 - 1 from rfl]
    simp only [Nat.testBit_mod_two_pow, Nat.testBit_div_two_pow, Nat.testBit_two_pow_sub_one]
    by_cases ht : t < 8
    · rw [decide_eq_true (show t + 8 * j < 8 * n by omega), Bool.and_true]
    · rw [decide_eq_false ht, Bool.false_and]
  simp only [fld, storeEntry, BitVec.toNat_ofNat, hwidth]
  refine ⟨?_, byte_of_shifted _ hj hb hpos⟩
  have hmask := byte_of_shifted (2 ^ (8 * n) - 1) hj hb hpos
  rw [Nat.mod_eq_of_lt (Nat.sub_lt (Nat.two_pow_pos _) (by decide))] at hmask
  exact hmask.trans hones

/-- The entries of a store name each of its bytes. -/
theorem storeEntries_bytes (v : Vol) (k d ad : Nat) {n : Nat} (w : Word) (hn : n ≤ 4) :
    storeEntries v k d ad n w ≠ [] ∧ ∀ j, j < n → ∃ e ∈ storeEntries v k d ad n w, e.addr = (ad + j) / 4 * 4 % 2 ^ 32
      ∧ fld e.mask (8 * ((ad + j) % 4) + 7) (8 * ((ad + j) % 4)) = 255
      ∧ fld e.data (8 * ((ad + j) % 4) + 7) (8 * ((ad + j) % 4)) = fld w (8 * j + 7) (8 * j) := by
  have hentry (j i : Nat) (half : Bool) (hj : j < n) (hi : i = (ad % 4 + j) / 4) :
      (storeEntry v k d ad n w i half).addr = (ad + j) / 4 * 4 % 2 ^ 32
        ∧ fld (storeEntry v k d ad n w i half).mask (8 * ((ad + j) % 4) + 7) (8 * ((ad + j) % 4)) = 255
        ∧ fld (storeEntry v k d ad n w i half).data (8 * ((ad + j) % 4) + 7) (8 * ((ad + j) % 4)) = fld w (8 * j + 7) (8 * j) := by
    refine ⟨?_, storeEntry_byte v k d ad w half hj (by omega) (by omega)⟩
    rw [storeEntry, show ad / 4 * 4 + 4 * i = (ad + j) / 4 * 4 by omega]
  unfold storeEntries
  split
  · next hfit => exact ⟨by simp, fun j hj => ⟨_, List.mem_singleton_self _, hentry j 0 false hj (by omega)⟩⟩
  · next hfit =>
    refine ⟨by simp, fun j hj => ?_⟩
    by_cases hlow : ad % 4 + j < 4
    · exact ⟨_, List.mem_cons_self .., hentry j 0 false hj (by omega)⟩
    · exact ⟨_, List.mem_cons_of_mem _ (List.mem_singleton_self _), hentry j 1 true hj (by omega)⟩

section
variable {s : State} {k : Fin 9} {a nb : TWord} {i : Instr} {d ad n : Nat} {p : Place} (ht : canTake s.vol k d (untag k a) = true)
  (hform : lsuForm (moved s.vol k) d (untag k a) = (ad, nb, n))
include ht hform

/-- A load that a core reaches directly, of words with sound check bits. -/
theorem exec_load_fast (hi : (i, d) ∈ loadCommands k a) (hs : fastSpan s.vol k ad n = some p)
    (hb : (moved s.vol k).sbuf.any (entCover · ad n) = false) (h0 : wrongBits s.vol (ad / 4 * 4) = 0)
    (h1 : wrongBits s.vol (ad / 4 * 4 + 4) = 0) :
    exec i s = .next (withVol s (onMove (sharedTurn s.vol k p).1 k (loading nb
      (loadFlight s.vol k d ad n (untag k (soundValue s.vol ad n (bit (opnd (moved s.vol k) 76).data 4))) p)))) := by
  obtain ⟨hexec, hunit, hload, -⟩ := exec_load (s := s) hi
  have hm := canMove_of_canTake ht
  have hnone : (moved s.vol k).sbuf.reverse.find? (entCover · ad n) = none := by
    rw [List.find?_eq_none]
    intro e he
    simpa using List.any_eq_false.mp hb e (List.mem_reverse.mp he)
  rw [hexec, triggerMove_of_canTake ht, trig_lsu _ _ _ _ hunit, trigLsu_load (lt_of_canMove hm) hform hload hs hnone h0 h1]
  exact next_withVol (afterIssue_turned (p := p) (f := loading nb _) hm (fun _ => rfl) (fun _ => rfl) rfl)

/-- A load whose bytes a buffered store covers. -/
theorem exec_load_buffered (hi : (i, d) ∈ loadCommands k a) (hs : fastSpan s.vol k ad n = some p) {e : StoreEnt}
    (hb : (moved s.vol k).sbuf.reverse.find? (entCover · ad n) = some e) :
    exec i s = .next (withVol s (onMove s.vol k (loading nb
      (loadFlight s.vol k d ad n (pickBytes ⟨e.data, Tag.raw⟩ (ad % 4) n (bit (opnd (moved s.vol k) 76).data 4)) p)))) := by
  obtain ⟨hexec, hunit, hload, -⟩ := exec_load (s := s) hi
  have hm := canMove_of_canTake ht
  rw [hexec, triggerMove_of_canTake ht, trig_lsu _ _ _ _ hunit, trigLsu_load_buffered (lt_of_canMove hm) hform hload hs hb]
  exact next_withVol (afterIssue_onMove hm (fun _ => rfl) (fun _ => rfl))

/-- A store of a control core to a word that it reaches directly. -/
theorem exec_store_fast (hi : (i, d) ∈ storeCommands k a) (h8 : k.val < 8) (hp : fastPlace s.vol k ad = some p)
    (hword : wrongBits s.vol p.key = 0) (hn : n = lsuSize d) :
    exec i s = .next (withVol s (sramPut (onMove (sharedTurn s.vol k p).1 k (stored s.vol k d ad nb p)) p.key
      (if n = 4 then a else ⟨((sramWord s.vol p.key).data &&& ~~~byteMask (ad % 4) n)
        ||| ((a.data <<< (8 * (ad % 4))) &&& byteMask (ad % 4) n), (sramWord s.vol p.key).tag⟩))) := by
  obtain ⟨hexec, hunit, hload, -⟩ := exec_store (s := s) hi
  have hm := canMove_of_canTake ht
  have hfit := canTake_aligned ht hunit hform hp h8
  have hsize : n = 4 ∧ ad % 4 = 0 ∨ n = 2 ∨ n = 1 := by have := lsuSize_cases d; omega
  have hraw : untag k a = a := if_neg (by omega)
  rw [hexec, triggerMove_of_canTake ht, trig_lsu _ _ _ _ hunit, trigLsu_store (lt_of_canMove hm) hform hload h8 hp hword hsize, hraw]
  exact next_withVol (afterIssue_turned (p := p) (f := stored s.vol k d ad nb p) hm (fun _ => rfl) (fun _ => rfl) rfl)

/-- A store of the service core. -/
theorem exec_store_buffered (hi : (i, d) ∈ storeCommands k a) (h8 : k.val = 8) :
    exec i s = .next (withVol s (onMove s.vol k fun c =>
      { based nb c with sbuf := c.sbuf ++ storeEntries s.vol k d ad n a.data })) := by
  obtain ⟨hexec, hunit, hload, -⟩ := exec_store (s := s) hi
  have hm := canMove_of_canTake ht
  have hdata : (untag k a).data = a.data := by unfold untag; split <;> rfl
  rw [hexec, triggerMove_of_canTake ht, trig_lsu _ _ _ _ hunit, trigLsu_store_buffered (lt_of_canMove hm) hform hload h8, hdata]
  exact next_withVol (afterIssue_onMove hm (fun _ => rfl) (fun _ => rfl))

end

end Sys2Proof.Machine

namespace Sys2Proof

open Sys2Proof.Machine

/-- Settles O21: each access by its case, direct or through the store buffer. -/
theorem fastAccessesAct : Obligations.FastAccessesAct := by
  refine ⟨fun s k a i d hi ht p hs => ⟨fun hb h0 h1 => ⟨?_, fun hn => ?_⟩, fun e he => ?_⟩,
    fun s k a i d hi ht => ⟨fun p h8 hp hword => ?_, fun h8 => ?_⟩⟩
  · rw [fastLoad_of_fastSpan _ hs h0 h1]
    exact exec_load_fast ht rfl hi hs hb h0 h1
  · rw [fastLoad_of_fastSpan _ hs h0 h1]
    exact soundValue_word _ (fastSpan_spec hs).1 hn
  · exact exec_load_buffered ht rfl hi hs he
  · exact exec_store_fast ht rfl hi h8 hp hword rfl
  · obtain ⟨hne, hbytes⟩ := storeEntries_bytes s.vol k d (lsuForm (moved s.vol k) d (untag k a)).1 a.data (n := lsuSize d)
      (by have := lsuSize_cases d; omega)
    exact ⟨_, h8 ▸ exec_store_buffered ht rfl hi h8, hne, hbytes⟩

end Sys2Proof
end

section
/-! SUPPORT. Accesses that a core does not reach directly (R138): how they are held, and the words that their responses reach. -/

namespace Sys2Proof.Machine

/-! ### An access is held -/

theorem gateOpened_cores (v : Vol) (p : Nat) : (gateOpened v p).cores = v.cores := by
  unfold gateOpened
  dsimp only
  split
  · rfl
  · split <;> rfl

theorem issueGate_cores (v : Vol) (a : Nat) : (issueGate v a).cores = v.cores := by
  have hcases (p : Nat) (up : Bool) : (if up then gateOpened v p else v).cores = v.cores := by
    cases up with
    | false => rfl
    | true => exact gateOpened_cores v p
  exact hcases _ _

/-- While an access is held, nothing else follows the trigger that made it. -/
theorem afterIssue_held {nv : Nv} {v : Vol} {k : Nat} {h : Held} (hheld : (coreOf v k).held = some h) (htrap : (coreOf v k).trapNo = none) :
    afterIssue nv v k = v := by
  simp only [afterIssue, hheld, htrap]

/-- A core with an access held (R101, R138). -/
def holding (nb : TWord) (h : Held) (c : Core) : Core := { based nb c with held := some h }

section
variable {v : Vol} {k d ad n : Nat} {x nb : TWord} (hk : k < v.cores.length) (hform : lsuForm (moved v k) d x = (ad, nb, n))
include hk hform

/-- A load that the core does not reach directly: what covers it in the store buffer goes along. -/
theorem trigLsu_load_held (hd : isLoad d = true) (hs : fastSpan v k ad n = none) :
    trigLsu (onMove v k fun c => c) k 0 d x = issueGate (onMove v k (holding nb ⟨false, n, ad, TWord.zero, bit (opnd (moved v k) 76).data 4,
      curBundle v k, 0, d, none, false, ((moved v k).sbuf.reverse.find? (entCover · ad n)).map fun e =>
        pickBytes ⟨e.data, Tag.raw⟩ (ad % 4) n (bit (opnd (moved v k) 76).data 4), false⟩)) ad := by
  unfold trigLsu
  rw [coreOf_onMove hk]
  simp only [hform, hd, if_true, setCore_setCore, setCore_onMove, fastSpan_setCore, hs]
  cases (moved v k).sbuf.reverse.find? (entCover · ad n) <;> rfl

/-- A store of a control core to what it does not reach directly. -/
theorem trigLsu_store_held (hd : isLoad d = false) (h8 : k < 8) (hp : fastPlace v k ad = none) :
    let w := issueGate (onMove v k (holding nb ⟨true, n, ad, x, bit (opnd (moved v k) 76).data 4, curBundle v k, 0, d, none, false, none,
      false⟩)) ad
    trigLsu (onMove v k fun c => c) k 0 d x = if taggedTarget ad = false ∧ x.isPoison = true then onCore w k (orFlags · flPZ) else w := by
  unfold trigLsu
  rw [coreOf_onMove hk]
  simp only [hform, hd, Bool.false_eq_true, if_false, if_neg (show k ≠ 8 by omega), setCore_setCore, setCore_onMove, fastPlace_setCore, hp,
    Bool.and_eq_true, Bool.not_eq_true']
  rfl

end

section
variable {s : State} {k : Fin 9} {a nb : TWord} {i : Instr} {d ad n : Nat} (ht : canTake s.vol k d (untag k a) = true)
  (hform : lsuForm (moved s.vol k) d (untag k a) = (ad, nb, n))
include ht

/-- Behind an access that is held, and a change of its core that leaves it held. -/
theorem afterIssue_holding {h : Held} {u : Vol} {f : Core → Core} (hheld : ∀ c, (f c).held = c.held) (htrap : ∀ c, (f c).trapNo = c.trapNo)
    (hu : coreOf u k = f (holding nb h (moved s.vol k))) : afterIssue s.nv u k = u := by
  obtain ⟨-, -, hnone⟩ := canMove_iff.mp (canMove_of_canTake ht)
  refine afterIssue_held (h := h) (by rw [hu, hheld]; rfl) ?_
  rw [hu, htrap]
  exact (moved_trapNo s.vol k).trans hnone

/-- The core whose access a gate lets through. -/
theorem coreOf_issueGate_holding (h : Held) :
    coreOf (issueGate (onMove s.vol k (holding nb h)) ad) k = holding nb h (moved s.vol k) := by
  rw [coreOf, issueGate_cores]
  exact coreOf_onMove (lt_of_canMove (canMove_of_canTake ht)) _

include hform

theorem exec_load_held (hi : (i, d) ∈ loadCommands k a) (hs : fastSpan s.vol k ad n = none) :
    exec i s = .next (withVol s (issueGate (onMove s.vol k (holding nb ⟨false, n, ad, TWord.zero, bit (opnd (moved s.vol k) 76).data 4,
      curBundle s.vol k, 0, d, none, false, ((moved s.vol k).sbuf.reverse.find? (entCover · ad n)).map fun e =>
        pickBytes ⟨e.data, Tag.raw⟩ (ad % 4) n (bit (opnd (moved s.vol k) 76).data 4), false⟩)) ad)) := by
  obtain ⟨hexec, hunit, hload, -⟩ := exec_load (s := s) hi
  rw [hexec, triggerMove_of_canTake ht, trig_lsu _ _ _ _ hunit, trigLsu_load_held (lt_of_canMove (canMove_of_canTake ht)) hform hload hs]
  exact next_withVol (afterIssue_holding (f := id) ht (fun _ => rfl) (fun _ => rfl) (coreOf_issueGate_holding ht _))

theorem exec_store_held (hi : (i, d) ∈ storeCommands k a) (h8 : k.val < 8) (hp : fastPlace s.vol k ad = none) :
    let w := issueGate (onMove s.vol k (holding nb ⟨true, n, ad, untag k a, bit (opnd (moved s.vol k) 76).data 4, curBundle s.vol k, 0, d,
      none, false, none, false⟩)) ad
    exec i s = .next (withVol s
      (if taggedTarget ad = false ∧ (untag k a).isPoison = true then onCore w k (orFlags · flPZ) else w)) := by
  intro w
  obtain ⟨hexec, hunit, hload, -⟩ := exec_store (s := s) hi
  have hlen := lt_of_canMove (canMove_of_canTake ht)
  rw [hexec, triggerMove_of_canTake ht, trig_lsu _ _ _ _ hunit, trigLsu_store_held hlen hform hload h8 hp]
  refine next_withVol ?_
  have hcore := coreOf_issueGate_holding (nb := nb) (ad := ad) ht ⟨true, n, ad, untag k a, bit (opnd (moved s.vol k) 76).data 4,
    curBundle s.vol k, 0, d, none, false, none, false⟩
  split
  · exact afterIssue_holding (f := (orFlags · flPZ)) ht (fun _ => rfl) (fun _ => rfl)
      ((coreOf_onCore _ k _ (by rw [issueGate_cores]; exact (List.length_set ..).symm ▸ hlen)).trans (by rw [hcore]))
  · exact afterIssue_holding (f := id) ht (fun _ => rfl) (fun _ => rfl) hcore

end

/-- An access that its core does not reach directly, as its trigger port has it. -/
theorem heldAccess_holds {s : State} {k : Fin 9} {a : TWord} {i : Instr} {d : Nat} (hi : (i, d) ∈ loadCommands k a ++ storeCommands k a)
    (ht : canTake s.vol k d (untag k a) = true) :
    let v := s.vol
    let c := moved v k
    let x := untag k a
    let f := lsuForm c d x
    (if d < 80 then fastSpan v k f.1 f.2.2 = none else k.val < 8 ∧ fastPlace v k f.1 = none) →
    let w := issueGate (onMove v k (holding f.2.1 ⟨decide (80 ≤ d), f.2.2, f.1, if d < 80 then TWord.zero else x,
      bit (opnd c 76).data 4, curBundle v k, 0, d, none, false, if d < 80 then (c.sbuf.reverse.find? (entCover · f.1 f.2.2)).map fun e =>
        pickBytes ⟨e.data, Tag.raw⟩ (f.1 % 4) f.2.2 (bit (opnd c 76).data 4) else none, false⟩)) f.1
    exec i s = .next (withVol s
      (if 80 ≤ d ∧ taggedTarget f.1 = false ∧ x.isPoison = true then onCore w k (orFlags · flPZ) else w)) := by
  intro v c x f hfar
  rcases List.mem_append.mp hi with hload | hstore
  · obtain ⟨-, -, -, hd⟩ := exec_load (s := s) hload
    rw [if_pos hd] at hfar
    simp only [if_pos hd, show ¬ 80 ≤ d by omega, false_and, if_false]
    exact exec_load_held ht rfl hload hfar
  · obtain ⟨-, -, -, hd⟩ := exec_store (s := s) hstore
    rw [if_neg (by omega)] at hfar
    simp only [if_neg (show ¬ d < 80 by omega), hd, true_and]
    exact exec_store_held ht rfl hstore hfar.1 hfar.2

end Sys2Proof.Machine
end

section
/-! SUPPORT. The transactions of a core that reach words of SRAM and are answered OKAY (R138, R208, R628), and what follows them. -/

namespace Sys2Proof.Machine

/-! ### A grant and an ID -/

/-- A transaction has been granted and its core's ID counter has gone on (R278, R628). -/
abbrev granted (u : Vol) (r : Req) : Vol := idTaken (noteGrant u r) r.master r.id

/-- A grant changes the arbiter's bookkeeping alone. -/
theorem noteGrant_rest (u : Vol) (r : Req) : noteGrant u r = { u with mtx := (noteGrant u r).mtx } := by
  unfold noteGrant
  dsimp only
  repeat' split
  all_goals rfl

theorem idTaken_rest (u : Vol) (m id : Nat) : idTaken u m id = { u with cores := (idTaken u m id).cores } := by
  unfold idTaken
  split <;> rfl

theorem granted_rest (u : Vol) (r : Req) : granted u r = { u with mtx := (granted u r).mtx, cores := (granted u r).cores } := by
  unfold granted
  rw [idTaken_rest, noteGrant_rest]

theorem coreOf_idTaken {u : Vol} {k : Nat} (hk : k < u.cores.length) (id : Nat) :
    ∃ b, coreOf (idTaken u k id) k = { coreOf u k with busId := b } := by
  unfold idTaken
  split
  · exact ⟨_, coreOf_onCore u k _ hk⟩
  · exact ⟨(coreOf u k).busId, rfl⟩

theorem length_idTaken (u : Vol) (m id : Nat) : (idTaken u m id).cores.length = u.cores.length := by
  unfold idTaken
  split
  · exact List.length_set ..
  · rfl

/-! ### What a transaction leaves of its core -/

/-- The core of a state behind a transaction: as before, but for its ID counter (R628). -/
def SameCore (v v' : Vol) (k : Nat) : Prop := v'.cores.length = v.cores.length ∧ ∃ b, coreOf v' k = { coreOf v k with busId := b }

theorem SameCore.trans {v v' v'' : Vol} {k : Nat} (h : SameCore v v' k) (h' : SameCore v' v'' k) : SameCore v v'' k := by
  obtain ⟨hlen, b, hb⟩ := h
  obtain ⟨hlen', b', hb'⟩ := h'
  exact ⟨hlen'.trans hlen, b', by rw [hb', hb]⟩

theorem sameCore_turned {v : Vol} {k : Nat} (hk : k < v.cores.length) (p : Place) : SameCore v (turned v k p) k := by
  unfold turned
  split
  · exact ⟨length_sharedTurn v k p, coreOf_sharedTurn hk p⟩
  · exact ⟨rfl, (coreOf v k).busId, rfl⟩

theorem turned_rest (v : Vol) (k : Nat) (p : Place) :
    turned v k p = { v with mtx := (turned v k p).mtx, tick := (turned v k p).tick, cores := (turned v k p).cores } := by
  unfold turned
  split
  · rw [sharedTurn_rest]
  · rfl

theorem sameCore_granted {u : Vol} {r : Req} (hk : r.master < u.cores.length) : SameCore u (granted u r) r.master := by
  have hcores : (noteGrant u r).cores = u.cores := by rw [noteGrant_rest]
  refine ⟨(length_idTaken _ _ _).trans (by rw [hcores]), ?_⟩
  obtain ⟨b, hb⟩ := coreOf_idTaken (u := noteGrant u r) (by rw [hcores]; exact hk) r.id
  exact ⟨b, hb.trans (by rw [coreOf, coreOf, hcores])⟩

/-! ### One word of SRAM -/

section
variable {nv : Nv} {v : Vol} {k a : Nat} {p : Place} {w : TWord} (hp : place a = some p) (hdir : p.win = .direct) (h4 : a % 4 = 0)
  (hup : domUp v p.dom = true) (hwipe : wiping v p.dom = false)
include hp hdir h4 hup hwipe

/-- A read of a sound word answers it. -/
theorem route_sram_read {id : Nat} (hword : wrongBits v p.key = 0) :
    route nv v ⟨k, id, false, .word, a, w⟩ = (answer (turned v k p) 0 (loadTag p (sramWord v p.key)), false) := by
  have hload : sramLoad (turned v k p) k 4 a p = (turned v k p, some (loadTag p (sramWord v p.key))) := by
    rw [sramLoad, if_neg (by simp [hdir]), sramRead_sound ((wrongBits_turned v k p _).trans hword), sramWord_turned]
    simp only [hdir]
  rw [route_sram hp h4]
  simp only [sramAccess, hwipe, hup, Bool.false_eq_true, if_false, Bool.not_true, sizeBytes]
  rw [hload]
  simp only [pickBytes, if_true]

/-- A write puts the word, with the tag that its master carries into an SRAM that has tags (R253). -/
theorem route_sram_write {id : Nat} :
    route nv v ⟨k, id, true, .word, a, w⟩
      = (answer (sramPut (turned v k p) p.key ⟨w.data, if p.tagged && carriesTag k then w.tag else Tag.raw⟩) 0 TWord.zero, false) := by
  rw [route_sram hp h4]
  exact sramAccess_write h4 hup hwipe (by simp [sramStore, hdir])

end

/-! ### A transaction of a core -/

/-- A word transaction that is routed at once: granted, its ID taken, and its answer shown. -/
theorem coreBeat_word {nv : Nv} {v u : Vol} {k a : Nat} {write : Bool} {w : TWord} (hlate : v.mtx.late = [])
    (hmode : v.sys.mode ≠ .cold ∧ v.sys.mode ≠ .reset) (hratio : ratioOk v = true)
    (hroute : route nv v ⟨k, (coreOf v k).busId, write, .word, a, w⟩ = (u, false)) (hab : noAbort u = true) :
    coreBeat nv v k write a 4 w = (granted u ⟨k, (coreOf v k).busId, write, .word, a, w⟩, false) := by
  have hone : busOne nv v ⟨k, (coreOf v k).busId, write, .word, a, w⟩ = (u, false) := by
    simp [busOne, busBy, hmode, hratio, hroute]
  have hsettle := dmaSettle_noAbort nv (granted u ⟨k, (coreOf v k).busId, write, .word, a, w⟩)
    (by rw [idTaken_noAbort, noteGrant_noAbort, hab])
  have hans : (granted u ⟨k, (coreOf v k).busId, write, .word, a, w⟩).ans = u.ans := by rw [idTaken_ans, noteGrant_ans]
  unfold coreBeat
  simp only [hlate, List.find?_nil, if_true, show ¬ (4 : Nat) = 3 by decide, if_false, hone, Bool.false_eq_true]
  rw [hsettle, ← hans]

/-- What a transaction of core k that is answered OKAY with data d leaves: memory m, and of its core all but the ID counter. -/
def Answered (v B : Vol) (k : Nat) (d : TWord) (m : SMap TWord) : Prop :=
  B.ans = ⟨0, d⟩ ∧ B.sram = m ∧ B.sys = v.sys ∧ SameCore v B k

/-- The conditions under which a core's transaction is routed at once and no channel ends with it (R282, R536). -/
def Routed (v : Vol) : Prop :=
  v.mtx.late = [] ∧ (v.sys.mode ≠ .cold ∧ v.sys.mode ≠ .reset) ∧ ratioOk v = true ∧ noAbort v = true

theorem coreBeat_answered {nv : Nv} {v x : Vol} {k a : Nat} {write : Bool} {w d : TWord} (hk : k < v.cores.length) (hv : Routed v)
    (hroute : route nv v ⟨k, (coreOf v k).busId, write, .word, a, w⟩ = (answer x 0 d, false)) (hdma : x.dma = v.dma) (hregs : x.regs = v.regs)
    (hsys : x.sys = v.sys) (hcore : SameCore v x k) : ∃ B, coreBeat nv v k write a 4 w = (B, false) ∧ Answered v B k d x.sram := by
  obtain ⟨hlate, hmode, hratio, hab⟩ := hv
  have habx : noAbort (answer x 0 d) = true := (noAbort_congr hdma fun _ _ _ => rg_congr hregs _).trans hab
  refine ⟨_, coreBeat_word hlate hmode hratio hroute habx, ?_, ?_, ?_, ?_⟩
  · rw [idTaken_ans, noteGrant_ans]; rfl
  · rw [granted_rest]; rfl
  · rw [granted_rest]; exact hsys
  · exact hcore.trans (sameCore_granted (u := answer x 0 d) (hcore.1.symm ▸ hk))

/-- A held access of one word below the register pages, answered OKAY in one transaction. -/
theorem heldPerform_word {nv : Nv} {v B : Vol} {k : Nat} {h : Held} (hsize : h.size = 4) (h4 : h.addr % 4 = 0) (hlow : h.addr < 0x40000000)
    (hresp : h.resp = none) (hfwd : h.fwd = none) (hwake : h.wake = false)
    (hbeat : coreBeat nv v k h.write h.addr 4 h.data = (B, false)) (hcode : B.ans.code = 0) :
    heldPerform nv v k h = some (B, untag k B.ans.data, 0, false) := by
  have hhalves : halvesOf h.addr h.size = [(h.addr, 4)] := by rw [halvesOf, hsize, if_pos (by omega)]
  have hdata : (⟨h.data.data >>> 0, h.data.tag⟩ : TWord) = h.data := by simp
  have hheld : heldHalves nv v k h = some (B, [(4, B.ans.data)], 0, false) := by
    unfold heldHalves
    simp only [hhalves, List.foldl_cons, List.foldl_nil, List.map_nil, List.sum_nil, Nat.mul_zero, hdata, hbeat, hcode]
    simp
  unfold heldPerform keepingGate
  simp [hresp, hfwd, hwake, show ¬ 0x40000000 ≤ h.addr by omega, hheld, gatherLoad, pickBytes, hsize]

section
variable {nv : Nv} {v : Vol} {k a : Nat} {p : Place} (hk : k < v.cores.length) (hv : Routed v) (hp : place a = some p)
  (hdir : p.win = .direct) (h4 : a % 4 = 0) (hup : domUp v p.dom = true) (hwipe : wiping v p.dom = false)
include hk hv hp hdir h4 hup hwipe

theorem coreBeat_sram_read (w : TWord) (hword : wrongBits v p.key = 0) :
    ∃ B, coreBeat nv v k false a 4 w = (B, false) ∧ Answered v B k (loadTag p (sramWord v p.key)) v.sram := by
  have hsram : (turned v k p).sram = v.sram := by rw [turned_rest]
  rw [← hsram]
  exact coreBeat_answered hk hv (route_sram_read hp hdir h4 hup hwipe hword) (by rw [turned_rest]) (by rw [turned_rest])
    (by rw [turned_rest]) (sameCore_turned hk p)

theorem coreBeat_sram_write (w : TWord) :
    ∃ B, coreBeat nv v k true a 4 w = (B, false) ∧ Answered v B k TWord.zero
      (sramPut v p.key ⟨w.data, if p.tagged && carriesTag k then w.tag else Tag.raw⟩).sram := by
  have hsram (x : TWord) : (sramPut v p.key x).sram = (sramPut (turned v k p) p.key x).sram := by
    simp only [sramPut]
    rw [turned_rest]
  rw [hsram]
  exact coreBeat_answered hk hv (route_sram_write hp hdir h4 hup hwipe) (by simp only [sramPut]; rw [turned_rest])
    (by simp only [sramPut]; rw [turned_rest]) (by simp only [sramPut]; rw [turned_rest]) (sameCore_turned hk p)

end

end Sys2Proof.Machine
end

section
/-! PROOFS. Accesses that are held, and their responses (O22). -/

namespace Sys2Proof.Machine

/-! ### The response of a held access -/

/-- A core whose held access has been answered: issue goes on, and a load's word stands in lsu.d (R138). -/
def released (write : Bool) (w : TWord) (c : Core) : Core :=
  if write then { c with held := none, last := none } else setRes { c with held := none, last := none } 38 w

theorem released_busf (write : Bool) (w : TWord) (c : Core) : (released write w c).busf = c.busf := by
  cases write <;> rfl
theorem released_trapNo (write : Bool) (w : TWord) (c : Core) : (released write w c).trapNo = c.trapNo := by
  cases write <;> rfl
theorem released_held (write : Bool) (w : TWord) (c : Core) : (released write w c).held = none := by
  cases write <;> rfl
theorem released_g (write : Bool) (w : TWord) (c : Core) : (released write w c).g = c.g := by
  cases write <;> rfl

/-- With no power-off that waits, none follows (R285). -/
theorem settleDowns_none {v : Vol} (h : v.sys.downHeld = []) : settleDowns v = v := by
  rw [settleDowns, h]
  rfl

theorem gateSettle_low {v : Vol} {a : Nat} (h : a < 0x40000000) : gateSettle v a = v := by
  simp [gateSettle, h]

/-- The response OKAY of the oldest held access, nothing else recorded. -/
theorem heldRespond_released {nv : Nv} {v B : Vol} {k : Nat} {h : Held} {w : TWord} {part : Bool} (hk : k < B.cores.length)
    (hup : coreUp v k = true) (hframe : (coreOf v k).fheld = []) (hheld : (coreOf v k).held = some h)
    (hperf : heldPerform nv v k h = some (B, w, 0, part)) (hdown : B.sys.downHeld = []) (hlow : h.addr < 0x40000000) (hwake : h.wake = false)
    (hbus : (coreOf B k).busf = none) (htrap : (coreOf B k).trapNo = none) : heldRespond nv v k = onCore B k (released h.write w) := by
  have hnext : fheldNext (coreOf v k) = none := by rw [fheldNext, hframe]; rfl
  have hrel : (if h.write = true then onCore B k fun c => { c with held := none, last := none }
      else onCore (onCore B k fun c => { c with held := none, last := none }) k fun c => setRes c 38 w) = onCore B k (released h.write w) := by
    cases h.write with
    | true => rfl
    | false => exact (if_neg (by decide)).trans (onCore_onCore B k _ _)
  have hcore := coreOf_onCore B k (released h.write w) hk
  have hafter : afterIssue nv (onCore B k (released h.write w)) k = onCore B k (released h.write w) :=
    afterIssue_none nv _ k (by rw [hcore, released_busf, hbus]) (by rw [hcore, released_trapNo, htrap])
  unfold heldRespond
  simp only [hnext, Option.bind_none, hup, Bool.not_true, Bool.false_eq_true, if_false, hheld, hperf, if_true]
  rw [hrel, settleDowns_none (by exact hdown), gateSettle_low hlow]
  simp only [afterRival, hwake, Bool.false_and, Bool.false_eq_true, if_false, hafter, ite_self]

/-- What the response of a transaction answered OKAY leaves: the memory, and the core released. -/
theorem heldRespond_answered {nv : Nv} {v B : Vol} {k : Nat} {h : Held} {w d : TWord} {part : Bool} {m : SMap TWord}
    (hk : k < v.cores.length) (hans : Answered v B k d m) (hup : coreUp v k = true) (hframe : (coreOf v k).fheld = [])
    (hheld : (coreOf v k).held = some h) (hperf : heldPerform nv v k h = some (B, w, 0, part)) (hdown : v.sys.downHeld = [])
    (hlow : h.addr < 0x40000000) (hwake : h.wake = false) (hbus : (coreOf v k).busf = none) (htrap : (coreOf v k).trapNo = none) :
    (heldRespond nv v k).sram = m ∧ ∃ b, coreOf (heldRespond nv v k) k = released h.write w { coreOf v k with busId := b } := by
  obtain ⟨-, hsram, hsys, hlen, b, hcore⟩ := hans
  rw [heldRespond_released (hlen.symm ▸ hk) hup hframe hheld hperf (by rw [hsys, hdown]) hlow hwake (by rw [hcore]; exact hbus)
    (by rw [hcore]; exact htrap)]
  exact ⟨hsram, b, by rw [coreOf_onCore _ _ _ (hlen.symm ▸ hk), hcore]⟩

/-- A load's result stands in its port, which is valid (R81). -/
theorem resPort_released (w : TWord) (c : Core) : resPort (released false w c) 38 = w := by simp [resPort, released, setRes]
theorem valid_released (w : TWord) (c : Core) : (released false w c).valid.getLsbD 38 = true := by simp [released, setRes]

/-! ### The store buffer drains -/

theorem entBytes_word {e : StoreEnt} (h : e.mask = 0xFFFFFFFF) : entBytes e = (0, 4) := by
  rw [entBytes, h]
  decide

/-- The service core when its oldest buffered store has left (R208, R210). -/
def drained (c : Core) : Core :=
  let c := { c with sbuf := c.sbuf.tail }
  let ended := match c.wait with
    | .fence | .atFence => c.long.isEmpty && c.sbuf.isEmpty
    | .op ks => !(c.long.any fun l => ks.contains l.kind)
    | .none | .wft | .wfi => false
  if ended then { c with wait := .none, last := none } else c

theorem drained_eq (c : Core) : drained c = { c with sbuf := c.sbuf.tail, wait := (drained c).wait, last := (drained c).last } := by
  unfold drained
  dsimp only
  split <;> rfl

theorem drainDone_okay {nv : Nv} {B : Vol} {e : StoreEnt} (hk : 8 < B.cores.length) (hdown : B.sys.downHeld = [])
    (hbus : (coreOf B 8).busf = none) (hsb : (coreOf B 8).sbf = none) (himpr : (coreOf B 8).impr = []) :
    drainDone nv B e 0 = onCore B 8 drained := by
  have hfence : endFence (onCore B 8 fun c => { c with sbuf := c.sbuf.tail }) 8 = onCore B 8 drained := onCore_onCore B 8 _ _
  have hcore : coreOf (onCore B 8 drained) 8 = drained (coreOf B 8) := coreOf_onCore B 8 drained hk
  have hpend : takePending nv (onCore B 8 drained) 8 = none := by
    refine takePending_none ?_ ?_ ?_ <;> rw [hcore, drained_eq]
    exacts [hsb, hbus, himpr]
  have hnone : ((coreOf (onCore B 8 drained) 8).impr.isEmpty = true) ∧ (coreOf (onCore B 8 drained) 8).busf = none := by
    rw [hcore, drained_eq]
    exact ⟨by simp only [himpr]; rfl, hbus⟩
  unfold drainDone
  simp only [if_true]
  rw [hfence, settleDowns_none (by exact hdown)]
  simp [takeBehind, hnone, hpend]

/-- The oldest buffered store names a whole word and is answered OKAY. -/
theorem drainOne_answered {nv : Nv} {v B : Vol} {e : StoreEnt} {rest : List StoreEnt} {d : TWord} {m : SMap TWord}
    (hk : 8 < v.cores.length) (hans : Answered v B 8 d m) (hbuf : (coreOf v 8).sbuf = e :: rest) (hmask : e.mask = 0xFFFFFFFF)
    (hbeat : coreBeat nv v 8 true e.addr 4 ⟨e.data, Tag.raw⟩ = (B, false)) (hdown : v.sys.downHeld = [])
    (hbus : (coreOf v 8).busf = none) (hsb : (coreOf v 8).sbf = none) (himpr : (coreOf v 8).impr = []) :
    (drainOne nv v).sram = m ∧ (coreOf (drainOne nv v) 8).sbuf = rest ∧ (coreOf (drainOne nv v) 8).g = (coreOf v 8).g := by
  obtain ⟨hok, hsram, hsys, hlen, b, hcore⟩ := hans
  have hone : drainOne nv v = onCore B 8 drained := by
    have hdata : e.data >>> (8 * 0) = e.data := by simp
    unfold drainOne
    simp only [hbuf, entBytes_word hmask, Nat.add_zero, hdata, hbeat, hok]
    exact drainDone_okay (hlen.symm ▸ hk) (by rw [hsys, hdown]) (by rw [hcore]; exact hbus) (by rw [hcore]; exact hsb)
      (by rw [hcore]; exact himpr)
  rw [hone]
  refine ⟨hsram, ?_⟩
  rw [coreOf_onCore _ _ _ (hlen.symm ▸ hk), drained_eq, hcore]
  exact ⟨by simp only [hbuf, List.tail_cons], rfl⟩

end Sys2Proof.Machine

namespace Sys2Proof

open Sys2Proof.Machine

/-- Settles O22: an access is held as its trigger says; its response is that of one transaction to the word. -/
theorem heldAccessesAct : Obligations.HeldAccessesAct := by
  refine ⟨fun s k a i d hi ht => ?_, fun s k p a hk hup hmode hratio hab hdown hp hdir h4 hdom hwipe hword hframe hbus hsb htrap himpr
    hparked hlate => ?_⟩
  · exact heldAccess_holds hi ht
  · have hv : Routed s.vol := ⟨hlate, hmode, hratio, hab⟩
    have hlow : a < 0x40000000 := Nat.lt_trans (place_lt hp) (by decide)
    refine ⟨fun h hheld hread hsize haddr hresp _ hfwd hwake => ?_, fun h hheld hwrite hsize haddr hresp _ hfwd hwake => ?_,
      fun e rest h8 hbuf haddr hmask => ?_⟩
    · subst haddr
      obtain ⟨B, hbeat, hans⟩ := coreBeat_sram_read (nv := s.nv) hk hv hp hdir h4 hdom hwipe h.data hword
      have hperf := heldPerform_word hsize h4 hlow hresp hfwd hwake (by rw [hread]; exact hbeat) (by rw [hans.1])
      obtain ⟨hsram, b, hcore⟩ := heldRespond_answered hk hans hup hframe hheld hperf hdown hlow hwake hbus htrap
      rw [hread, hans.1] at hcore
      refine ⟨withVol s (heldRespond s.nv s.vol k), rfl, ?_⟩
      rw [hcore]
      exact ⟨released_held .., resPort_released .., valid_released .., released_g .., hsram, rfl⟩
    · subst haddr
      obtain ⟨B, hbeat, hans⟩ := coreBeat_sram_write (nv := s.nv) hk hv hp hdir h4 hdom hwipe h.data
      have hperf := heldPerform_word hsize h4 hlow hresp hfwd hwake (by rw [hwrite]; exact hbeat) (by rw [hans.1])
      obtain ⟨hsram, b, hcore⟩ := heldRespond_answered hk hans hup hframe hheld hperf hdown hlow hwake hbus htrap
      refine ⟨withVol s (heldRespond s.nv s.vol k), rfl, ?_, ?_, ?_, rfl, fun x hx => ?_⟩
      · rw [hcore, released_held]
      · rw [sramWord_congr hsram, sramWord_sramPut]
      · rw [hcore, released_g]
      · rw [sramWord_congr hsram, sramWord_sramPut_ne _ _ hx]
    · obtain rfl : k = 8 := Fin.ext h8
      obtain ⟨B, hbeat, hans⟩ := coreBeat_sram_write (nv := s.nv) hk hv hp hdir h4 hdom hwipe ⟨e.data, Tag.raw⟩
      subst haddr
      obtain ⟨hsram, hsbuf, hg⟩ := drainOne_answered hk hans hbuf hmask hbeat hdown hbus hsb himpr
      refine ⟨withVol s (drainOne s.nv s.vol), rfl, hsbuf, ?_, hg, rfl, fun x hx => ?_⟩
      · rw [sramWord_congr hsram, sramWord_sramPut]
        simp
      · rw [sramWord_congr hsram, sramWord_sramPut_ne _ _ hx]

end Sys2Proof
end

section
/-! PROOFS. The integer arithmetic of the ALU units, and products (O17): a word stands for the exact result as far as the signed range
reaches, which is what the flags say of it. -/

namespace Sys2Proof.Machine

/-! ### Words and exact integers -/

theorem toInt_range (a : Word) : -2147483648 ≤ a.toInt ∧ a.toInt ≤ 2147483647 :=
  ⟨BitVec.le_toInt a, Int.le_of_lt_add_one BitVec.toInt_lt⟩

theorem toInt_ofInt_of_range {x : Int} (h : -2147483648 ≤ x ∧ x ≤ 2147483647) : (BitVec.ofInt 32 x).toInt = x :=
  BitVec.toInt_ofInt_eq_self (by decide) h.1 (Int.lt_add_one_of_le h.2)

theorem outOfRange_eq_false_iff {x : Int} : outOfRange x = false ↔ -2147483648 ≤ x ∧ x ≤ 2147483647 := by
  simp [outOfRange]

/-- A word holds exactly the integers in the signed range. -/
theorem toInt_ofInt_eq_iff {x : Int} : (BitVec.ofInt 32 x).toInt = x ↔ outOfRange x = false := by
  rw [outOfRange_eq_false_iff]
  exact ⟨fun h => h ▸ toInt_range _, toInt_ofInt_of_range⟩

theorem clampInt_eq (x : Int) : clampInt x = max (-2147483648) (min 2147483647 x) := by
  unfold clampInt
  split_ifs <;> omega

theorem toInt_clamped (x : Int) : (BitVec.ofInt 32 (clampInt x)).toInt = max (-2147483648) (min 2147483647 x) := by
  rw [clampInt_eq]
  exact toInt_ofInt_of_range (by omega)

/-- Clamping leaves exactly the integers in the signed range. -/
theorem toInt_clamped_eq_iff {x : Int} : (BitVec.ofInt 32 (clampInt x)).toInt = x ↔ outOfRange x = false := by
  rw [toInt_clamped, outOfRange_eq_false_iff]
  omega

/-- A flag that is set out of range is set where the word is not the exact result. -/
theorem rangeFlag_eq {x : Int} {w f : Word} (h : w.toInt = x ↔ outOfRange x = false) :
    (if outOfRange x then f else 0) = if w.toInt = x then 0 else f := by
  simp only [h]
  cases outOfRange x <;> rfl

/-! ### Sums and differences (R131, R132) -/

theorem ofInt_toInt_sub (a b : Word) : BitVec.ofInt 32 (a.toInt - b.toInt) = a - b := by
  rw [Int.sub_eq_add_neg, BitVec.ofInt_add, BitVec.ofInt_neg, BitVec.ofInt_toInt, BitVec.ofInt_toInt, BitVec.sub_eq_add_neg]

theorem ofInt_toInt_add (a b : Word) : BitVec.ofInt 32 (a.toInt + b.toInt) = a + b := by
  rw [BitVec.ofInt_add, BitVec.ofInt_toInt, BitVec.ofInt_toInt]

theorem aluData_add (a b : Word) : aluData .add a b = (a + b, if (a + b).toInt = a.toInt + b.toInt then 0 else flOV) := by
  rw [← ofInt_toInt_add, ← rangeFlag_eq toInt_ofInt_eq_iff, aluData]

theorem aluData_sub (a b : Word) : aluData .sub a b = (a - b, if (a - b).toInt = a.toInt - b.toInt then 0 else flOV) := by
  rw [← ofInt_toInt_sub, ← rangeFlag_eq toInt_ofInt_eq_iff, aluData]

theorem aluData_adds (a b : Word) :
    (aluData .adds a b).1.toInt = max (-2147483648) (min 2147483647 (a.toInt + b.toInt))
      ∧ (aluData .adds a b).2 = if (aluData .adds a b).1.toInt = a.toInt + b.toInt then 0 else flSAT :=
  ⟨toInt_clamped _, rangeFlag_eq toInt_clamped_eq_iff⟩

theorem aluData_subs (a b : Word) :
    (aluData .subs a b).1.toInt = max (-2147483648) (min 2147483647 (a.toInt - b.toInt))
      ∧ (aluData .subs a b).2 = if (aluData .subs a b).1.toInt = a.toInt - b.toInt then 0 else flSAT :=
  ⟨toInt_clamped _, rangeFlag_eq toInt_clamped_eq_iff⟩

/-! ### Shifts (R133) -/

theorem toNat_and_low8 (b : Word) : (b &&& 0xFF).toNat % 256 = b.toNat % 256 := by
  rw [BitVec.toNat_and, show (0xFF : Word).toNat = 2 ^ 8 - 1 from rfl, Nat.and_two_pow_sub_one_eq_mod, Nat.mod_mod]

/-- A shift looks at the low eight bits of its amount. -/
theorem aluData_shift_low8 {op : Alu} (hop : op ∈ [Alu.shl, .shr, .sar, .rol]) (a b : Word) :
    aluData op a b = aluData op a (b &&& 0xFF) := by
  simp only [List.mem_cons, List.not_mem_nil, or_false] at hop
  rcases hop with rfl | rfl | rfl | rfl <;> simp only [aluData, toNat_and_low8]

theorem toNat_shr (a : Word) (n : Nat) : (a >>> n).toNat = a.toNat / 2 ^ n := by
  rw [BitVec.toNat_ushiftRight, Nat.shiftRight_eq_div_pow]

theorem toInt_sar (a : Word) (n : Nat) : (a.sshiftRight n).toInt = a.toInt / 2 ^ n := by
  rw [BitVec.toInt_sshiftRight, Int.shiftRight_eq_div_pow]
  norm_cast

/-- Behind the last bit an arithmetic shift leaves the sign. -/
theorem sar_long (a : Word) {n : Nat} (h : 32 ≤ n) : a.sshiftRight n = if a.toInt < 0 then 0xFFFFFFFF else 0 := by
  have hbit (i : Nat) : (a.sshiftRight n).getLsbD i = (decide (i < 32) && a.msb) := by
    rw [BitVec.getLsbD_sshiftRight, if_neg (by omega)]
    by_cases hi : i < 32
    · simp [hi, Nat.not_le.mpr hi]
    · simp [hi, Nat.not_lt.mp hi]
  refine BitVec.eq_of_getLsbD_eq fun i hi => ?_
  rw [hbit, BitVec.msb_eq_toInt]
  split_ifs with hs
  · rw [decide_eq_true hi, decide_eq_true hs, Bool.true_and, show (0xFFFFFFFF : Word) = BitVec.allOnes 32 from rfl,
      BitVec.getLsbD_allOnes, decide_eq_true hi]
  · rw [decide_eq_false hs, Bool.and_false, BitVec.ofNat_eq_ofNat, BitVec.getLsbD_zero]

/-- A rotation carries bit i by the amount, around the end of the word. -/
theorem bit_rol (a : Word) (n : Nat) {i : Nat} (hi : i < 32) : bit (a.rotateLeft (n % 32)) ((i + n) % 32) = bit a i := by
  rw [bit, BitVec.getLsbD_rotateLeft_of_le (Nat.mod_lt n (by decide))]
  by_cases hwrap : (i + n) % 32 < n % 32
  · rw [decide_eq_true hwrap, cond_true, show 32 - n % 32 + (i + n) % 32 = i by omega]
  · rw [decide_eq_false hwrap, cond_false, decide_eq_true (Nat.mod_lt _ (by decide)), Bool.true_and,
      show (i + n) % 32 - n % 32 = i by omega]

/-! ### Products (R134) -/

theorem toInt_mulData (a b : Word) : (mulData false a b).toInt = a.toInt * b.toInt :=
  BitVec.toInt_ofInt_eq_self (by decide) (le_trans (by decide) BitVec.le_toInt_mul_toInt)
    (lt_of_le_of_lt BitVec.toInt_mul_toInt_le (by decide))

theorem toNat_mulData (a b : Word) : (mulData true a b).toNat = a.toNat * b.toNat := by
  have hlt : a.toNat * b.toNat < 2 ^ 32 * 2 ^ 32 := Nat.mul_lt_mul'' a.isLt b.isLt
  show (BitVec.ofNat 64 (a.toNat * b.toNat)).toNat = _
  rw [BitVec.toNat_ofNat, Nat.mod_eq_of_lt (by omega)]

/-- The halves of a product of untagged operands. -/
theorem mulOp_raw (u : Bool) (a b : Word) : mulOp u ⟨a, Tag.raw⟩ ⟨b, Tag.raw⟩
    = ⟨⟨(mulData u a b).extractLsb' 0 32, Tag.raw⟩, ⟨(mulData u a b).extractLsb' 32 32, Tag.raw⟩, 0, false⟩ := rfl

/-! ### Delivery of untagged operands -/

theorem tagTwo_raw (compare : Bool) : tagTwo compare Tag.raw Tag.raw = .tag Tag.raw := by cases compare <;> rfl

/-- Every operation of the sixteen commands gives untagged operands an untagged result. -/
theorem aluTag_raw {op : Alu} (h1 : op ≠ .tset) (h2 : op ≠ .tchk) (a b : Word) : aluTag op ⟨a, Tag.raw⟩ ⟨b, Tag.raw⟩ = .tag Tag.raw := by
  by_cases hs : op = .shl ∨ op = .shr ∨ op = .sar ∨ op = .rol
  · rw [aluTag_shift hs]; rfl
  · rw [aluTag_two hs h1 h2, tagTwo_raw]

theorem aluCommands_op_ne {k : Fin 9} {u : Fin 2} {a : TWord} {i : Instr} {op : Alu} {d : Nat} (h : (i, op, d) ∈ aluCommands k u a) :
    op ≠ .tset ∧ op ≠ .tchk := by
  constructor <;>
    · rintro rfl
      simp [aluCommands] at h

theorem opnd_moved (v : Vol) (k d : Nat) : opnd (moved v k) d = opnd (coreOf v k) d := by rw [moved_eq]; rfl

@[simp] theorem resPort_setRes_same (c : Core) (n : Nat) (w : TWord) : resPort (setRes c n w) n = w := by simp [resPort, setRes]
theorem resPort_setRes_ne (c : Core) {n m : Nat} (w : TWord) (h : m ≠ n) : resPort (setRes c n w) m = resPort c m :=
  smapGet_set_ne _ _ _ _ (by omega)
@[simp] theorem resPort_orFlags (c : Core) (f : Word) (n : Nat) : resPort (orFlags c f) n = resPort c n := rfl
@[simp] theorem sysW_setRes (c : Core) (n : Nat) (w : TWord) (m : Nat) : sysW (setRes c n w) m = sysW c m := rfl
@[simp] theorem flags_orFlags (c : Core) (f : Word) : sysW (orFlags c f) 0 = sysW c 0 ||| f := by rw [orFlags, sysW_setSys, if_pos rfl]

/-- The result port and FLAGS behind an ALU operation. -/
theorem aluTaken_shown (c : Core) (n d pc : Nat) (r : OpRes) :
    resPort (aluTaken c n d pc r) n = r.r0 ∧ sysW (aluTaken c n d pc r) 0 = sysW c 0 ||| r.flags :=
  ⟨resPort_setRes_same c n r.r0, flags_orFlags (setRes c n r.r0) r.flags⟩

end Sys2Proof.Machine

namespace Sys2Proof

open Sys2Proof.Machine

/-- A command of an ALU unit on untagged operands leaves its data in the result port and adds its flags. -/
theorem aluCommands_raw_shown {s : State} {k : Fin 9} {u : Fin 2} {a b : Word} {i : Instr} {op : Alu} {d : Nat}
    (hi : (i, op, d) ∈ aluCommands k u ⟨a, Tag.raw⟩) (hm : canMove s.vol k = true)
    (hb : opnd (coreOf s.vol k) (if u.val = 0 then 32 else 51) = ⟨b, Tag.raw⟩) :
    ∃ t, exec i s = .next t ∧ (resPort (coreOf t.vol k) (32 + u.val)).data = (aluData op a b).1
      ∧ sysW (coreOf t.vol k) 0 = sysW (coreOf s.vol k) 0 ||| (aluData op a b).2 := by
  obtain ⟨h1, h2⟩ := aluCommands_op_ne hi
  have huntag : untag k ⟨a, Tag.raw⟩ = ⟨a, Tag.raw⟩ := untag_raw k a
  have hop : aluOp op (untag k ⟨a, Tag.raw⟩) (opnd (moved s.vol k) (if u.val = 0 then 32 else 51))
      = ⟨⟨(aluData op a b).1, Tag.raw⟩, TWord.zero, (aluData op a b).2, false⟩ := by
    rw [huntag, opnd_moved, hb]
    exact aluOp_of_tag (aluTag_raw h1 h2 a b) (by decide)
  refine ⟨_, aluCommands_deliver s k u ⟨a, Tag.raw⟩ i op d hi hm, ?_⟩
  obtain ⟨hres, hflags⟩ := aluTaken_shown (moved s.vol k) (32 + u.val) d (curBundle s.vol k)
    (aluOp op (untag k ⟨a, Tag.raw⟩) (opnd (moved s.vol k) (if u.val = 0 then 32 else 51)))
  show (resPort (coreOf (onMove s.vol k _) k) _).data = _ ∧ sysW (coreOf (onMove s.vol k _) k) 0 = _
  rw [coreOf_onMove (lt_of_canMove hm), hres, hflags, hop, sysW_moved _ _ (by decide)]
  exact ⟨rfl, rfl⟩

/-- Settles O17: sums by the signed range, shifts by their amounts, products by their bounds, and the ports by the commands' delivery. -/
theorem integerArithmetic : Obligations.IntegerArithmetic := by
  intro a b n sum dif
  obtain ⟨hadds, haddsFlag⟩ := aluData_adds a b
  obtain ⟨hsubs, hsubsFlag⟩ := aluData_subs a b
  refine ⟨⟨aluData_add a b, aluData_sub a b, rfl⟩, ⟨hadds, haddsFlag, hsubs, hsubsFlag⟩,
    ⟨fun op hop => aluData_shift_low8 hop a b, fun _ => ?_, fun hn => ?_, ?_⟩, ?_, ?_⟩
  · exact ⟨rfl, toNat_shr a n, toInt_sar a n⟩
  · exact ⟨BitVec.shiftLeft_eq_zero hn, BitVec.ushiftRight_eq_zero hn, sar_long a hn⟩
  · exact fun i hi => bit_rol a n hi
  · exact ⟨toInt_mulData a b, toNat_mulData a b, fun u => mulOp_raw u a b⟩
  · exact fun s k u i op d hi hm hb => aluCommands_raw_shown hi hm hb

end Sys2Proof
end

section
/-! SUPPORT. The end of a long operation (R126, R184, R186): with nothing recorded and the core not waiting, its results reach their
ports and nothing follows. -/

namespace Sys2Proof.Machine

/-! ### Changes of a core after which nothing follows -/

/-- A change of a core that records nothing, starts and ends no wait, and enters no handler. -/
def Uneventful (f : Core → Core) : Prop :=
  ∀ c, (f c).busf = c.busf ∧ (f c).sbf = c.sbf ∧ (f c).impr = c.impr ∧ (f c).wait = c.wait ∧ xActive (f c) = xActive c

theorem uneventful_setRes (n : Nat) (w : TWord) : Uneventful (setRes · n w) := fun _ => ⟨rfl, rfl, rfl, rfl, rfl⟩

theorem xActive_orFlags (c : Core) (f : Word) : xActive (orFlags c f) = xActive c := by
  rw [xActive, xActive, orFlags, sysW_setSys, if_neg (by decide)]

theorem uneventful_orFlags (w : Word) : Uneventful (orFlags · w) := fun c => ⟨rfl, rfl, rfl, rfl, xActive_orFlags c w⟩

theorem Uneventful.comp {f g : Core → Core} (hg : Uneventful g) (hf : Uneventful f) : Uneventful fun c => g (f c) := fun c => by
  obtain ⟨h1, h2, h3, h4, h5⟩ := hf c
  obtain ⟨e1, e2, e3, e4, e5⟩ := hg (f c)
  exact ⟨e1.trans h1, e2.trans h2, e3.trans h3, e4.trans h4, e5.trans h5⟩

/-- A change that leaves a core as it stands leaves the part. -/
theorem onCore_fixed {v : Vol} {k : Nat} {g : Core → Core} (h : g (coreOf v k) = coreOf v k) : onCore v k g = v := by
  rw [onCore, h, setCore_self]

/-- A core with nothing recorded that waits for nothing. -/
def AtEase (c : Core) : Prop := c.busf = none ∧ c.sbf = none ∧ c.impr = [] ∧ c.wait = .none

theorem AtEase.after {f : Core → Core} (hf : Uneventful f) {c : Core} (h : AtEase c) : AtEase (f c) := by
  obtain ⟨h1, h2, h3, h4⟩ := h
  obtain ⟨e1, e2, e3, e4, -⟩ := hf c
  exact ⟨e1.trans h1, e2.trans h2, e3.trans h3, e4.trans h4⟩

section
variable {nv : Nv} {v : Vol} {k : Nat} (h : AtEase (coreOf v k))
include h

theorem endFence_atEase : endFence v k = v := by
  obtain ⟨-, -, -, hwait⟩ := h
  refine onCore_fixed ?_
  simp only [hwait, Bool.false_eq_true, if_false]

theorem landBehind_atEase : onCore v k landBehind = v := by
  obtain ⟨hbus, -, himpr, -⟩ := h
  refine onCore_fixed ?_
  simp [landBehind, hbus, himpr]

theorem takeBehind_atEase (was : Wait) : takeBehind nv v k was = v := by
  obtain ⟨hbus, hsb, himpr, -⟩ := h
  simp [takeBehind, hbus, himpr, takePending_none hsb hbus himpr]

end

/-! ### A long operation ends -/

/-- A core that a unit's long operation has left. -/
def longLeft (u : LongUnit) (c : Core) : Core := { c with long := c.long.eraseP fun l => l.kind == unitKind u }

theorem uneventful_longLeft (u : LongUnit) : Uneventful (longLeft u) := fun _ => ⟨rfl, rfl, rfl, rfl, rfl⟩

theorem lt_of_long {v : Vol} {k : Nat} {p : LongOp → Bool} {l : LongOp} (h : (coreOf v k).long.find? p = some l) :
    k < v.cores.length := by
  by_contra hk
  rw [coreOf_short v k hk] at h
  cases h

/-- The end of an operation that runs: its results, the wait behind it, and what was recorded. -/
theorem completeLong_running {nv : Nv} {v : Vol} {k : Nat} {u : LongUnit} {l : LongOp}
    (hl : (coreOf v k).long.find? (fun l => l.kind == unitKind u) = some l) :
    completeLong nv v k u =
      let d := onCore (endFence (finishLong (onCore v k (longLeft u)) k l) k) k landBehind
      let w := takeBehind nv d k (coreOf v k).wait
      if xActive (coreOf w k) && !xActive (coreOf v k) then onCore w k fun c => { c with entAt := some d.now } else w := by
  unfold completeLong
  simp only [hl]
  rfl

/-- The unit's operation delivers what `finishLong` writes, and runs no more. -/
theorem completeLong_delivers {nv : Nv} {v : Vol} {k : Nat} {u : LongUnit} {l : LongOp} {f : Core → Core} (hease : AtEase (coreOf v k))
    (hl : (coreOf v k).long.find? (fun l => l.kind == unitKind u) = some l) (hf : Uneventful f)
    (hfin : finishLong (onCore v k (longLeft u)) k l = onCore (onCore v k (longLeft u)) k f) :
    completeLong nv v k u = onCore v k fun c => f (longLeft u c) := by
  have hdone := hf.comp (uneventful_longLeft u)
  have hcore := coreOf_onCore v k (fun c => f (longLeft u c)) (lt_of_long hl)
  have heasew : AtEase (coreOf (onCore v k fun c => f (longLeft u c)) k) := by rw [hcore]; exact hease.after hdone
  have hactive : xActive (coreOf (onCore v k fun c => f (longLeft u c)) k) = xActive (coreOf v k) := by
    rw [hcore]
    obtain ⟨-, -, -, -, ha⟩ := hdone (coreOf v k)
    exact ha
  rw [completeLong_running hl, hfin, onCore_onCore]
  simp only [endFence_atEase heasew, landBehind_atEase heasew, takeBehind_atEase heasew, hactive, Bool.and_not_self, Bool.false_eq_true,
    if_false]

/-- The end of a long operation as a command. -/
theorem exec_longOpComplete {s : State} {k : Fin 9} {u : LongUnit} {l : LongOp} {f : Core → Core} (hease : AtEase (coreOf s.vol k))
    (hl : (coreOf s.vol k).long.find? (fun l => l.kind == unitKind u) = some l) (hf : Uneventful f)
    (hfin : l.kind = unitKind u → finishLong (onCore s.vol k (longLeft u)) k l = onCore (onCore s.vol k (longLeft u)) k f) :
    exec (.longOpComplete k u) s = .next (withVol s (onCore s.vol k fun c => f (longLeft u c))) :=
  next_withVol (completeLong_delivers hease hl hf (hfin (by simpa using List.find?_some hl)))

/-- A core to which a division's results have come (R135). -/
def divided (k : Nat) (r : OpRes) (c : Core) : Core := orFlags (setRes (setRes c 36 (untag k r.r0)) 37 (untag k r.r1)) r.flags

theorem uneventful_divided (k : Nat) (r : OpRes) : Uneventful (divided k r) :=
  (uneventful_orFlags r.flags).comp ((uneventful_setRes 37 _).comp (uneventful_setRes 36 _))

/-- The ports and FLAGS behind a division's results. -/
theorem divided_shown (k : Nat) (r : OpRes) (c : Core) :
    resPort (divided k r c) 36 = untag k r.r0 ∧ resPort (divided k r c) 37 = untag k r.r1
      ∧ sysW (divided k r c) 0 = sysW c 0 ||| r.flags := by
  unfold divided
  refine ⟨?_, ?_, ?_⟩
  · rw [resPort_orFlags, resPort_setRes_ne _ _ (by decide), resPort_setRes_same]
  · rw [resPort_orFlags, resPort_setRes_same]
  · rw [flags_orFlags, sysW_setRes, sysW_setRes]

/-- The end of a division that records no fault (R135, R147). -/
theorem finishLong_div {v : Vol} {k : Nat} {l : LongOp} (hkind : l.kind = 0) (htag : (divOp l.uns l.a l.b).tagf = false)
    (hdz : (divOp l.uns l.a l.b).flags &&& flDZ = 0 ∨ ctlBit v k 2 = false) :
    finishLong v k l = onCore v k (divided k (divOp l.uns l.a l.b)) := by
  have hnodz : (((divOp l.uns l.a l.b).flags &&& flDZ) != 0 && ctlBit v k 2) = false := by
    rcases hdz with h | h
    · rw [h]; rfl
    · rw [h, Bool.and_false]
  unfold finishLong
  simp only [hkind, htag, hnodz, Bool.false_eq_true, if_false]
  rfl

end Sys2Proof.Machine
end

section
/-! PROOFS. Division (O18): the quotients that a word holds, and the edge cases of R135. -/

namespace Sys2Proof.Machine

/-! ### Signed division -/

/-- A proper signed division gives the truncated quotient and its remainder. -/
theorem divData_signed {a b : Word} (hb : b ≠ 0) (hedge : ¬ (a = 0x80000000 ∧ b = 0xFFFFFFFF)) :
    divData false a b = (BitVec.ofInt 32 (a.toInt.tdiv b.toInt), BitVec.ofInt 32 (a.toInt.tmod b.toInt), 0) :=
  (if_neg hb).trans (if_neg hedge)

theorem toInt_ne_zero {b : Word} (hb : b ≠ 0) : b.toInt ≠ 0 := fun h => hb (BitVec.eq_of_toInt_eq h)

/-- Only the most negative number by -1 has a quotient beyond the signed range. -/
theorem tdiv_range {a b : Word} (hedge : ¬ (a = 0x80000000 ∧ b = 0xFFFFFFFF)) :
    -2147483648 ≤ a.toInt.tdiv b.toInt ∧ a.toInt.tdiv b.toInt ≤ 2147483647 := by
  have ha := toInt_range a
  have habs := Int.natAbs_tdiv_le_natAbs a.toInt b.toInt
  refine ⟨by omega, ?_⟩
  by_contra hlarge
  have hmin : a.toInt = -2147483648 := by omega
  have hq : a.toInt.tdiv b.toInt = 2147483648 := by omega
  refine hedge ⟨BitVec.eq_of_toInt_eq hmin, BitVec.eq_of_toInt_eq (?_ : b.toInt = -1)⟩
  have hmag : 2147483648 / b.toInt.natAbs = 2147483648 := by
    have h : (a.toInt.tdiv b.toInt).natAbs = a.toInt.natAbs / b.toInt.natAbs := Int.natAbs_tdiv ..
    rw [hq, hmin] at h
    exact h.symm
  have hunit : b.toInt.natAbs = 1 := by
    have hle : ¬ 1 < b.toInt.natAbs := fun h => (Nat.div_lt_self (by decide : 0 < 2147483648) h).ne hmag
    have hne : b.toInt.natAbs ≠ 0 := fun h => absurd (h ▸ hmag) (by decide)
    omega
  have hone : b.toInt ≠ 1 := fun h => by
    rw [h, Int.tdiv_one] at hq
    omega
  omega

/-- A remainder is smaller than its divisor and has the sign of the dividend. -/
theorem tmod_spec (x : Int) {y : Int} (hy : y ≠ 0) :
    (x.tmod y).natAbs < y.natAbs ∧ (0 ≤ x → 0 ≤ x.tmod y) ∧ (x < 0 → x.tmod y ≤ 0) := by
  refine ⟨?_, Int.tmod_nonneg y, fun hx => ?_⟩
  · rw [Int.natAbs_tmod]
    exact Nat.mod_lt _ (Int.natAbs_pos.mpr hy)
  · have hneg := Int.tmod_nonneg y (Int.neg_nonneg_of_nonpos hx.le)
    rw [Int.neg_tmod] at hneg
    omega

theorem tmod_range (a : Word) {b : Word} (hb : b ≠ 0) : -2147483648 ≤ a.toInt.tmod b.toInt ∧ a.toInt.tmod b.toInt ≤ 2147483647 := by
  obtain ⟨hlt, -, -⟩ := tmod_spec a.toInt (toInt_ne_zero hb)
  have := toInt_range b
  omega

theorem divData_signed_spec {a b : Word} (hb : b ≠ 0) (hedge : ¬ (a = 0x80000000 ∧ b = 0xFFFFFFFF)) :
    (divData false a b).1.toInt = a.toInt.tdiv b.toInt ∧ (divData false a b).2.1.toInt = a.toInt.tmod b.toInt
      ∧ (divData false a b).2.2 = 0 := by
  rw [divData_signed hb hedge]
  exact ⟨toInt_ofInt_of_range (tdiv_range hedge), toInt_ofInt_of_range (tmod_range a hb), rfl⟩

/-! ### Unsigned division -/

theorem divData_unsigned_spec (a : Word) {b : Word} (hb : b ≠ 0) :
    (divData true a b).1.toNat = a.toNat / b.toNat ∧ (divData true a b).2.1.toNat = a.toNat % b.toNat ∧ (divData true a b).2.2 = 0 := by
  have hdata : divData true a b = (BitVec.ofNat 32 (a.toNat / b.toNat), BitVec.ofNat 32 (a.toNat % b.toNat), 0) := if_neg hb
  rw [hdata]
  exact ⟨Nat.mod_eq_of_lt (Nat.lt_of_le_of_lt (Nat.div_le_self ..) a.isLt),
    Nat.mod_eq_of_lt (Nat.lt_of_le_of_lt (Nat.mod_le ..) a.isLt), rfl⟩

/-! ### Division by zero -/

theorem divData_zero_of_nonneg {a : Word} (h : 0 ≤ a.toInt) : divData false a 0 = (0x7FFFFFFF, a, flDZ) := by
  show (if 0 ≤ a.toInt then maxWord else minWord, a, flDZ) = _
  rw [if_pos h]

theorem divData_zero_of_neg {a : Word} (h : a.toInt < 0) : divData false a 0 = (0x80000000, a, flDZ) := by
  show (if 0 ≤ a.toInt then maxWord else minWord, a, flDZ) = _
  rw [if_neg (Int.not_le.mpr h)]

/-! ### Delivery -/

/-- A division of untagged operands has an untagged quotient and remainder. -/
theorem divOp_raw (u : Bool) (a b : Word) : divOp u ⟨a, Tag.raw⟩ ⟨b, Tag.raw⟩
    = ⟨⟨(divData u a b).1, Tag.raw⟩, ⟨(divData u a b).2.1, Tag.raw⟩, (divData u a b).2.2, false⟩ := rfl

@[simp] theorem untag_data (k : Nat) (w : TWord) : (untag k w).data = w.data := by
  unfold untag
  split <;> rfl

end Sys2Proof.Machine

namespace Sys2Proof

open Sys2Proof.Machine

/-- A division of untagged operands delivers its data. -/
theorem longOpComplete_div_shown {s : State} {k : Fin 9} {l : LongOp} (hl : (coreOf s.vol k).long.find? (fun l => l.kind == 0) = some l)
    (ha : l.a.tag = Tag.raw) (hb : l.b.tag = Tag.raw) (hdz : ctlBit s.vol k 2 = false) (hease : AtEase (coreOf s.vol k)) :
    ∃ t, exec (.longOpComplete k .div) s = .next t ∧ (resPort (coreOf t.vol k) 36).data = (divData l.uns l.a.data l.b.data).1
      ∧ (resPort (coreOf t.vol k) 37).data = (divData l.uns l.a.data l.b.data).2.1
      ∧ sysW (coreOf t.vol k) 0 = sysW (coreOf s.vol k) 0 ||| (divData l.uns l.a.data l.b.data).2.2 := by
  have hop : divOp l.uns l.a l.b = ⟨⟨(divData l.uns l.a.data l.b.data).1, Tag.raw⟩, ⟨(divData l.uns l.a.data l.b.data).2.1, Tag.raw⟩,
      (divData l.uns l.a.data l.b.data).2.2, false⟩ := by
    rw [← divOp_raw, ← ha, show (⟨l.b.data, l.a.tag⟩ : TWord) = l.b by rw [ha, ← hb]]
  refine ⟨_, exec_longOpComplete (u := .div) hease hl (uneventful_divided k _) fun hkind =>
    finishLong_div hkind (by rw [hop]) (.inr hdz), ?_⟩
  obtain ⟨hq, hr, hf⟩ := divided_shown k (divOp l.uns l.a l.b) (longLeft .div (coreOf s.vol k))
  show (resPort (coreOf (onCore s.vol k _) k) 36).data = _ ∧ (resPort (coreOf (onCore s.vol k _) k) 37).data = _
    ∧ sysW (coreOf (onCore s.vol k _) k) 0 = _
  rw [coreOf_onCore _ _ _ (lt_of_long hl)]
  refine ⟨(congrArg TWord.data hq).trans ?_, (congrArg TWord.data hr).trans ?_, hf.trans ?_⟩
  · rw [untag_data, hop]
  · rw [untag_data, hop]
  · rw [hop]; rfl

/-- Settles O18: the truncated quotient and its remainder where a word holds them, the edge cases by their branches, and the ports by the
end of the operation. -/
theorem divisionArithmetic : Obligations.DivisionArithmetic := by
  refine ⟨fun a b => ⟨fun hb hedge => ?_, fun hb => ?_, rfl, divData_zero_of_nonneg, divData_zero_of_neg, rfl⟩, ?_⟩
  · obtain ⟨hq, hr, hf⟩ := divData_signed_spec hb hedge
    obtain ⟨hlt, hpos, hneg⟩ := tmod_spec a.toInt (toInt_ne_zero hb)
    rw [hq, hr]
    exact ⟨Int.tdiv_mul_add_tmod .., hlt, hf, hpos, hneg⟩
  · obtain ⟨hq, hr, hf⟩ := divData_unsigned_spec a hb
    have hpos : 0 < b.toNat := Nat.pos_of_ne_zero fun h => hb (BitVec.eq_of_toNat_eq h)
    rw [hq, hr]
    exact ⟨Nat.div_add_mod' .., Nat.mod_lt _ hpos, hf⟩
  · intro s k l c hl ha hb hdz hbus hsb himpr hwait d
    exact longOpComplete_div_shown hl ha hb hdz ⟨hbus, hsb, himpr, hwait⟩

end Sys2Proof
end

section
/-! SUPPORT. Tables in a core's own SRAM (R150, R252): from words with sound check bits a unit reads what they hold. -/

namespace Sys2Proof.Machine

/-- A word of a table is an SRAM word whose key is its address. -/
theorem tableRd_eq_some {v : Vol} {k h i : Nat} {w : Word} (hr : tableRd v k h i = some w) : (sramWord v (h + 4 * i)).data = w := by
  unfold tableRd at hr
  split at hr
  · cases hr
  · next hal =>
    split at hr
    · next p hp =>
      split at hr
      · next hdir =>
        have hkey := place_key hp hdir.2
        rw [show p.key = h + 4 * i by omega] at hr
        exact Option.some.inj hr
      · cases hr
    · cases hr

/-- Words read, each of which is the table's. -/
def OfTable (v : Vol) (k h : Nat) (ws : SMap Word) : Prop := ∀ i w, smapFind ws i = some w → tableRd v k h i = some w

theorem OfTable.put {v : Vol} {k h : Nat} {ws : SMap Word} (hws : OfTable v k h ws) {i : Nat} {w : Word}
    (hr : tableRd v k h i = some w) : OfTable v k h (smapPut ws i w) := by
  intro j x hj
  rw [smapFind_put] at hj
  split at hj
  · next hij => rw [hij, hr, hj]
  · exact hws j x hj

/-- A reader that goes on from words of the table reads the table. -/
theorem OfTable.tableOf_eq {v : Vol} {k h : Nat} {ws : SMap Word} (hws : OfTable v k h ws) : tableOf v k h ws = tableRd v k h := by
  funext i
  unfold tableOf
  split
  · next w hw => exact (hws i w hw).symm
  · rfl

/-- What a unit has read of a table whose words are sound: nothing of the part has changed, and no word was uncorrectable. -/
def ReadSound (v : Vol) (k h : Nat) (acc : Vol × SMap Word × Option Nat) : Prop := ∃ ws, acc = (v, ws, none) ∧ OfTable v k h ws

/-- A unit that reads sound words reads the table, and changes nothing. -/
theorem tableWords_sound {v : Vol} {k h : Nat} (hs : ∀ x, wrongBits v x = 0) (needs : (Nat → Option Word) → Nat → List Nat) :
    ∃ ws, tableWords v k h needs = (v, ws, none) ∧ tableOf v k h ws = tableRd v k h := by
  have hread : ReadSound v k h (tableWords v k h needs) := by
    unfold tableWords
    refine List.foldlRecOn _ _ ⟨[], rfl, fun i w hw => by cases hw⟩ fun acc hacc stage _ => ?_
    refine List.foldlRecOn _ _ hacc fun acc hacc i _ => ?_
    obtain ⟨ws, rfl, hws⟩ := hacc
    split
    · exact ⟨ws, rfl, hws⟩
    · next hneed =>
      simp only [Bool.or_eq_true, not_or, Option.isNone_iff_eq_none] at hneed
      obtain ⟨w, hw⟩ := Option.ne_none_iff_exists'.mp hneed.2
      simp only [sramRead_sound (hs _), tableRd_eq_some hw]
      exact ⟨_, rfl, hws.put hw⟩
  obtain ⟨ws, hrun, hws⟩ := hread
  exact ⟨ws, hrun, hws.tableOf_eq⟩

end Sys2Proof.Machine
end

section
/-! PROOFS. Multiplications and long operations start and deliver (O19). -/

namespace Sys2Proof.Machine

/-! ### The results of the table units and of a block operation -/

section
variable {v : Vol} {k : Nat} {l : LongOp}

/-- An interpolation's result, from a table whose words are sound (R153, R157). -/
theorem finishLong_itp (hs : ∀ x, wrongBits v x = 0) (hkind : l.kind = 1) (ha : l.a.isPoison = false) (hb : l.b.isPoison = false)
    (hhandle : k = 8 ∨ l.b.tag = Tag.handle ∨ l.b.tag = Tag.raw) {y : TWord} {f : Word}
    (heval : curveEval (tableRd v k l.b.data.toNat) false l.a = .ok y f) :
    finishLong v k l = onCore v k fun c => orFlags (setRes c 40 (untag k y)) f := by
  obtain ⟨ws, hws, hof⟩ := tableWords_sound (k := k) (h := l.b.data.toNat) hs (curveNeeds l.a)
  have hok : (k == 8 || l.b.tag == Tag.handle || l.b.tag == Tag.raw) = true := by
    simpa only [Bool.or_eq_true, beq_iff_eq, or_assoc] using hhandle
  unfold finishLong
  simp only [hkind, ha, hb, Bool.or_self, Bool.false_eq_true, if_false, hws, hof, heval, hok, if_true]

/-- A sequencer step's results, from a table whose words are sound (R161). -/
theorem finishLong_seq (hs : ∀ x, wrongBits v x = 0) (hkind : l.kind = 2) (ha : l.a.isPoison = false) (hb : l.b.isPoison = false)
    (hc : l.c.isPoison = false) {x act : TWord} {f : Word}
    (heval : seqEval (tableRd v k l.b.data.toNat) (k == 8) l.b l.c l.a = (.ok x f, act)) :
    finishLong v k l = onCore v k fun c => setRes (setRes c 41 (untag k x)) 42 (untag k act) := by
  obtain ⟨ws, hws, hof⟩ := tableWords_sound (k := k) (h := l.b.data.toNat) hs (seqNeeds l.c l.a)
  unfold finishLong
  simp only [hkind, ha, hb, hc, Bool.or_self, Bool.false_eq_true, if_false, hws, hof, heval]

/-- A block operation with no element left has found nothing (R164). -/
theorem finishLong_rep (hkind : l.kind = 3) (hcount : (opnd (coreOf v k) 95).data = 0) :
    finishLong v k l = onCore v k fun c => setRes c 43 TWord.zero := by
  have hq : untag k ⟨0, Tag.raw⟩ = TWord.zero := untag_raw k 0
  have hrun (op n : Nat) : repRun k op n (opnd (coreOf v k) 95).data.toNat v = (v, none, some 0) := by rw [hcount]; rfl
  unfold finishLong
  simp only [hkind, hrun, hq]

end

/-! ### Moves to the units that take their time -/

/-- The trigger ports of the multiplier and of the units of long operations (R96). -/
def isSlowPort (d : Nat) : Prop := d = 69 ∨ d = 70 ∨ d = 72 ∨ d = 73 ∨ d = 96 ∨ d = 98 ∨ d = 101

/-- Of a move to such a port only the unit's hold, its control word and a poisoned control word decide. -/
theorem canTake_slow {v : Vol} {k d : Nat} {x : TWord} (hd : isSlowPort d) (hm : canMove v k = true)
    (hholds : trigHolds k d x (moved v k) = false) (hres : trigReserved d x (moved v k) = false)
    (hpois : (isControl d && x.isPoison) = false) : canTake v k d x = true := by
  unfold isSlowPort at hd
  have hpriv : trigPriv d (modeDue (coreOf v k)) = false := by
    simp [trigPriv, show d ≠ 86 by omega, show d ≠ 103 by omega, show d ≠ 104 by omega]
  have hpoison : movePoison d x (modeDue (coreOf v k)) = false := by
    have hstore : ¬ (80 ≤ d ∧ d ≤ 82) := by omega
    simp only [movePoison, hpois, Bool.false_or, ← Bool.decide_and, decide_eq_false hstore, Bool.false_and]
  have hstack : trigStack v k d (modeDue (coreOf v k)) = none := by
    simp [trigStack, show d ≠ 84 by omega, show d ≠ 85 by omega, show d ≠ 91 by omega]
  have hlsu : lsuFault v k 0 d x (modeDue (coreOf v k)) (modeDue (coreOf v k)).pc = none :=
    if_pos (by rcases hd with rfl | rfl | rfl | rfl | rfl | rfl | rfl <;> decide)
  have himg : imageFault v k 0 d x (modeDue (coreOf v k)) (modeDue (coreOf v k)).pc = none := if_pos (.inl (by omega))
  have hjump : (isTransfer d || d == 91) = false := by
    rcases hd with rfl | rfl | rfl | rfl | rfl | rfl | rfl <;> decide
  have hholds' : trigHolds k d x (modeDue (coreOf v k)) = false := hholds
  have hres' : trigReserved d x (modeDue (coreOf v k)) = false := hres
  simp [canTake, hm, dstOk_common k (show d < 112 ∧ d ≠ 49 ∧ d ≠ 50 ∧ d ≠ 89 by omega), hjump, hholds', hres',
    execFault_none hpriv hpoison hstack hlsu himg]

section
variable {nv : Nv} {v : Vol} {k : Nat} {a : TWord}

/-- A core with a multiplication in flight for three bundles (R125, R134). -/
def multiplying (x b : TWord) (d pc : Nat) (c : Core) : Core :=
  { c with fl := c.fl ++ [⟨false, x, b, if d = 70 then 4 else 0, 3, pc, 0, d, false⟩] }

theorem triggerMove_mul {d : Nat} (hd : d = 69 ∨ d = 70) (hm : canMove v k = true) :
    triggerMove nv v k d a = onMove v k (multiplying (untag k a) (opnd (moved v k) 68) d (curBundle v k)) := by
  have hunit : trigUnit d = some .mul := by rcases hd with rfl | rfl <;> rfl
  have hctl : isControl d = false := by rcases hd with rfl | rfl <;> rfl
  have htake : canTake v k d (untag k a) = true :=
    canTake_slow (by unfold isSlowPort; omega) hm (by simp [trigHolds, hunit]) (by simp [trigReserved, hunit]) (by simp [hctl])
  refine triggerMove_onMove htake ?_ (fun _ => rfl) fun _ => rfl
  have hcore : coreOf (onMove v k fun c => c) k = moved v k := coreOf_onMove (lt_of_canMove hm) _
  unfold trig
  simp only [hunit, hcore, setCore_onMove]
  rfl

/-- A core with a further long operation under way, which in precise mode it waits for (R126, R148). -/
def longBegun (precise : Bool) (l : LongOp) (c : Core) : Core :=
  { c with long := c.long ++ [l], wait := if precise then .op [l.kind] else c.wait }

theorem moved_wait (hm : canMove v k = true) : (moved v k).wait = .none := by
  obtain ⟨hi, -, -⟩ := canMove_iff.mp hm
  simp only [issuing, Bool.and_eq_true, beq_iff_eq] at hi
  obtain ⟨⟨-, hwait⟩, -⟩ := hi
  rw [moved_eq]
  exact hwait

theorem startLong_onMove (hm : canMove v k = true) (l : LongOp) :
    startLong (onMove v k fun c => c) k l = onMove v k (longBegun (ctlBit v k 1) l) := by
  have hwait := moved_wait hm
  unfold startLong
  rw [onCore_onMove (lt_of_canMove hm)]
  simp only [onMove, longBegun, hwait]
  rfl

/-- A move whose trigger starts a long operation. -/
theorem triggerMove_long {d : Nat} {l : LongOp} (htake : canTake v k d (untag k a) = true)
    (htrig : trig (onMove v k fun c => c) k 0 d (untag k a) = startLong (onMove v k fun c => c) k l) :
    triggerMove nv v k d a = onMove v k (longBegun (ctlBit v k 1) l) :=
  triggerMove_onMove htake (htrig.trans (startLong_onMove (canMove_of_canTake htake) l)) (fun _ => rfl) fun _ => rfl

/-- A division starts where the divider is free (R127, R135). -/
theorem triggerMove_div {d : Nat} (hd : d = 72 ∨ d = 73) (hm : canMove v k = true)
    (hfree : ((moved v k).long.any fun l => l.kind == 0) = false) :
    triggerMove nv v k d a = onMove v k (longBegun (ctlBit v k 1)
      ⟨0, untag k a, opnd (moved v k) 71, TWord.zero, d == 73, curBundle v k, 0, d, v.now, 0⟩) := by
  have hunit : trigUnit d = some .div := by rcases hd with rfl | rfl <;> rfl
  have hctl : isControl d = false := by rcases hd with rfl | rfl <;> rfl
  refine triggerMove_long (canTake_slow (by unfold isSlowPort; omega) hm (by simp only [trigHolds, hunit, hfree])
    (by simp only [trigReserved, hunit]) (by rw [hctl, Bool.false_and])) ?_
  unfold trig
  simp only [hunit, coreOf_onMove (lt_of_canMove hm)]
  rfl

section
variable (hm : canMove v k = true) (hfree : ((moved v k).long.any fun l => l.kind != 0) = false)
include hm hfree

/-- An interpolation starts where no table or block operation runs (R127, R153). -/
theorem triggerMove_itp : triggerMove nv v k 98 a = onMove v k (longBegun (ctlBit v k 1)
    ⟨1, untag k a, opnd (moved v k) 97, TWord.zero, false, curBundle v k, 0, 98, v.now, 0⟩) := by
  refine triggerMove_long (canTake_slow (by unfold isSlowPort; decide) hm hfree rfl rfl) ?_
  rw [← coreOf_onMove (lt_of_canMove hm) fun c => c]
  rfl

/-- And so does a sequencer step (R127, R161). -/
theorem triggerMove_seq : triggerMove nv v k 101 a = onMove v k (longBegun (ctlBit v k 1)
    ⟨2, untag k a, opnd (moved v k) 99, opnd (moved v k) 100, false, curBundle v k, 0, 101, v.now, 0⟩) := by
  refine triggerMove_long (canTake_slow (by unfold isSlowPort; decide) hm hfree rfl rfl) ?_
  rw [← coreOf_onMove (lt_of_canMove hm) fun c => c]
  rfl

/-- And a block operation whose control word has no reserved bits and is not POISON (R98, R116, R164). -/
theorem triggerMove_rep (hhigh : fld a.data 31 4 = 0) (hsize : fld a.data 3 2 ≠ 3) (hpois : (untag k a).isPoison = false) :
    triggerMove nv v k 96 a = onMove v k (longBegun (ctlBit v k 1)
      ⟨3, untag k a, TWord.zero, untag k a, false, curBundle v k, 0, 96, v.now, 0⟩) := by
  have hres : trigReserved 96 (untag k a) (moved v k) = false := by
    simp [trigReserved, show trigUnit 96 = some .rep from rfl, hhigh, hsize]
  exact triggerMove_long (canTake_slow (by unfold isSlowPort; decide) hm hfree hres (by rw [hpois, Bool.and_false])) rfl

end

end

end Sys2Proof.Machine

namespace Sys2Proof

open Sys2Proof.Machine

/-- Settles O19: a trigger starts its unit, and what the unit finishes reaches its ports with nothing behind it. -/
theorem longUnitsAct : Obligations.LongUnitsAct := by
  constructor
  · intro s k a hm v c x pc begun flown
    refine ⟨next_withVol (triggerMove_mul (.inl rfl) hm), next_withVol (triggerMove_mul (.inr rfl) hm), fun hfree => ⟨?_, ?_⟩,
      fun hfree => ⟨?_, ?_, fun hhigh hsize hpois => ?_⟩⟩
    · exact next_withVol (triggerMove_div (.inl rfl) hm hfree)
    · exact next_withVol (triggerMove_div (.inr rfl) hm hfree)
    · exact next_withVol (triggerMove_itp hm hfree)
    · exact next_withVol (triggerMove_seq hm hfree)
    · exact next_withVol (triggerMove_rep hm hfree hhigh hsize hpois)
  · intro s k u l v c hl hbus hsb himpr hwait hs done
    have hease : AtEase (coreOf s.vol k) := ⟨hbus, hsb, himpr, hwait⟩
    have hsound : ∀ x, wrongBits (onCore s.vol k (longLeft u)) x = 0 := hs
    refine ⟨fun r hu hr htag hdz => ?_, fun y f hu ha hb hhandle heval => ?_, fun x f act hu ha hb hc heval => ?_, fun hu hcount => ?_⟩
    · subst hu hr
      exact exec_longOpComplete hease hl (uneventful_divided k _) fun hkind => finishLong_div hkind htag (.inl hdz)
    · subst hu
      exact exec_longOpComplete hease hl ((uneventful_orFlags f).comp (uneventful_setRes 40 _)) fun hkind =>
        finishLong_itp hsound hkind ha hb hhandle heval
    · subst hu
      exact exec_longOpComplete hease hl ((uneventful_setRes 42 _).comp (uneventful_setRes 41 _)) fun hkind =>
        finishLong_seq hsound hkind ha hb hc heval
    · subst hu
      refine exec_longOpComplete hease hl (uneventful_setRes 43 _) fun hkind => finishLong_rep hkind ?_
      rw [coreOf_onCore _ _ _ (lt_of_long hl)]
      exact hcount

end Sys2Proof
end

section
/-! PROOFS. CORE_CTL and the load of a branch-target table (O31). -/

namespace Sys2Proof.Machine

/-! ### Writes of CORE_CTL (R177, R182, R211) -/

/-- The page of core k belongs to core k. -/
theorem core_page (k : Fin 9) {inf : PageInfo} (hp : pageInfo (pCore k) = some inf) :
    (inf.blk = .core ∨ inf.blk = .core8) ∧ inf.inst = k.val := by
  have key : ∀ k : Fin 9, ((pageInfo (pCore k)).map fun i => ((i.blk == .core || i.blk == .core8), i.inst)) = some (true, k.val) := by
    decide +kernel
  have h := key k
  rw [hp] at h
  simpa using h

/-- CORE_CTL is writable, without reserved codes and write-once bits. -/
theorem specAt_coreCtl (k : Fin 9) :
    ∃ sp, specAt (pCore k) 0x008 = some sp ∧ sp.rw = 127 ∧ sp.w1c = 0 ∧ sp.rwo = 0 ∧ sp.chk = [] := by
  have key : ∀ k : Fin 9, (specAt (pCore k) 0x008).map (fun sp => (sp.rw, sp.w1c, sp.rwo, sp.chk)) = some (127, 0, 0, []) := by
    decide +kernel
  obtain ⟨sp, hsp, hmask⟩ := Option.map_eq_some_iff.mp (key k)
  simp only [Prod.mk.injEq] at hmask
  exact ⟨sp, hsp, hmask⟩

/-- A core page takes a write of CTL by its fields and by what these do to the core. -/
theorem blockWrite_coreCtl (nv : Nv) (v : Vol) (m : Nat) (k : Fin 9) (via : Via) (w : Word) {inf : PageInfo}
    (hp : pageInfo (pCore k) = some inf) : blockWrite nv v inf m (pCore k) 0x008 via w
      = coreCtlWrite (regWrite v (pCore k) 0x008 via w) k (rg v (aCtl (pCore k))) := by
  obtain ⟨hblk, hinst⟩ := core_page k hp
  rw [← hinst]
  rcases hblk with h | h <;> simp only [blockWrite, h, if_true, hinst]

/-- CORE_CTL with BTBLOAD kept at 1 while a load of core k runs (R177). -/
def btbloadKept (k : Nat) (v y : Vol) : Vol := if rb v (aCtl (pCore k)) 6 then rgOr y (aCtl (pCore k)) 0x40 else y

/-- What a write of RUN, HALTREQ and BTBLOAD has done to CORE_CTL, from v to z. -/
structure CtlMoves (v z : Vol) (k : Nat) (run halt load : Bool → Bool) : Prop where
  run : rb z (aCtl (pCore k)) 4 = run (rb v (aCtl (pCore k)) 4)
  halt : rb z (aCtl (pCore k)) 5 = halt (rb v (aCtl (pCore k)) 5)
  load : rb z (aCtl (pCore k)) 6 = load (rb v (aCtl (pCore k)) 6)
  pend : (coreOf z k).startPend = (coreOf v k).startPend

theorem rb_btbloadKept (k : Nat) (v y : Vol) (i : Nat) :
    rb (btbloadKept k v y) (aCtl (pCore k)) i = (rb y (aCtl (pCore k)) i || (rb v (aCtl (pCore k)) 6 && bit 0x40 i)) := by
  unfold btbloadKept
  cases rb v (aCtl (pCore k)) 6
  · simp
  · rw [if_pos rfl, rb_rgOr, Bool.true_and]

theorem cores_btbloadKept (k : Nat) (v y : Vol) : (btbloadKept k v y).cores = y.cores := by
  unfold btbloadKept
  split <;> rfl

theorem coreOf_congr {v v' : Vol} (h : v'.cores = v.cores) (k : Nat) : coreOf v' k = coreOf v k := by rw [coreOf, coreOf, h]

/-- Bits written 1 through the bit-set alias. -/
theorem ctlMoves_set (v : Vol) (k : Nat) (w : Word) :
    CtlMoves v (btbloadKept k v (rgOr v (aCtl (pCore k)) w)) k (· || bit w 4) (· || bit w 5) (· || bit w 6) := by
  have h40 : bit (0x40 : Word) 4 = false ∧ bit (0x40 : Word) 5 = false ∧ bit (0x40 : Word) 6 = true := by decide
  obtain ⟨h4, h5, h6⟩ := h40
  refine ⟨?_, ?_, ?_, by rw [coreOf_congr (cores_btbloadKept k v _)]; rfl⟩
  · rw [rb_btbloadKept, rb_rgOr, h4, Bool.and_false, Bool.or_false]
  · rw [rb_btbloadKept, rb_rgOr, h5, Bool.and_false, Bool.or_false]
  · rw [rb_btbloadKept, rb_rgOr, h6, Bool.and_true]
    cases rb v (aCtl (pCore k)) 6 <;> simp

/-- Bits written 0 through the bit-clear alias, BTBLOAD aside. -/
theorem ctlMoves_clear (v : Vol) (k : Nat) {w : Word} (hw : bit w 6 = false) :
    CtlMoves v (btbloadKept k v (rgClr v (aCtl (pCore k)) w)) k (· && !bit w 4) (· && !bit w 5) id := by
  have h40 : bit (0x40 : Word) 4 = false ∧ bit (0x40 : Word) 5 = false ∧ bit (0x40 : Word) 6 = true := by decide
  obtain ⟨h4, h5, h6⟩ := h40
  refine ⟨?_, ?_, ?_, by rw [coreOf_congr (cores_btbloadKept k v _)]; rfl⟩
  · rw [rb_btbloadKept, rb_rgClr _ _ _ (by decide), h4, Bool.and_false, Bool.or_false]
  · rw [rb_btbloadKept, rb_rgClr _ _ _ (by decide), h5, Bool.and_false, Bool.or_false]
  · rw [rb_btbloadKept, rb_rgClr _ _ _ (by decide), h6, hw, Bool.and_true]
    cases rb v (aCtl (pCore k)) 6 <;> rfl

section
variable {v y z : Vol} {k : Nat} {run halt load : Bool → Bool} (hz : btbloadKept k v y = z) (h : CtlMoves v z k run halt load)
include hz h

/-- What follows a write of CORE_CTL, bit by bit. -/
theorem coreCtlWrite_eq {r s b r' s' b' : Bool} (hr : rb v (aCtl (pCore k)) 4 = r) (hs : rb v (aCtl (pCore k)) 5 = s)
    (hb : rb v (aCtl (pCore k)) 6 = b) (hr' : run r = r') (hs' : halt s = s') (hb' : load b = b') :
    coreCtlWrite y k (rg v (aCtl (pCore k))) =
      let v := if !b && b' then rgSet z (ra (pCore k) 0x04C) 0 else z
      let v := if !b && b' then onCore v k fun c => { c with btb := c.btb.filter fun e => !e.2 } else v
      let v := if !s && s' then raiseEvent (onCore v k fun c => { c with last := none }) (pCore k) 6 else v
      let v := if !r && r' then (if s' then onCore v k fun c => { c with startPend := true } else startCore v k)
        else if r && !r' then onCore v k fun c => { c with run := false, startPend := false } else v
      if (s && !s') && (coreOf v k).startPend then startCore v k else v := by
  have hr2 := h.run
  have hs2 := h.halt
  have hb2 := h.load
  rw [hr, hr'] at hr2
  rw [hs, hs'] at hs2
  rw [hb, hb'] at hb2
  subst hz
  simp only [rb] at hr hs hb hr2 hs2 hb2
  unfold coreCtlWrite
  simp only [btbloadKept, rb, hb] at hr2 hs2 hb2 ⊢
  simp only [rose, fell, hr, hs, hb, hr2, hs2, hb2]

end

section
variable (s : State) (m : Fin 16) (k : Fin 9) (ho : pageOpen s.vol m (pCore k) = true) {w : Word}
  (hw : w &&& BitVec.ofNat 32 127 = w) (h31 : bit w 31 = false)
include ho hw h31

/-- CORE_CTL written through the bit-set alias. -/
theorem setBits_coreCtl : (.next { s with vol := setBits s.nv s.vol m (aCtl (pCore k)) w } : Out)
    = .next (performed s m (aCtl (pCore k) + 0x400) w
      (coreCtlWrite (rgOr s.vol (aCtl (pCore k)) w) k (rg s.vol (aCtl (pCore k))))) := by
  obtain ⟨inf, hp⟩ := pageOpen_info ho
  obtain ⟨sp, hsp, hrw, -, hrwo, hchk⟩ := specAt_coreCtl k
  rw [setBits_ctl s.nv s.vol m w hp ho h31, blockWrite_coreCtl s.nv s.vol m k .setBits w hp,
    regWrite_setBits s.vol hsp hchk hrwo (by rw [hrw, hw])]
  rfl

/-- CORE_CTL written through the bit-clear alias. -/
theorem clearBits_coreCtl : (.next { s with vol := clearBits s.nv s.vol m (aCtl (pCore k)) w } : Out)
    = .next (performed s m (aCtl (pCore k) + 0x800) w
      (coreCtlWrite (rgClr s.vol (aCtl (pCore k)) w) k (rg s.vol (aCtl (pCore k))))) := by
  obtain ⟨inf, hp⟩ := pageOpen_info ho
  obtain ⟨sp, hsp, hrw, hw1c, hrwo, hchk⟩ := specAt_coreCtl k
  rw [clearBits_ctl s.nv s.vol m w hp ho h31, blockWrite_coreCtl s.nv s.vol m k .clearBits w hp,
    regWrite_clearBits s.vol hsp hchk hrwo (by rw [hrw, hw]) hw1c]
  rfl

end

section
variable (v : Vol) (k : Nat)

/-- RUN rises on a core without a halt request, which starts (R211). -/
theorem coreCtlWrite_starts (hr : rb v (aCtl (pCore k)) 4 = false) (hs : rb v (aCtl (pCore k)) 5 = false) :
    coreCtlWrite (rgOr v (aCtl (pCore k)) 0x10) k (rg v (aCtl (pCore k)))
      = startCore (btbloadKept k v (rgOr v (aCtl (pCore k)) 0x10)) k := by
  rw [coreCtlWrite_eq rfl (ctlMoves_set v k 0x10) hr hs rfl rfl rfl rfl]
  simp [bit]

/-- RUN rises under a halt request: the start waits. -/
theorem coreCtlWrite_startWaits (hr : rb v (aCtl (pCore k)) 4 = false) (hs : rb v (aCtl (pCore k)) 5 = true) :
    coreCtlWrite (rgOr v (aCtl (pCore k)) 0x10) k (rg v (aCtl (pCore k)))
      = onCore (btbloadKept k v (rgOr v (aCtl (pCore k)) 0x10)) k fun c => { c with startPend := true } := by
  rw [coreCtlWrite_eq rfl (ctlMoves_set v k 0x10) hr hs rfl rfl rfl rfl]
  simp [bit]

/-- RUN falls: the core stops. -/
theorem coreCtlWrite_stops (hr : rb v (aCtl (pCore k)) 4 = true) (hs : rb v (aCtl (pCore k)) 5 = false) :
    coreCtlWrite (rgClr v (aCtl (pCore k)) 0x10) k (rg v (aCtl (pCore k)))
      = onCore (btbloadKept k v (rgClr v (aCtl (pCore k)) 0x10)) k fun c => { c with run := false, startPend := false } := by
  rw [coreCtlWrite_eq rfl (ctlMoves_clear v k (w := 0x10) (by decide)) hr hs rfl rfl rfl rfl]
  simp [bit]

/-- HALTREQ rises, with core event 6. -/
theorem coreCtlWrite_halts (hs : rb v (aCtl (pCore k)) 5 = false) :
    coreCtlWrite (rgOr v (aCtl (pCore k)) 0x20) k (rg v (aCtl (pCore k)))
      = raiseEvent (onCore (btbloadKept k v (rgOr v (aCtl (pCore k)) 0x20)) k fun c => { c with last := none }) (pCore k) 6 := by
  rw [coreCtlWrite_eq rfl (ctlMoves_set v k 0x20) rfl hs rfl rfl rfl rfl]
  simp [bit]

/-- HALTREQ falls: a start that waited takes place. -/
theorem coreCtlWrite_goesOn (hs : rb v (aCtl (pCore k)) 5 = true) :
    coreCtlWrite (rgClr v (aCtl (pCore k)) 0x20) k (rg v (aCtl (pCore k)))
      = if (coreOf v k).startPend then startCore (btbloadKept k v (rgClr v (aCtl (pCore k)) 0x20)) k
        else btbloadKept k v (rgClr v (aCtl (pCore k)) 0x20) := by
  have h := ctlMoves_clear v k (w := 0x20) (by decide)
  rw [coreCtlWrite_eq rfl h rfl hs rfl rfl rfl rfl, ← h.pend]
  simp [bit]

/-- BTBLOAD rises: CORE_BTBST and the locked entries are empty (R177). -/
theorem coreCtlWrite_loads (hb : rb v (aCtl (pCore k)) 6 = false) :
    coreCtlWrite (rgOr v (aCtl (pCore k)) 0x40) k (rg v (aCtl (pCore k)))
      = onCore (rgSet (rgOr v (aCtl (pCore k)) 0x40) (ra (pCore k) 0x04C) 0) k fun c => { c with btb := c.btb.filter fun e => !e.2 } := by
  have hkept : btbloadKept k v (rgOr v (aCtl (pCore k)) 0x40) = rgOr v (aCtl (pCore k)) 0x40 := if_neg (by simp [hb])
  rw [coreCtlWrite_eq rfl (ctlMoves_set v k 0x40) rfl rfl hb rfl rfl rfl, hkept]
  simp [bit]

/-- BTBLOAD written 1 during a load changes nothing. -/
theorem coreCtlWrite_loadRuns (hb : rb v (aCtl (pCore k)) 6 = true) :
    coreCtlWrite (rgOr v (aCtl (pCore k)) 0x40) k (rg v (aCtl (pCore k)))
      = btbloadKept k v (rgOr v (aCtl (pCore k)) 0x40) := by
  rw [coreCtlWrite_eq rfl (ctlMoves_set v k 0x40) rfl rfl hb rfl rfl rfl]
  simp [bit]

end

end Sys2Proof.Machine
end

section
/-! PROOFS. The end of a branch-target load, and CORE_CTL as a whole (O31). -/

namespace Sys2Proof.Machine

/-! ### The load ends (R177, R178) -/

/-- A load that ends: BTBLOAD clears. -/
def btbOver (v : Vol) (k : Nat) : Vol := nextFree (rbSet v (aCtl (pCore k)) 6 false)

/-- Whether a word of a table names a line that core k may lock (R178). -/
def lockable (nv : Nv) (v : Vol) (k t : Nat) : Bool :=
  t % 128 == 0 && t / 0x800000 == activePlane v && executable nv (btbOver v k) t && decide (lineErr nv v.free t < 2)
    && decide (lineErr nv v.free (t + 128) < 2)

/-- Core k with the lines of a table locked, before what its BTB held. -/
def btbLocked (good : List Nat) (c : Core) : Core :=
  { c with btb := (good.map fun t => (t, true)) ++ (c.btb.filter fun e => !good.contains e.1).take (64 - good.length) }

/-- The table's entries, in config flash. -/
def btbTable (nv : Nv) (base n : Nat) : List Nat := (List.range n).map fun i => (flashWord nv (base + 4 * (i + 1))).toNat

/-- The entries of the table that can be locked (R178). -/
def btbGood (nv : Nv) (v : Vol) (k base n : Nat) : List Nat := ((btbTable nv base n).filter (lockable nv v k)).eraseDups

/-- The load over, the good entries locked and CORE_BTBST w. -/
def btbEnded (v : Vol) (k : Nat) (good : List Nat) (w : Word) : Vol :=
  rgSet (onCore (btbOver v k) k (btbLocked good)) (ra (pCore k) 0x04C) w

/-- A load of a sound table in config flash locks the entries that can be locked, and tells of the others. -/
theorem btbLoadDone_sound {nv : Nv} {v : Vol} {k base n : Nat} (hload : ctlBit v k 6 = true)
    (hbase : (rg v (ra (pCore k) 0x048)).toNat = base) (hn : (flashWord nv base).toNat = n) (hflash : 0x1000000 ≤ base) (h1 : 1 ≤ n)
    (h64 : n ≤ 64) (hsound : ∀ i, i ≤ n → lineErr nv v.free (base + 4 * i) < 2) :
    ∃ w bad, btbLoadDone nv v k = raiseIf bad (btbEnded v k (btbGood nv v k base n) w) (pCore k) 3 := by
  have hout (i : Nat) : ¬ (base + 4 * i < 0x1000000 ∧ (base + 4 * i) / 0x800000 = activePlane v
      ∧ planeVerified v (activePlane v) = true) := by omega
  have hcount : (flashWord nv (base + 4 * 0)).toNat = n := hn
  have hfits : ¬ (n = 0 ∨ 64 < n ∨ (List.range (n + 1)).any (fun i => decide (2 ≤ lineErr nv v.free (base + 4 * i))) = true) := by
    rw [List.any_eq_true]
    rintro (h | h | ⟨i, hi, h⟩)
    · omega
    · omega
    · have := hsound i (by have := List.mem_range.mp hi; omega)
      have := of_decide_eq_true h
      omega
  unfold btbLoadDone
  simp only [hload, Bool.not_true, Bool.false_eq_true, if_false, hbase, hout, hcount, hfits]
  exact ⟨_, _, rfl⟩

theorem executable_btbOver (nv : Nv) (v : Vol) (k t : Nat) : executable nv (btbOver v k) t = executable nv v t := by
  have hverified (p : Nat) : planeVerified (btbOver v k) p = planeVerified v p :=
    congrArg (bit · p) (rg_rgClr_ne v _ (by simp only [aStat, aCtl, ra]; omega))
  rw [executable, executable, hverified]

theorem ctlBit_btbEnded (v : Vol) (k : Nat) (good : List Nat) (w : Word) : ctlBit (btbEnded v k good w) k 6 = false := by
  rw [ctlBit, rb, btbEnded, rg_rgSet_ne _ _ (by simp only [aCtl, ra]; omega)]
  refine (rb_rgClr v (aCtl (pCore k)) (bitWord 6) (by decide)).trans ?_
  rw [bit_bitWord]
  simp

theorem locked_btbEnded {v : Vol} {k x : Nat} {good : List Nat} (hk : k < v.cores.length) (w : Word) (hx : x ∈ good) :
    (x, true) ∈ (coreOf (btbEnded v k good w) k).btb := by
  have hcore : coreOf (btbEnded v k good w) k = btbLocked good (coreOf (btbOver v k) k) :=
    coreOf_onCore (btbOver v k) k (btbLocked good) hk
  rw [hcore]
  exact List.mem_append_left _ (List.mem_map.mpr ⟨x, hx, rfl⟩)

end Sys2Proof.Machine

namespace Sys2Proof

open Sys2Proof.Machine

/-- Settles O31: each write by what its bits do, the load by `btbLoadDone_sound`. -/
theorem coreControlActs : Obligations.CoreControlActs := by
  intro s m k v a loading set clr up down
  refine ⟨fun ho => ⟨fun hr hs => ?_, fun hr hs => ?_, fun hr hs => ?_, fun hs => ?_, fun hs => ?_, fun hb => ?_, fun hb => ?_⟩, ?_⟩
  · exact (setBits_coreCtl s m k ho (by decide) (by decide)).trans (by rw [coreCtlWrite_starts _ _ hr hs]; rfl)
  · exact (setBits_coreCtl s m k ho (by decide) (by decide)).trans (by rw [coreCtlWrite_startWaits _ _ hr hs]; rfl)
  · exact (clearBits_coreCtl s m k ho (by decide) (by decide)).trans (by rw [coreCtlWrite_stops _ _ hr hs]; rfl)
  · exact (setBits_coreCtl s m k ho (by decide) (by decide)).trans (by rw [coreCtlWrite_halts _ _ hs]; rfl)
  · exact (clearBits_coreCtl s m k ho (by decide) (by decide)).trans (by rw [coreCtlWrite_goesOn _ _ hs]; rfl)
  · exact (setBits_coreCtl s m k ho (by decide) (by decide)).trans (by rw [coreCtlWrite_loads _ _ hb])
  · exact (setBits_coreCtl s m k ho (by decide) (by decide)).trans (by rw [coreCtlWrite_loadRuns _ _ hb]; rfl)
  · intro base n hload hk hflash h1 h64 hsound
    obtain ⟨w, bad, hdone⟩ := btbLoadDone_sound hload rfl rfl hflash h1 h64 hsound
    have ht := touches_raiseIf (W := (· = aEvPend (pCore k))) bad (btbEnded v k (btbGood s.nv v k base n) w) 3 rfl
    refine ⟨_, next_withVol hdone, ?_, ht.sram, rfl, fun i x hi hx hline hplane hok herr herr' => ?_⟩
    · rw [ctlBit, ht.rb_eq (by simp only [aCtl, aEvPend, ra]; omega)]
      exact ctlBit_btbEnded v k _ w
    · have hmem : x ∈ btbGood s.nv v k base n := by
        rw [btbGood, List.mem_eraseDups, List.mem_filter]
        exact ⟨List.mem_map.mpr ⟨i, List.mem_range.mpr hi, hx.symm⟩,
          by simp [lockable, executable_btbOver, hline, hplane, hok, herr, herr']⟩
      rw [coreOf_congr ht.cores]
      exact locked_btbEnded hk w hmem

end Sys2Proof
end

section
/-! PROOFS. The frame image is saved: the fields of XSTAT, the words of the image, and a `sys.w` of FSAVE or FRESTORE (O29). -/

namespace Sys2Proof.Machine

/-! ### Fields of XSTAT (R191) -/

/-- A field rests on its own bits. -/
theorem fld_congr {w w' : Word} {hi lo : Nat} (h : ∀ i, i < hi + 1 - lo → bit w (lo + i) = bit w' (lo + i)) : fld w hi lo = fld w' hi lo := by
  apply Nat.eq_of_testBit_eq
  intro i
  simp only [fld, Nat.testBit_mod_two_pow, Nat.testBit_div_two_pow]
  by_cases hi' : i < hi + 1 - lo
  · have hb : w.toNat.testBit (lo + i) = w'.toNat.testBit (lo + i) := h i hi'
    rw [Nat.add_comm i lo, hb]
  · simp [hi']

theorem sysW_setXBit (c : Core) (i : Nat) (b : Bool) (n : Nat) : sysW (setXBit c i b) n
    = if n = 0x52 then (if b then sysW c 0x52 ||| bitWord i else sysW c 0x52 &&& ~~~(bitWord i)) else sysW c n :=
  sysW_setSys c 0x52 _ n

/-- A bit of XSTAT that is set or cleared leaves the other bits. -/
theorem bit_setXBit (c : Core) (i : Nat) (b : Bool) {j : Nat} (hj : j < 32) :
    bit (sysW (setXBit c i b) 0x52) j = if i = j then b else bit (sysW c 0x52) j := by
  have hb : (bitWord i).getLsbD j = decide (i = j) := by
    have h := bit_bitWord i j
    rwa [decide_eq_true hj, Bool.true_and] at h
  rw [sysW_setXBit, if_pos rfl]
  cases b
  · rw [if_neg Bool.false_ne_true, bit, BitVec.getLsbD_and, BitVec.getLsbD_not, hb]
    by_cases h : i = j <;> simp [hj, h]
  · rw [if_pos rfl, bit, BitVec.getLsbD_or, hb]
    by_cases h : i = j <;> simp [h]

theorem xActive_setXBit (c : Core) (b : Bool) : xActive (setXBit c 0 b) = b := by
  rw [xActive, bit_setXBit _ _ _ (by decide), if_pos rfl]

/-- The bits of XSTAT beside DEPTH leave the depth. -/
theorem xDepth_setXBit (c : Core) {i : Nat} (b : Bool) (hi : i = 0 ∨ 4 ≤ i) : xDepth (setXBit c i b) = xDepth c :=
  fld_congr fun j hj => by rw [bit_setXBit _ _ _ (by omega), if_neg (by omega)]

theorem xDepth_putFld (c : Core) (w : Word) {d : Nat} (hd : d < 8) : xDepth (setSys c 0x52 (putFld w 3 1 d)) = d := by
  have hkept : (~~~(BitVec.ofNat 32 14)).toNat / 2 % 2 ^ 3 = 0 := by decide
  have hnew : (BitVec.ofNat 32 (d % 2 ^ 3 * 2)).toNat / 2 % 2 ^ 3 = d := by
    rw [BitVec.toNat_ofNat]; omega
  rw [xDepth, sysW_setSys, if_pos rfl]
  show ((w &&& ~~~(BitVec.ofNat 32 14)) ||| BitVec.ofNat 32 (d % 2 ^ 3 * 2)).toNat / 2 ^ 1 % 2 ^ 3 = d
  rw [BitVec.toNat_or, BitVec.toNat_and, Nat.or_div_two_pow, Nat.and_div_two_pow, pow_one, Nat.or_mod_two_pow, Nat.and_mod_two_pow,
    hkept, hnew, Nat.and_zero, Nat.zero_or]

/-! ### A `sys.w` with its number in the same bundle (R118) -/

/-- Core c with the number of a sys register in its operand port. -/
def frameNamed (n : Word) (c : Core) : Core := setOpnd c 102 (TWord.ofWord n)

section
variable {nv : Nv} {v : Vol} {k : Nat} {a : TWord} {n : Word}

/-- A `sys.w` of an allowed number that finds no bad word of an image writes the register. -/
theorem sysMove_plain (hm : canMove v k = true) (huser : userMode (moved v k) = false) (hp : (untag k a).isPoison = false)
    (hok : sysOk n.toNat true (untag k a).data = true)
    (himg : imageFault v k 0 103 (untag k a) (frameNamed n (modeDue (coreOf v k))) (modeDue (coreOf v k)).pc = none) :
    triggerWith nv v k [(102, TWord.ofWord n)] 103 a
      = afterIssue nv (sysWrite (onMove v k (frameNamed n)) k n.toNat (untag k a)) k := by
  have hk := lt_of_canMove hm
  have hnum (c : Core) : sysNum (frameNamed n c) = n.toNat := by rw [sysNum, frameNamed, opnd_setOpnd]
  have hfault : execFault v k (frameNamed n (modeDue (coreOf v k))).pc none [(⟨0, 103, 0⟩, untag k a)]
      (frameNamed n (modeDue (coreOf v k))) = none :=
    execFault_none (trigPriv_supervisor huser) (by simp [movePoison, isControl, hp]) (by simp [trigStack]) (by simp [lsuFault, trigUnit])
      himg
  have hops : [((102 : Nat), TWord.ofWord n)].foldl (fun c o => setOpnd c o.1 (untag k o.2)) (modeDue (coreOf v k))
      = frameNamed n (modeDue (coreOf v k)) := congrArg (setOpnd _ 102) (untag_raw k n)
  have hmove := triggerWith_plain (nv := nv) (a := a) (d := 103) hops (canMove_iff.mp hm).1 rfl (dstOk_common k (by decide)) rfl
    (trigReserved_sysW (by rw [hnum, hok])) hfault
  have htrig : trig (onMove v k (frameNamed n)) k 0 103 (untag k a) = sysWrite (onMove v k (frameNamed n)) k n.toNat (untag k a) := by
    show sysWrite _ k (sysNum (coreOf _ k)) _ = _
    rw [coreOf_onMove hk, hnum]
  exact hmove.trans (congrArg (afterIssue nv · k) htrig)

/-- A core that took a `sys.w` and records nothing issues on. -/
theorem afterIssue_frame {u : Vol} (hm : canMove v k = true) (hbus : (coreOf u k).busf = (moved v k).busf)
    (htrap : (coreOf u k).trapNo = (moved v k).trapNo) : afterIssue nv u k = u := by
  obtain ⟨-, hb, ht⟩ := canMove_iff.mp hm
  exact afterIssue_none nv u k (by rw [hbus, moved_busf, hb]) (by rw [htrap, moved_trapNo, ht])

/-- XSTAT.FERR sets, and nothing else but the operand port changes (R200). -/
theorem afterIssue_refused (hm : canMove v k = true) : afterIssue nv (onCore (onMove v k (frameNamed n)) k fun c => setXBit c 4 true) k
    = onMove v k fun c => setXBit (frameNamed n c) 4 true := by
  have hk := lt_of_canMove hm
  rw [onCore_onMove hk]
  exact afterIssue_onMove hm (fun _ => rfl) fun _ => rfl

end

/-! ### Words written one behind the other -/

/-- Words, changed by g, in SRAM from an address on. -/
def wordsPut (g : TWord → TWord) (ws : List TWord) (v : Vol) (a : Nat) : Vol :=
  (ws.foldl (fun (acc : Vol × Nat) w => (sramPut acc.1 acc.2 (g w), acc.2 + 4)) (v, a)).1

theorem wordsPut_cons (g : TWord → TWord) (w : TWord) (ws : List TWord) (v : Vol) (a : Nat) :
    wordsPut g (w :: ws) v a = wordsPut g ws (sramPut v a (g w)) (a + 4) := rfl

/-- Words outside the run stay. -/
theorem sramWord_wordsPut_out (g : TWord → TWord) (ws : List TWord) (v : Vol) (a : Nat) {x : Nat} (hx : x < a ∨ a + 4 * ws.length ≤ x) :
    sramWord (wordsPut g ws v a) x = sramWord v x := by
  induction ws generalizing v a with
  | nil => rfl
  | cons w ws ih =>
    rw [List.length_cons] at hx
    rw [wordsPut_cons, ih _ _ (by omega), sramWord_sramPut_ne _ _ (by omega)]

/-- And each word of the run is there. -/
theorem sramWord_wordsPut (g : TWord → TWord) (ws : List TWord) (v : Vol) (a : Nat) {i : Nat} (hi : i < ws.length) :
    sramWord (wordsPut g ws v a) (a + 4 * i) = g (ws.getD i TWord.zero) := by
  induction ws generalizing v a i with
  | nil => exact absurd hi (Nat.not_lt_zero i)
  | cons w ws ih =>
    rw [wordsPut_cons]
    cases i with
    | zero => rw [sramWord_wordsPut_out g ws _ _ (by omega), Nat.mul_zero, Nat.add_zero, sramWord_sramPut]; rfl
    | succ i =>
      rw [show a + 4 * (i + 1) = a + 4 + 4 * i by omega, ih _ _ (by simpa using hi)]
      rfl

theorem wordsPut_keeps (g : TWord → TWord) (ws : List TWord) (v : Vol) (a : Nat) :
    (wordsPut g ws v a).regs = v.regs ∧ (wordsPut g ws v a).cores = v.cores := by
  induction ws generalizing v a with
  | nil => exact ⟨rfl, rfl⟩
  | cons w ws ih => exact ih (sramPut v a (g w)) (a + 4)

/-! ### FSAVE (R200) -/

/-- The image rests on nothing of the operand ports. -/
theorem frameImage_frameNamed (n : Word) (c : Core) : frameImage (frameNamed n c) = frameImage c := rfl

/-- The image is 64 words long (R200). -/
theorem length_frameImage (c : Core) : (frameImage c).length = 64 := by
  have hmul (i : Nat) (l : List Flight) : (match l[i]? with
      | some f => [f.a, f.b, live (f.ctl.toNat % 8 + f.left)]
      | none => [TWord.zero, TWord.zero, TWord.zero]).length = 3 := by split <;> rfl
  have hld (i : Nat) (l : List Flight) : (match l[i]? with
      | some f => [f.a, live (f.ctl.toNat % 64 + f.left)]
      | none => [TWord.zero, TWord.zero]).length = 2 := by split <;> rfl
  unfold frameImage
  extract_lets raw bits muls lds mulRec ldRec divs tbl hld'
  have h1 : ((List.range 3).flatMap mulRec).length = 9 := by
    have h (i : Nat) : (mulRec i).length = 3 := hmul i muls
    simp [List.length_flatMap, h]
  have h2 : ((List.range 4).flatMap ldRec).length = 8 := by
    have h (i : Nat) : (ldRec i).length = 2 := hld i lds
    simp [List.length_flatMap, h]
  have h3 : divs.length = 3 := by simp only [divs]; split <;> rfl
  have h4 : tbl.length = 4 := by simp only [tbl]; split <;> rfl
  have h5 : hld'.length = 3 := by simp only [hld']; split <;> rfl
  simp only [List.length_append, List.length_map, List.length_range, List.length_cons, List.length_nil, h1, h2, h3, h4, h5]
  rfl

/-- A core one frame deeper, outside its handler (R200, R201). -/
def framePushed (c : Core) : Core :=
  { setXBit (setSys c 0x52 (putFld (sysW c 0x52) 3 1 (xDepth c + 1))) 0 false with shstk := shPriv c :: c.shstk }

theorem frameSave_writes {v : Vol} {k a : Nat} (hok : imageOk k a = true) (hd : xDepth (coreOf v k) < 4) :
    frameSave v k a = setCore (wordsPut (untag k) (frameImage (coreOf v k)) v a) k (framePushed (coreOf v k)) := by
  have hgo : ¬ (!imageOk k a || decide (4 ≤ xDepth (coreOf v k))) = true := by simp [hok]; omega
  unfold frameSave
  dsimp only
  rw [if_neg hgo]
  rfl

theorem frameSave_refused {v : Vol} {k a : Nat} (h : imageOk k a = false ∨ 4 ≤ xDepth (coreOf v k)) :
    frameSave v k a = onCore v k fun c => setXBit c 4 true := by
  have hno : (!imageOk k a || decide (4 ≤ xDepth (coreOf v k))) = true := by rcases h with h | h <;> simp [h]
  unfold frameSave
  dsimp only
  rw [if_pos hno]

theorem xDepth_framePushed {c : Core} (hd : xDepth c < 4) : xDepth (framePushed c) = xDepth c + 1 :=
  (xDepth_setXBit _ _ (.inl rfl)).trans (xDepth_putFld c _ (by omega))

/-- A core that goes a frame deeper records nothing, and keeps its general registers. -/
theorem framePushed_keeps (c : Core) :
    (framePushed c).busf = c.busf ∧ (framePushed c).trapNo = c.trapNo ∧ (framePushed c).g = c.g := ⟨rfl, rfl, rfl⟩

theorem xActive_framePushed (c : Core) : xActive (framePushed c) = false := xActive_setXBit _ _

end Sys2Proof.Machine
end

section
/-! PROOFS. The frame image comes back, and FSAVE and FRESTORE as a whole (O29). -/

namespace Sys2Proof.Machine

/-! ### FRESTORE (R200, R201) -/

/-- Sound words of an image are read as they stand (R252). -/
theorem imageRead_sound {v : Vol} {k a : Nat} (h : ∀ i, i < 63 → wrongBits v (a + 4 * i) = 0) :
    imageRead v k a = (v, (List.range 63).map fun i => loadTag ⟨0, .direct, 0, k != 8⟩ (sramWord v (a + 4 * i))) := by
  have key (l : List Nat) (hl : ∀ i ∈ l, i < 63) (ws : List TWord) : l.foldl (fun acc i =>
      let r := sramRead acc.1 (a + 4 * i) k
      (r.1, acc.2 ++ [loadTag ⟨0, .direct, 0, k != 8⟩ (r.2.getD TWord.zero)])) (v, ws)
      = (v, ws ++ l.map fun i => loadTag ⟨0, .direct, 0, k != 8⟩ (sramWord v (a + 4 * i))) := by
    induction l generalizing ws with
    | nil => simp
    | cons i l ih =>
      rw [List.foldl_cons, sramRead_sound (h i (hl i List.mem_cons_self))]
      rw [ih (fun j hj => hl j (List.mem_cons_of_mem i hj))]
      simp
  exact key (List.range 63) (fun i hi => List.mem_range.mp hi) []

theorem loadTag_data (p : Place) (w : TWord) : (loadTag p w).data = w.data := by
  unfold loadTag; split <;> rfl

/-- A write of ECAUSE or ESTAT changes that register of its core, and no memory. -/
theorem frameReg_keeps {v : Vol} {k : Nat} (n : Nat) (w : Word) (hk : k < v.cores.length) :
    (∃ x, coreOf (frameReg v k n w) k = setSys (coreOf v k) n x) ∧ (frameReg v k n w).sram = v.sram
      ∧ (frameReg v k n w).cores.length = v.cores.length := by
  have hset (x : Word) (u : Vol) (hu : u.cores = (onCore v k fun c => setSys c n x).cores) :
      coreOf u k = setSys (coreOf v k) n x ∧ u.cores.length = v.cores.length :=
    ⟨(coreOf_congr hu k).trans (coreOf_onCore v k _ hk), (congrArg List.length hu).trans List.length_set⟩
  unfold frameReg
  extract_lets old
  split
  extract_lets u
  split
  · exact ⟨⟨_, (hset _ _ rfl).1⟩, rfl, (hset _ _ rfl).2⟩
  · exact ⟨⟨_, (hset _ _ rfl).1⟩, rfl, (hset _ _ rfl).2⟩

/-- The word at index i of an image that has been read. -/
def imgData (ws : List TWord) (i : Nat) : Word := (ws.getD i TWord.zero).data

/-- The registers with reserved codes that come back from an image (R192, R201). -/
def causeRestored (v : Vol) (k : Nat) (ws : List TWord) : Vol :=
  frameReg (frameReg v k 0x4A (imgData ws 2)) k 0x4B (imgData ws 3)

/-- The other sys registers that come back, one level up and in the handler again (R201). -/
def sysRestored (ws : List TWord) (c : Core) : Core :=
  let c1 := (List.range 5).foldl (fun c i => setSys c (0x4C + i) (imgData ws (4 + i))) c
  let c1 := setSys (setSys c1 0x48 (imgData ws 0 &&& 0xFFFFFFF0)) 0x49 (imgData ws 1 &&& 0xFFFFFFF0)
  setXBit (setXBit (setSys c1 0x52 (putFld (sysW c 0x52) 3 1 (xDepth c - 1))) 5 (c.shstk.headD false)) 0 true

theorem sysRestored_keeps (ws : List TWord) (c : Core) : (sysRestored ws c).g = c.g ∧ (sysRestored ws c).busf = c.busf
    ∧ (sysRestored ws c).trapNo = c.trapNo := by
  refine ⟨?_, ?_, ?_⟩ <;> simp [sysRestored, setXBit, List.range_succ]

/-- A FRESTORE that is not refused makes of its core what the image holds. -/
theorem frameRestore_eq {v u : Vol} {k a : Nat} {ws : List TWord} (hok : imageOk k a = true) (hd : 0 < xDepth (coreOf v k))
    (hread : imageRead v k a = (u, ws)) : ∃ c', frameRestore v k a = setCore (nextFree (nextFree (causeRestored u k ws))) k c'
      ∧ c'.sys = (sysRestored ws (coreOf (causeRestored u k ws) k)).sys ∧ c'.g = (coreOf (causeRestored u k ws) k).g
      ∧ c'.busf = (coreOf (causeRestored u k ws) k).busf ∧ c'.trapNo = (coreOf (causeRestored u k ws) k).trapNo := by
  have hgo : ¬ (!imageOk k a || decide (xDepth (coreOf v k) = 0)) = true := by simp [hok]; omega
  unfold frameRestore
  rw [if_neg hgo, hread]
  dsimp -zeta only
  extract_lets w d v1 c s1 s2 ports1 ports2 ids tpc lane v2 dep muls lds dv tb mine others s3 s4
  have hd : d = imgData ws := rfl
  clear_value d
  subst hd
  have hs : s4 = sysRestored ws c := rfl
  obtain ⟨hg, hbus, htrap⟩ := sysRestored_keeps ws c
  have hsys : s4.sys = (sysRestored ws c).sys := congrArg Core.sys hs
  have hg' : s4.g = c.g := (congrArg Core.g hs).trans hg
  have hbus' : s4.busf = c.busf := (congrArg Core.busf hs).trans hbus
  have htrap' : s4.trapNo = c.trapNo := (congrArg Core.trapNo hs).trans htrap
  clear_value s4
  exact ⟨_, rfl, hsys, hg', hbus', htrap'⟩

theorem frameRestore_refused {v : Vol} {k a : Nat} (h : imageOk k a = false ∨ xDepth (coreOf v k) = 0) :
    frameRestore v k a = onCore v k fun c => setXBit c 4 true := by
  have hno : (!imageOk k a || decide (xDepth (coreOf v k) = 0)) = true := by rcases h with h | h <;> simp [h]
  unfold frameRestore
  rw [if_pos hno]

theorem xDepth_setSys (c : Core) {n : Nat} (w : Word) (hn : n ≠ 0x52) : xDepth (setSys c n w) = xDepth c := by
  rw [xDepth, sysW_setSys, if_neg (Ne.symm hn), xDepth]

/-- EPC, EADDR, the depth and ACTIVE behind a FRESTORE. -/
theorem sysRestored_spec (ws : List TWord) (c : Core) : let c' := sysRestored ws c
    sysW c' 0x48 = imgData ws 0 &&& 0xFFFFFFF0 ∧ sysW c' 0x4C = imgData ws 4 ∧ xDepth c' = xDepth c - 1 ∧ xActive c' = true := by
  have hdepth : xDepth c < 8 := Nat.mod_lt _ (by decide)
  refine ⟨?_, ?_, ?_, xActive_setXBit _ _⟩
  · simp [sysRestored, sysW_setXBit, sysW_setSys, List.range_succ]
  · simp [sysRestored, sysW_setXBit, sysW_setSys, List.range_succ]
  · rw [sysRestored, xDepth_setXBit _ _ (.inl rfl), xDepth_setXBit _ _ (.inr (by decide)), xDepth_putFld _ _ (by omega)]

/-- What a FRESTORE of sound words of v leaves in u of core c (R201). -/
structure Restored (v : Vol) (c : Core) (u : Vol) (k a : Nat) : Prop where
  epc : sysW (coreOf u k) 0x48 = (sramWord v a).data &&& 0xFFFFFFF0
  eaddr : sysW (coreOf u k) 0x4C = (sramWord v (a + 16)).data
  depth : xDepth (coreOf u k) = xDepth c - 1
  active : xActive (coreOf u k) = true
  g : (coreOf u k).g = c.g
  busf : (coreOf u k).busf = c.busf
  trapNo : (coreOf u k).trapNo = c.trapNo
  sram : u.sram = v.sram

theorem frameRestore_sound {v : Vol} {k a : Nat} (hk : k < v.cores.length) (hok : imageOk k a = true) (hd : 0 < xDepth (coreOf v k))
    (h : ∀ i, i < 63 → wrongBits v (a + 4 * i) = 0) : Restored v (coreOf v k) (frameRestore v k a) k a := by
  obtain ⟨c', heq, hsys, hg, hbus, htrap⟩ := frameRestore_eq hok hd (imageRead_sound h)
  have hword {i : Nat} (hi : i < 63) : imgData ((List.range 63).map fun i =>
      loadTag ⟨0, .direct, 0, k != 8⟩ (sramWord v (a + 4 * i))) i = (sramWord v (a + 4 * i)).data := by
    simp [imgData, List.getD_eq_getElem?_getD, hi, loadTag_data]
  obtain ⟨⟨x, hx⟩, hsram, hlen⟩ := frameReg_keeps (v := v) (k := k) 0x4A (imgData ((List.range 63).map fun i =>
      loadTag ⟨0, .direct, 0, k != 8⟩ (sramWord v (a + 4 * i))) 2) hk
  obtain ⟨⟨y, hy⟩, hsram', hlen'⟩ := frameReg_keeps (k := k) 0x4B (imgData ((List.range 63).map fun i =>
      loadTag ⟨0, .direct, 0, k != 8⟩ (sramWord v (a + 4 * i))) 3) (hlen ▸ hk)
  have hcore := hy.trans (congrArg (setSys · 0x4B y) hx)
  generalize hws : ((List.range 63).map fun i => loadTag ⟨0, .direct, 0, k != 8⟩ (sramWord v (a + 4 * i))) = ws at *
  have hlast : coreOf (frameRestore v k a) k = c' := by
    rw [heq, coreOf_setCore, if_pos (by rw [nextFree_cores, nextFree_cores, causeRestored, hlen', hlen]; exact hk)]
  obtain ⟨hepc, headdr, hdepth, hact⟩ := sysRestored_spec ws (coreOf (causeRestored v k ws) k)
  have hold : coreOf (causeRestored v k ws) k = setSys (setSys (coreOf v k) 0x4A x) 0x4B y := hcore
  refine ⟨?_, ?_, ?_, ?_, ?_, ?_, ?_, ?_⟩
  · rw [hlast, sysW_congr hsys, hepc, hword (by decide)]; rfl
  · rw [hlast, sysW_congr hsys, headdr, hword (by decide)]
  · rw [hlast, xDepth, sysW_congr hsys, ← xDepth, hdepth, hold, xDepth_setSys _ _ (by decide), xDepth_setSys _ _ (by decide)]
  · rw [hlast, xActive, sysW_congr hsys, ← xActive, hact]
  · rw [hlast, hg, hold, setSys_g, setSys_g]
  · rw [hlast, hbus, hold, setSys_busf, setSys_busf]
  · rw [hlast, htrap, hold, setSys_trapNo, setSys_trapNo]
  · rw [heq, setCore_sram, nextFree_sram, nextFree_sram, causeRestored, hsram', hsram]

/-! ### The checks of a `sys.w` to FRESTORE (R200, R252) -/

/-- Sound words, a refused image and a number other than FRESTORE show no uncorrectable word. -/
theorem imageFault_none {v : Vol} {k d pc : Nat} {x : TWord} {c : Core} (h : (opnd c 102).data ≠ 0x55 ∨ imageOk k x.data.toNat = false
    ∨ xDepth c = 0 ∨ ∀ i, i < 63 → wrongBits v (x.data.toNat + 4 * i) = 0) : imageFault v k 0 d x c pc = none := by
  unfold imageFault
  extract_lets b
  split
  · rfl
  · next hcond =>
    rw [Option.map_eq_none_iff, List.find?_eq_none]
    intro i hi
    have hsound : ∀ i, i < 63 → wrongBits v (b + 4 * i) = 0 := by
      rcases h with h | h | h | h
      · exact absurd (.inr (.inl h)) hcond
      · exact absurd (.inr (.inr (.inl (by rw [h]; rfl)))) hcond
      · exact absurd (.inr (.inr (.inr h))) hcond
      · exact h
    simp [wordBad, hsound i (List.mem_range.mp hi)]

/-! ### FSAVE and FRESTORE as moves -/

theorem xDepth_frameNamed (n : Word) (c : Core) : xDepth (frameNamed n c) = xDepth c := rfl

section
variable {nv : Nv} {v : Vol} {k : Nat} {a : TWord} (hm : canMove v k = true) (huser : userMode (moved v k) = false)
  (hp : (untag k a).isPoison = false)
include hm huser hp

theorem sysMove_fsave : sysMove nv v k 0x54 a = afterIssue nv (frameSave (onMove v k (frameNamed 0x54)) k a.data.toNat) k := by
  have h := sysMove_plain (nv := nv) (n := 0x54) hm huser hp (by simp [sysOk])
    (imageFault_none (.inl (by rw [frameNamed, opnd_setOpnd]; decide)))
  have hwrite (u : Vol) : sysWrite u k (0x54 : Word).toNat (untag k a) = frameSave u k (untag k a).data.toNat := by simp [sysWrite]
  rw [hwrite, untag_data] at h
  exact h

theorem sysMove_frestore (h : imageOk k a.data.toNat = false ∨ xDepth (moved v k) = 0
    ∨ ∀ i, i < 63 → wrongBits v (a.data.toNat + 4 * i) = 0) :
    sysMove nv v k 0x55 a = afterIssue nv (frameRestore (onMove v k (frameNamed 0x55)) k a.data.toNat) k := by
  rw [← untag_data k a] at h ⊢
  have hmove := sysMove_plain (nv := nv) (n := 0x55) hm huser hp (by simp [sysOk]) (imageFault_none (.inr h))
  have hwrite (u : Vol) : sysWrite u k (0x55 : Word).toNat (untag k a) = frameRestore u k (untag k a).data.toNat := by simp [sysWrite]
  rw [hwrite] at hmove
  exact hmove

/-- FSAVE of an image that may lie at its address (R200). -/
theorem fsave_saves (hok : imageOk k a.data.toNat = true) (hd : xDepth (moved v k) < 4) : ∃ u, sysMove nv v k 0x54 a = u
    ∧ (∀ i, i < 64 → sramWord u (a.data.toNat + 4 * i) = untag k ((frameImage (moved v k)).getD i TWord.zero))
    ∧ (∀ x, (x < a.data.toNat ∨ a.data.toNat + 256 ≤ x) → sramWord u x = sramWord v x)
    ∧ xDepth (coreOf u k) = xDepth (moved v k) + 1 ∧ xActive (coreOf u k) = false ∧ (coreOf u k).g = (moved v k).g
    ∧ u.regs = v.regs := by
  have hk := lt_of_canMove hm
  have hcore : coreOf (onMove v k (frameNamed 0x54)) k = frameNamed 0x54 (moved v k) := coreOf_onMove hk _
  have hwrites := frameSave_writes (v := onMove v k (frameNamed 0x54)) hok (by rw [hcore]; exact hd)
  rw [hcore, frameImage_frameNamed] at hwrites
  have hlen := length_frameImage (moved v k)
  obtain ⟨hregs, hcores⟩ := wordsPut_keeps (untag k) (frameImage (moved v k)) (onMove v k (frameNamed 0x54)) a.data.toNat
  have hin {i : Nat} := sramWord_wordsPut (untag k) (frameImage (moved v k)) (onMove v k (frameNamed 0x54)) a.data.toNat (i := i)
  have hout {x : Nat} := sramWord_wordsPut_out (untag k) (frameImage (moved v k)) (onMove v k (frameNamed 0x54)) a.data.toNat (x := x)
  rw [hlen] at hin hout
  generalize wordsPut (untag k) (frameImage (moved v k)) (onMove v k (frameNamed 0x54)) a.data.toNat = w at hwrites hregs hcores hin hout
  have hnew : coreOf (setCore w k (framePushed (frameNamed 0x54 (moved v k)))) k = framePushed (frameNamed 0x54 (moved v k)) := by
    rw [coreOf_setCore, hcores, if_pos (by rw [onMove, setCore_cores, List.length_set]; exact hk)]
  obtain ⟨hbus, htrap, hg⟩ := framePushed_keeps (frameNamed 0x54 (moved v k))
  refine ⟨setCore w k (framePushed (frameNamed 0x54 (moved v k))), (sysMove_fsave hm huser hp).trans ?_, fun i => hin, fun x => hout,
    ?_, ?_, (congrArg Core.g hnew).trans hg, hregs⟩
  · rw [hwrites]
    exact afterIssue_frame hm ((congrArg Core.busf hnew).trans hbus) ((congrArg Core.trapNo hnew).trans htrap)
  · rw [hnew, xDepth_framePushed (by rw [xDepth_frameNamed]; exact hd), xDepth_frameNamed]
  · rw [hnew, xActive_framePushed]

theorem fsave_refused (h : imageOk k a.data.toNat = false ∨ 4 ≤ xDepth (moved v k)) :
    sysMove nv v k 0x54 a = onMove v k fun c => setXBit (frameNamed 0x54 c) 4 true := by
  rw [sysMove_fsave hm huser hp, frameSave_refused, afterIssue_refused hm]
  rwa [coreOf_onMove (lt_of_canMove hm), xDepth_frameNamed]

/-- FRESTORE of an image of sound words (R200, R201). -/
theorem frestore_restores (hok : imageOk k a.data.toNat = true) (hd : 0 < xDepth (moved v k))
    (hs : ∀ i, i < 63 → wrongBits v (a.data.toNat + 4 * i) = 0) :
    ∃ u, sysMove nv v k 0x55 a = u ∧ Restored v (moved v k) u k a.data.toNat := by
  have hk := lt_of_canMove hm
  have hcore : coreOf (onMove v k (frameNamed 0x55)) k = frameNamed 0x55 (moved v k) := coreOf_onMove hk _
  have hr := frameRestore_sound (v := onMove v k (frameNamed 0x55)) (by rw [onMove, setCore_cores, List.length_set]; exact hk) hok
    (by rw [hcore]; exact hd) hs
  rw [hcore] at hr
  obtain ⟨hepc, headdr, hdepth, hact, hg, hbus, htrap, hsram⟩ := hr
  exact ⟨_, (sysMove_frestore hm huser hp (.inr (.inr hs))).trans (afterIssue_frame hm hbus htrap), hepc, headdr, hdepth, hact, hg, hbus,
    htrap, hsram⟩

theorem frestore_refused (h : imageOk k a.data.toNat = false ∨ xDepth (moved v k) = 0) :
    sysMove nv v k 0x55 a = onMove v k fun c => setXBit (frameNamed 0x55 c) 4 true := by
  rw [sysMove_frestore hm huser hp (h.imp_right .inl), frameRestore_refused, afterIssue_refused hm]
  rwa [coreOf_onMove (lt_of_canMove hm), xDepth_frameNamed]

end

end Sys2Proof.Machine

namespace Sys2Proof

open Sys2Proof.Machine

/-- Settles O29: each `sys.w` by `sysMove_plain`, then by what saving or restoring a frame does. -/
theorem frameSaveAndRestore : Obligations.FrameSaveAndRestore := by
  intro s k a v c b refused hm huser hp hk
  refine ⟨fun hok hd => ?_, fun h => ?_, fun hok hd hs => ?_, fun h => ?_⟩
  · obtain ⟨u, hu, hwords, hout, hdepth, hact, hg, hregs⟩ := fsave_saves (nv := s.nv) hm huser hp hok hd
    exact ⟨withVol s u, next_withVol hu, length_frameImage c, hwords, hout, hdepth, hact, hg, hregs, rfl⟩
  · exact next_withVol (fsave_refused hm huser hp h)
  · obtain ⟨u, hu, hr⟩ := frestore_restores (nv := s.nv) hm huser hp hok hd hs
    exact ⟨withVol s u, next_withVol hu, hr.epc, hr.eaddr, hr.depth, hr.active, hr.g, hr.sram, rfl⟩
  · exact next_withVol (frestore_refused hm huser hp h)

end Sys2Proof
end

section
/-! SUPPORT. What leaves the mode of the part and its transitions as they are (R553): the frame of power, of the outputs and of Locksmith
in a change of mode. -/

namespace Sys2Proof.Machine

/-- The mode, the transition in progress, the reset sequence's wait and a SAFE that waits stand as they were. -/
structure ModeKept (v v' : Vol) : Prop where
  mode : v'.sys.mode = v.sys.mode
  target : v'.sys.target = v.sys.target
  wait : v'.sys.wait = v.sys.wait
  safeAfter : v'.sys.safeAfter = v.sys.safeAfter

namespace ModeKept

variable {v v' v'' : Vol}

theorem refl (v : Vol) : ModeKept v v := ⟨rfl, rfl, rfl, rfl⟩

theorem trans (h : ModeKept v v') (h' : ModeKept v' v'') : ModeKept v v'' :=
  ⟨h'.mode.trans h.mode, h'.target.trans h.target, h'.wait.trans h.wait, h'.safeAfter.trans h.safeAfter⟩

theorem of_sys (h : v'.sys = v.sys) : ModeKept v v' := by constructor <;> rw [h]

theorem of_touches {W : Nat → Prop} (h : Touches W v v') : ModeKept v v' := of_sys h.sys

theorem ite {c : Prop} [Decidable c] {a b : Vol} (ha : ModeKept v a) (hb : ModeKept v b) : ModeKept v (if c then a else b) := by
  split
  · exact ha
  · exact hb

theorem foldl {β : Type} (f : Vol → β → Vol) (h : ∀ v x, ModeKept v (f v x)) (l : List β) (v : Vol) : ModeKept v (l.foldl f v) := by
  induction l generalizing v with
  | nil => exact .refl v
  | cons x l ih => exact (h v x).trans (ih (f v x))

end ModeKept

theorem rbSet_sys (v : Vol) (a i : Nat) (b : Bool) : (rbSet v a i b).sys = v.sys := by
  unfold rbSet; split <;> rfl

theorem outApply_sys (v : Vol) : (outApply v).sys = v.sys := (outApply_touches v).sys
theorem outForceSafe_sys (v : Vol) : (outForceSafe v).sys = v.sys := (outForceSafe_touches v).sys

/-! ### Power-down of a domain (R551) -/

theorem wipePages_sys (v : Vol) (l : List Nat) : (wipePages v l).sys = v.sys := by
  induction l generalizing v with
  | nil => rfl
  | cons p l ih => exact ih (wipePage v p)

theorem wipeBlock_kept (v : Vol) (p : Nat) : ModeKept v (wipeBlock v p) := by
  unfold wipeBlock
  extract_lets noted kept wiped restored
  have hnoted : ModeKept v noted := .ite ⟨rfl, rfl, rfl, rfl⟩ (.refl v)
  have hwiped : ModeKept noted wiped := .of_sys (wipePages_sys noted _)
  have hrestored : ModeKept wiped restored := .foldl _ (fun u _ => .of_sys (rgSet_sys u _ _)) kept wiped
  exact (hnoted.trans hwiped).trans (hrestored.trans (.ite ⟨rfl, rfl, rfl, rfl⟩ (.refl restored)))

theorem mbxAbortOne_sys (v : Vol) (m : Nat) : (mbxAbortOne v m).sys = v.sys := by
  unfold mbxAbortOne
  extract_lets words bells flags pend
  have hwords : words.sys = v.sys := foldl_keeps (·.sys) _ _ (fun _ _ u => rgSet_sys u _ _) v
  have hflags : flags.sys = words.sys := (rgSet_sys bells _ _).trans (rgSet_sys words _ _)
  exact (raiseEvent_sys pend _ _).trans ((rbSet_sys flags _ _ _).trans (hflags.trans hwords))

theorem mbxAbort_sys (v : Vol) (r : Nat) : (mbxAbort v r).sys = v.sys :=
  foldl_keeps (·.sys) _ _ (fun m _ u => by
    split
    · exact mbxAbortOne_sys u m
    · rfl) v

theorem familyReset_kept (v : Vol) (p : Nat) : ModeKept v (familyReset v p) := by
  have hout : ModeKept v (outReset v p) := ⟨rfl, rfl, rfl, rfl⟩
  refine hout.trans ?_
  unfold familyReset
  extract_lets u
  split
  · exact .refl u
  · next inf _ =>
    cases inf.blk
    case core => exact .of_sys (mbxAbort_sys _ _)
    case core8 => exact .of_sys (mbxAbort_sys _ _)
    case yok => exact .of_sys (mbxAbort_sys _ _)
    case hsp => exact .of_sys (mbxAbort_sys _ _)
    all_goals exact ⟨rfl, rfl, rfl, rfl⟩

theorem ptpLossNoted_sys (v v' : Vol) : (ptpLossNoted v v').sys = v'.sys := by
  unfold ptpLossNoted
  split
  · exact (sourceLoss_touches v').sys
  · rfl

theorem setPwrBit_sys (v : Vol) (off d : Nat) (b : Bool) : (setPwrBit v off d b).sys = v.sys := rbSet_sys _ _ _ _

theorem domainOff_kept (v : Vol) (d : Nat) : ModeKept v (domainOff v d) := by
  unfold domainOff
  extract_lets aborted off offs bits marks gone
  have haborted : ModeKept v aborted := .ite (.of_sys (mbxAbort_sys v _)) (.refl v)
  have hoff (u : Vol) (p : Nat) : ModeKept u (off u p) := by
    have hlost : ModeKept (wipeBlock (familyReset u p) p) (ptpLossNoted u (wipeBlock (familyReset u p) p)) :=
      .of_sys (ptpLossNoted_sys u _)
    exact (((familyReset_kept u p).trans (wipeBlock_kept _ p)).trans hlost).trans ⟨rfl, rfl, rfl, rfl⟩
  have hoffs : ModeKept aborted offs := .foldl _ hoff _ aborted
  have hbits : ModeKept offs bits := .of_sys ((setPwrBit_sys _ _ _ _).trans (setPwrBit_sys _ _ _ _))
  have hmarks : ModeKept bits marks := .ite (.of_sys (rgSet_sys bits _ _))
    (.ite (.of_sys (rgSet_sys bits _ _)) (.ite (.of_sys ((rgSet_sys _ _ _).trans (rgSet_sys bits _ _))) (.refl bits)))
  have hgone : ModeKept marks gone := ⟨rfl, rfl, rfl, rfl⟩
  have hseen : ModeKept gone (tripEval gone) := .of_touches (tripEval_touches gone)
  have hshown : ModeKept (tripEval gone) (outApply (tripEval gone)) := .of_sys (outApply_sys (tripEval gone))
  exact (((haborted.trans hoffs).trans (hbits.trans hmarks)).trans hgone).trans (hseen.trans hshown)

/-! ### The firing outputs (R364) -/

theorem foldl_fireOn {β : Type} (f : Vol → β → Vol) (h : ∀ v x, (f v x).outs.fireOn = v.outs.fireOn) (l : List β) (v : Vol) :
    (l.foldl f v).outs.fireOn = v.outs.fireOn := foldl_keeps (·.outs.fireOn) f l (fun x _ u => h u x) v

theorem valveApply_fireOn (v : Vol) (x : Nat) : (valveApply v x).outs.fireOn = v.outs.fireOn := by
  unfold valveApply
  extract_lets st tim on next starts ends o timed told
  split
  · rfl
  · rw [rgSet_outs, show told.outs = timed.outs from raiseIf_outs _ _ _ _]
    unfold timed
    split <;> rfl

theorem gioEdge_fireOn (v : Vol) (n : Nat) (level : Bool) : (gioEdge v n level).outs.fireOn = v.outs.fireOn := by
  unfold gioEdge
  extract_lets was on o seen hit counted
  split
  · rfl
  · refine (foldl_fireOn _ (fun u e => by rw [raiseIf_outs]) _ counted).trans ?_
    refine foldl_fireOn _ (fun u k => ?_) _ seen
    split <;> rfl

theorem gioDrive_fireOn (v : Vol) (n : Nat) : (gioDrive v n).outs.fireOn = v.outs.fireOn := by
  unfold gioDrive
  split
  · rfl
  · extract_lets want o due
    have hdue : due.outs.fireOn = v.outs.fireOn := by
      unfold due
      split <;> rfl
    split
    · exact hdue
    split
    · exact (gioEdge_fireOn due n want).trans hdue
    · exact hdue

theorem gioApply_fireOn (v : Vol) : (gioApply v).outs.fireOn = v.outs.fireOn := by
  have hsettle : (gioSettle v v.now).outs.fireOn = v.outs.fireOn := by
    refine foldl_fireOn _ (fun u d => ?_) _ v
    split
    · exact gioEdge_fireOn _ _ _
    · rfl
  have hshow : (gioShow (gioSettle v v.now)).outs.fireOn = (gioSettle v v.now).outs.fireOn := by
    unfold gioShow
    extract_lets gather last placed shown
    split
    · rfl
    · rfl
  unfold gioApply
  split
  · rfl
  · exact (foldl_fireOn _ gioDrive_fireOn _ _).trans (hshow.trans hsettle)

/-- What the outputs show changes no firing output. -/
theorem outApply_fireOn (v : Vol) : (outApply v).outs.fireOn = v.outs.fireOn := by
  have hmot (u : Vol) (m : Nat) : (motShow u m).outs.fireOn = u.outs.fireOn := by
    unfold motShow
    extract_lets chans
    exact (congrArg Outs.fireOn (rgSet_outs chans _ _)).trans
      (foldl_fireOn _ (fun w _ => congrArg Outs.fireOn (rgSet_outs w _ _)) _ u)
  unfold outApply
  extract_lets shown valves
  have hshown : shown.outs.fireOn = v.outs.fireOn := foldl_fireOn _ (fun u m => by
    split
    · exact hmot u m
    · rfl) _ v
  have hvalves : valves.outs.fireOn = shown.outs.fireOn := foldl_fireOn _ valveApply_fireOn _ shown
  exact (gioApply_fireOn valves).trans (hvalves.trans hshown)

/-- SAFE stops every firing output (R364). -/
theorem outForceSafe_fireOn (v : Vol) : (outForceSafe v).outs.fireOn = 0 := by
  have hoff : (fireOff v (BitVec.allOnes 64)).outs.fireOn = 0 := by
    show v.outs.fireOn &&& ~~~(BitVec.allOnes 64) = 0
    simp
  exact (outApply_fireOn _).trans ((foldl_fireOn _ (fun w _ => congrArg Outs.fireOn (rgSet_outs w _ _)) _ _).trans hoff)

end Sys2Proof.Machine
end

section
/-! SUPPORT. The entry into SAFE, the end of a transition and the entry into the other modes (R553-R555). -/

namespace Sys2Proof.Machine

/-! ### The steps of a change of mode -/

theorem transitionEnds_sys (v : Vol) (m : Mode) : (transitionEnds v m).sys = { v.sys with mode := m, target := none } := by
  unfold transitionEnds
  simp

theorem transitionEnds_cores (v : Vol) (m : Mode) : (transitionEnds v m).cores = v.cores := by
  unfold transitionEnds
  simp

theorem yokRelease_sys (v : Vol) (why : Nat) : (yokRelease v why).sys = v.sys := by
  unfold yokRelease
  dsimp only
  split
  · unfold yokCtrl yokSend yokSendAt
    split
    · rfl
    · rfl
  · rfl

theorem yokRelease_cores (v : Vol) (why : Nat) : (yokRelease v why).cores = v.cores := by
  unfold yokRelease
  dsimp only
  split
  · unfold yokCtrl yokSend yokSendAt
    split
    · rfl
    · rfl
  · rfl

theorem probFrom_sys (v : Vol) (t : Nat) : (probFrom v t).sys = v.sys := raiseEvent_sys _ _ _
theorem probFrom_cores (v : Vol) (t : Nat) : (probFrom v t).cores = v.cores := raiseEvent_cores _ _ _

/-- A change of every core of a list reaches each of them, and no other. -/
theorem coreOf_foldl_onCore (g : Core → Core) (hg : ∀ c, g (g c) = g c) (l : List Nat) (v : Vol) (k : Nat) (hk : k < v.cores.length) :
    coreOf (l.foldl (fun u j => onCore u j g) v) k = if k ∈ l then g (coreOf v k) else coreOf v k := by
  induction l generalizing v with
  | nil => rfl
  | cons j l ih =>
    have hlen : k < (onCore v j g).cores.length := by simpa [onCore, setCore] using hk
    rw [List.foldl_cons, ih (onCore v j g) hlen]
    by_cases hj : k = j
    · subst hj
      rw [coreOf_onCore v k g hk, hg]
      simp
    · rw [coreOf_onCore_ne v g hj]
      simp [hj]

theorem foldl_onCore_sys (g : Core → Core) (l : List Nat) (v : Vol) : (l.foldl (fun u k => onCore u k g) v).sys = v.sys := by
  induction l generalizing v with
  | nil => rfl
  | cons k l ih => exact ih (onCore v k g)

/-! ### SAFE -/

/-- A core that SAFE halts. -/
def safeHalted (c : Core) : Core := { c with safeHalt := true }

/-- The entry into SAFE: the mode is SAFE with no transition left, the control cores halt and every firing output is off. -/
structure EntersSafe (v v' : Vol) : Prop where
  mode : v'.sys.mode = .safe
  target : v'.sys.target = none
  wait : v'.sys.wait = v.sys.wait
  halted : ∀ k, k < 8 → k < v.cores.length → (coreOf v' k).safeHalt = true
  service : 8 < v.cores.length → coreOf v' 8 = coreOf v 8
  fireOn : v'.outs.fireOn = 0
  sram : v'.sram = v.sram

theorem safeEntered_enters (v : Vol) : EntersSafe v (safeEntered v) := by
  have hsram := (safeEntered_keeps v).sram
  have hsys := yokRelease_sys v (if rb v (aStat pClk) 4 then 2 else 1)
  have hcores := yokRelease_cores v (if rb v (aStat pClk) 4 then 2 else 1)
  revert hsram
  unfold safeEntered
  extract_lets released changed tally stopped halted svc prob lks last
  intro hsram
  have hchanged : changed.sys = { v.sys with mode := .safe, target := none } := (transitionEnds_sys released .safe).trans (by rw [hsys])
  have hkept : changed.cores = v.cores := (transitionEnds_cores released .safe).trans hcores
  have hhalted : halted.sys = stopped.sys := foldl_onCore_sys safeHalted (List.range 8) stopped
  have hprob : prob.sys = svc.sys ∧ prob.cores = svc.cores := by
    unfold prob
    split
    · obtain ⟨t, ht⟩ := probStart_eq svc
      rw [ht]
      exact ⟨probFrom_sys svc t, probFrom_cores svc t⟩
    · exact ⟨rfl, rfl⟩
  have hsvc : svc.sys = halted.sys := rgSet_sys halted _ _
  have hlastSys : last.sys = prob.sys := rfl
  have hend : (outForceSafe last).sys = { v.sys with mode := .safe, target := none } := by
    rw [outForceSafe_sys last, hlastSys, hprob.1, hsvc, hhalted]
    exact hchanged
  have hall (k : Nat) (hk : k < v.cores.length) :
      coreOf (outForceSafe last) k = if k ∈ List.range 8 then safeHalted (coreOf v k) else coreOf v k := by
    have hlast : (outForceSafe last).cores = halted.cores := (outForceSafe_touches last).cores.trans hprob.2
    rw [coreOf_congr hlast, ← coreOf_congr hkept]
    exact coreOf_foldl_onCore safeHalted (fun _ => rfl) (List.range 8) stopped k (by rw [show stopped.cores = v.cores from hkept]; exact hk)
  clear_value last
  constructor
  case mode => rw [hend]
  case target => rw [hend]
  case wait => rw [hend]
  case halted =>
    intro k hk hlen
    rw [hall k hlen, if_pos (List.mem_range.mpr hk)]
    rfl
  case service =>
    intro hlen
    rw [hall 8 hlen, if_neg (by simp)]
  case fireOn => exact outForceSafe_fireOn last
  case sram => exact hsram

/-- From a mode that SAFE is entered from at once. -/
theorem enterSafe_at_once {v : Vol} (h : safeAtOnce v.sys.mode = true) : EntersSafe v (enterSafe v) := by
  unfold enterSafe
  rw [if_pos h]
  obtain ⟨hmode, htarget, hwait, hhalted, hservice, hfire, hsram⟩ :=
    safeEntered_enters (setSysP v fun s => { s with reqAt := wall v, target := none })
  exact ⟨hmode, htarget, hwait, hhalted, hservice, hfire, hsram⟩

/-- In BANKED, SAFE follows the exit. -/
theorem enterSafe_banked {v : Vol} (h : v.sys.mode = .banked) : enterSafe v = setSysP v fun s => { s with safeAfter := true } := by
  unfold enterSafe
  rw [h]
  rfl

/-! ### The other modes -/

theorem modeKept_rgClr (v : Vol) (a : Nat) (w : Word) : ModeKept v (rgClr v a w) := .of_sys (rgSet_sys v a _)

theorem modeKept_rcNoted (v : Vol) : ModeKept v (rcNoted v) := ⟨rfl, rfl, rfl, rfl⟩

theorem enterBanked_mode (v : Vol) : (enterBanked v).sys.mode = .banked ∧ (enterBanked v).sys.target = none := by
  unfold enterBanked
  extract_lets xt safe ended ticks ds offs plls bits clocks shown
  have hended : ended.sys.mode = .banked ∧ ended.sys.target = none := by
    rw [show ended.sys = _ from transitionEnds_sys safe .banked]
    exact ⟨rfl, rfl⟩
  have hoffs : ModeKept ticks offs := .foldl _ (fun u d => .ite (domainOff_kept u d) (.refl u)) ds ticks
  have hplls : ModeKept offs plls := (modeKept_rgClr offs _ _).trans (modeKept_rgClr _ _ _)
  have hbits : ModeKept plls bits := (modeKept_rgClr plls _ _).trans (modeKept_rgClr _ _ _)
  have hclocks : ModeKept bits clocks := (modeKept_rcNoted bits).trans (.of_sys (rgSet_sys _ _ _))
  have hshown : ModeKept clocks shown := .ite (.refl clocks) (modeKept_rgClr clocks _ _)
  have hkept := hoffs.trans (((hplls.trans hbits).trans hclocks).trans hshown)
  exact ⟨hkept.mode.trans hended.1, hkept.target.trans hended.2⟩

/-- A transition that a boundary or a still tick completes leaves the part in its mode. -/
theorem applyMode_mode (v : Vol) (t : Mode) : (applyMode v t).sys.mode = t ∧ (applyMode v t).sys.target = none := by
  unfold applyMode
  extract_lets left d divs
  split
  · next h =>
    rw [h]
    exact enterBanked_mode left
  · rw [transitionEnds_sys]
    exact ⟨rfl, rfl⟩

end Sys2Proof.Machine
end

section
/-! SUPPORT. What a write of SYS_MODEREQ does (R554): the request refused, waiting or performed, and the request for SAFE. -/

namespace Sys2Proof.Machine

/-! ### The request -/

/-- The mode t asked for: the transition in progress, since now. -/
def modeAsked (v : Vol) (t : Mode) : Vol := setSysP v fun s => { s with reqAt := wall v, target := some t }

section
variable {v : Vol} {code : Nat} {t : Mode} (h7 : code ≠ 7)
include h7

theorem modeRequest_refused (hr : modeRefusal v code ≠ 0) : modeRequest v code
    = raiseEvent (rgSet v (ra pSys 0x048) (BitVec.ofNat 32 (modeRefusal v code))) pSys 1 := by
  unfold modeRequest
  rw [if_neg h7]
  exact if_pos hr

/-- A request that nothing refuses is for its mode, at once or with the next boundary. -/
theorem modeRequest_accepted (hr : modeRefusal v code = 0) (ht : modeOfCode code = some t) : modeRequest v code
    = if t = v.sys.mode then transitionEnds (modeAsked v t) t
      else if v.tick.running then modeAsked v t
      else outApply (applyMode (modeAsked v t) t) := by
  unfold modeRequest
  rw [if_neg h7, ht]
  exact if_neg (not_not.mpr hr)

theorem modeRequest_waits (hr : modeRefusal v code = 0) (ht : modeOfCode code = some t) (hm : v.sys.mode ≠ t)
    (hrun : v.tick.running = true) : modeRequest v code = modeAsked v t := by
  rw [modeRequest_accepted h7 hr ht, if_neg hm.symm, if_pos hrun]

theorem modeRequest_performed (hr : modeRefusal v code = 0) (ht : modeOfCode code = some t)
    (hnow : v.sys.mode = t ∨ v.tick.running = false) : (modeRequest v code).sys.target = none ∧ (modeRequest v code).sys.mode = t := by
  rw [modeRequest_accepted h7 hr ht]
  by_cases hm : v.sys.mode = t
  · rw [if_pos hm.symm, transitionEnds_sys]
    exact ⟨rfl, rfl⟩
  · have hstill : ¬ v.tick.running = true := by rw [hnow.resolve_left hm]; decide
    rw [if_neg (Ne.symm hm), if_neg hstill, outApply_sys]
    exact (applyMode_mode (modeAsked v t) t).symm

end

/-! ### The request for SAFE -/

theorem modeRequest_safe_again {v : Vol} (h : v.sys.mode = .safe) :
    modeRequest v 7 = transitionEnds (setSysP v fun s => { s with reqAt := wall v }) .safe := by
  unfold modeRequest
  rw [if_pos rfl, h]
  rfl

theorem modeRequest_safe_at_once {v : Vol} (h : safeAtOnce v.sys.mode = true) : modeRequest v 7 = enterSafe v := by
  unfold modeRequest
  have hs : (v.sys.mode == .safe) = false := by revert h; cases v.sys.mode <;> decide
  have hb : (v.sys.mode == .banked) = false := by revert h; cases v.sys.mode <;> decide
  rw [if_pos rfl, hs, hb]
  rfl

theorem modeRequest_safe_banked {v : Vol} (h : v.sys.mode = .banked) : modeRequest v 7 = enterSafe (bankedWake v 0) := by
  unfold modeRequest
  rw [if_pos rfl, h]
  rfl

/-- The exit from BANKED goes on, the mode unchanged. -/
theorem bankedWake_exits {v : Vol} (h : v.sys.mode = .banked) (n : Nat) :
    (bankedWake v n).sys.mode = .banked ∧ (bankedWake v n).sys.bankExit = true
      ∧ (bankedWake v n).sram = v.sram ∧ (bankedWake v n).cores = v.cores := by
  unfold bankedWake
  extract_lets cause exits
  split
  · next hstill => exact ⟨h, hstill.resolve_left (not_not.mpr h), rfl, rfl⟩
  split
  · exact ⟨h, rfl, rfl, rfl⟩
  · exact ⟨h, rfl, rfl, rfl⟩

/-! ### The write of SYS_MODEREQ -/

/-- The answer to a request does not rest on SYS_MODEREQ itself. -/
theorem modeRefusal_rgSet (v : Vol) (w : Word) (code : Nat) :
    modeRefusal (rgSet v (ra pSys 0x044) w) code = modeRefusal v code := by
  have hrb {p off : Nat} (hp : p ≠ pSys) (hoff : off < 0x1000) (i : Nat) :
      rb (rgSet v (ra pSys 0x044) w) (ra p off) i = rb v (ra p off) i := by
    rw [rb, rg_rgSet_ne _ _ (by simp only [ra, pSys] at *; omega), ← rb]
  have hpwr (d : Nat) (hd : d ≤ 96) : pwrBit (rgSet v (ra pSys 0x044) w) 0x070 d = pwrBit v 0x070 d := by
    rw [pwrBit, pwrBit, hrb (by decide) (by omega)]
  have hkeep : keepOk (rgSet v (ra pSys 0x044) w) = keepOk v := by
    have hd {d : Nat} (h : d ∈ (List.range 96).map (· + 1)) : d ≤ 96 := by
      obtain ⟨i, hi, rfl⟩ := List.mem_map.mp h
      have := List.mem_range.mp hi
      omega
    unfold keepOk
    extract_lets ds
    congr 1
    · rw [Bool.eq_iff_iff, List.all_eq_true, List.all_eq_true]
      exact forall₂_congr fun d h => by rw [hpwr d (hd h)]
    · congr 2
      exact List.countP_congr fun d h => by rw [hpwr d (hd h)]
  unfold modeRefusal
  rw [hkeep, hrb (p := pTal) (off := 0x084) (by decide) (by decide), hrb (p := pClk) (off := 0x00C) (by decide) (by decide),
    hrb (p := pClk) (off := 0x050) (by decide) (by decide), hrb (p := pLdg) (off := 0x00C) (by decide) (by decide),
    hrb (p := pTick) (off := 0x008) (by decide) (by decide)]
  rfl

/-- SYS_MODEREQ takes three bits, without reserved codes and write-once bits. -/
theorem specAt_modeReq : ∃ sp, specAt pSys 0x044 = some sp ∧ sp.rw = 7 ∧ sp.w1c = 0 ∧ sp.rwo = 0 ∧ sp.chk = [] := by
  have key : (specAt pSys 0x044).map (fun sp => (sp.rw, sp.w1c, sp.rwo, sp.chk)) = some (7, 0, 0, []) := by decide +kernel
  obtain ⟨sp, hsp, hmask⟩ := Option.map_eq_some_iff.mp key
  simp only [Prod.mk.injEq] at hmask
  exact ⟨sp, hsp, hmask⟩

/-- A write of SYS_MODEREQ that reaches its page stores a word with the code in its field, and is the request for that mode. -/
theorem wr_modeReq (s : State) (m : Fin 16) {code : Nat} (hcode : code < 8) (ho : pageOpen s.vol m pSys = true) :
    ∃ w', (.next { s with vol := wr s.nv s.vol m (ra pSys 0x044) (BitVec.ofNat 32 code) } : Out)
      = .next (performed s m (ra pSys 0x044) (BitVec.ofNat 32 code) (modeRequest (rgSet s.vol (ra pSys 0x044) w') code)) := by
  obtain ⟨inf, hp⟩ := pageOpen_info ho
  obtain ⟨sp, hsp, hrw, hw1c, hrwo, hchk⟩ := specAt_modeReq
  have hblk : inf.blk = .sys := blk_of_page hp (by decide +kernel)
  have hfield : fld (takenValue sp .direct (rg s.vol (ra pSys 0x044)) (BitVec.ofNat 32 code)) 2 0 = code := by
    have hbits (old : Word) : fld (takenValue sp .direct old (BitVec.ofNat 32 code)) 2 0 = fld (BitVec.ofNat 32 code) 2 0 := by
      refine fld_congr fun i hi => ?_
      simp only [takenValue, hrw, hw1c, bit]
      interval_cases i <;> simp
    rw [hbits]
    simp only [fld, BitVec.toNat_ofNat]
    omega
  refine ⟨takenValue sp .direct (rg s.vol (ra pSys 0x044)) (BitVec.ofNat 32 code), ?_⟩
  rw [wr_open s.nv s.vol m pSys 0x044 _ inf hp ho (by decide) (by decide),
    pageWrite_block s.nv s.vol inf m pSys 0x044 .direct _ (stageChan_ra_none (by decide) (by decide)) (by rw [hsp]; rfl)
      (by decide) (fun h => absurd h (by decide)) (fun h => absurd h (by decide)), blockWrite, hblk]
  dsimp only [sysPageWrite]
  rw [if_pos rfl, regWrite_plain _ _ _ _ _ sp hsp hchk hrwo, rf, rg_rgSet_same, TWord.ofWord, hfield]
  rfl

end Sys2Proof.Machine
end

section
/-! SUPPORT. The end of the reset sequence and Locksmith's boot (R211, R486, R490, R493). -/

namespace Sys2Proof.Machine

/-! ### The end of the reset sequence -/

/-- The reset sequence has ended at u: the part is in SAFE where the boot or a request asks for it, else in SERVICE. -/
structure SequenceEnded (u : Vol) (safe : Bool) (r : Vol) : Prop where
  wait : r.sys.wait = .idle
  target : r.sys.target = none
  mode : r.sys.mode = if safe || u.sys.safeAfter then .safe else .service
  service : 8 < u.cores.length → coreOf r 8 = coreOf u 8

theorem sequenceEnds_ended (u : Vol) (safe : Bool) : SequenceEnded u safe (sequenceEnds u safe) := by
  unfold sequenceEnds
  extract_lets goSafe exits started shown
  have hshown : shown.sys = { started.sys with mode := .service, target := none } :=
    (outApply_sys _).trans (transitionEnds_sys started .service)
  have hcores : shown.cores = u.cores := (outApply_touches _).cores.trans (transitionEnds_cores started .service)
  have hidle : started.sys.wait = .idle := rfl
  split
  · next h =>
    have hsafe : (safe || u.sys.safeAfter) = true := (Bool.and_eq_true _ _ ▸ h).2
    obtain ⟨hmode, htarget, hwait, -, hservice, -, -⟩ := safeEntered_enters started
    exact ⟨hwait.trans hidle, htarget, by rw [hmode, if_pos hsafe], hservice⟩
  split
  · next h =>
    have hsafe : (safe || u.sys.safeAfter) = true := h
    have honce : safeAtOnce shown.sys.mode = true := by rw [hshown]; rfl
    obtain ⟨hmode, htarget, hwait, -, hservice, -, -⟩ := enterSafe_at_once honce
    refine ⟨by rw [hwait, hshown]; exact hidle, htarget, by rw [hmode, if_pos hsafe], fun hlen => ?_⟩
    rw [hservice (by rw [hcores]; exact hlen), coreOf_congr hcores]
  · next h =>
    have hsafe : ¬ (safe || u.sys.safeAfter) = true := h
    exact ⟨by rw [hshown]; exact hidle, by rw [hshown], by rw [hshown, if_neg hsafe], fun _ => coreOf_congr hcores 8⟩

/-- The power-up of a domain is no part of the mode. -/
theorem startPower_kept (v : Vol) (d : Nat) : ModeKept v (startPower v d) := by
  unfold startPower
  split
  · exact .refl v
  · exact (ModeKept.of_sys (rbSet_sys v _ _ _)).trans ⟨rfl, rfl, rfl, rfl⟩

/-! ### What Locksmith's boot keeps -/

/-- A SAFE that waits, and the cores, stand as they were. -/
structure BootKept (v v' : Vol) : Prop where
  safeAfter : v'.sys.safeAfter = v.sys.safeAfter
  cores : v'.cores = v.cores

namespace BootKept

variable {v v' v'' : Vol}

theorem refl (v : Vol) : BootKept v v := ⟨rfl, rfl⟩

theorem trans (h : BootKept v v') (h' : BootKept v' v'') : BootKept v v'' :=
  ⟨h'.safeAfter.trans h.safeAfter, h'.cores.trans h.cores⟩

theorem ite {c : Prop} [Decidable c] {a b : Vol} (ha : BootKept v a) (hb : BootKept v b) : BootKept v (if c then a else b) := by
  split
  · exact ha
  · exact hb

theorem foldl {β : Type} (f : Vol → β → Vol) (h : ∀ v x, BootKept v (f v x)) (l : List β) (v : Vol) : BootKept v (l.foldl f v) := by
  induction l generalizing v with
  | nil => exact .refl v
  | cons x l ih => exact (h v x).trans (ih (f v x))

theorem rgSet (v : Vol) (a : Nat) (w : Word) : BootKept v (rgSet v a w) := ⟨rfl, rfl⟩

theorem setFault (v : Vol) (p i : Nat) : BootKept v (setFault v p i) := ⟨rfl, rfl⟩

theorem setSlot (v : Vol) (s : Nat) (k : List Byte) : BootKept v (setSlot v s k) := ⟨rfl, rfl⟩

theorem shadow (v : Vol) (m : SMap Word) : BootKept v (setSysP v fun s => { s with ctrShadow := m }) := ⟨rfl, rfl⟩

theorem setLks (v : Vol) (f : Lks → Lks) : BootKept v (setLks v f) := ⟨rfl, rfl⟩

end BootKept

theorem devCheck_kept (nv : Nv) (v : Vol) : BootKept v (devCheck nv v) := .ite (.refl v) (.setFault v _ _)

theorem putRegs_kept (v : Vol) (a : Nat) (bs : List Byte) : BootKept v (putRegs v a bs) :=
  .foldl _ (fun u _ => .rgSet u _ _) _ v

theorem loadSlots_kept (nv : Nv) (v : Vol) : BootKept v (loadSlots nv v) := by
  unfold loadSlots
  extract_lets bytes own
  have hown : BootKept v own := by
    unfold own
    split
    · exact (BootKept.setSlot v _ _).trans (putRegs_kept _ _ _)
    · exact .refl v
  split
  · exact hown
  · split
    · exact hown.trans (.setSlot own _ _)
    · exact hown

theorem foldl_pair_kept (f : Vol × Bool → Nat → Vol × Bool) (h : ∀ r i, BootKept r.1 (f r i).1) (l : List Nat) (r : Vol × Bool) :
    BootKept r.1 (l.foldl f r).1 := by
  induction l generalizing r with
  | nil => exact .refl r.1
  | cons i l ih => exact (h r i).trans (ih (f r i))

theorem checkShadow_kept (nv : Nv) (v : Vol) : BootKept v (checkShadow nv v).1 := by
  refine foldl_pair_kept _ (fun r i => ?_) (List.range 8) (v, false)
  dsimp only
  split
  · exact .shadow r.1 _
  split
  · exact .setFault r.1 _ _
  · exact .refl r.1

theorem sealReopens_kept (v : Vol) (s : Nat) : BootKept v (sealReopens v s) := by
  unfold sealReopens
  split
  · exact .refl v
  · exact ⟨rfl, rfl⟩

theorem keysCleared_kept (v : Vol) : BootKept v (keysCleared v) := by
  unfold keysCleared
  extract_lets reopened
  have hreopened : BootKept v reopened := BootKept.foldl sealReopens sealReopens_kept (List.range 64) v
  exact hreopened.trans (.setLks reopened _)

theorem lksTamper_kept (v : Vol) : BootKept v (lksTamper v) := by
  have htampered : BootKept v (setLks v fun l => { l with tampered := true }) := .setLks v _
  have hended (u : Vol) : BootKept u (sessionEnds u) := .setLks u _
  have hraised (u : Vol) : BootKept u (raiseEvent u pLks 8) := ⟨by rw [raiseEvent_sys], raiseEvent_cores u _ _⟩
  exact (((htampered.trans (keysCleared_kept _)).trans (hended _)).trans (.setFault _ _ _)).trans (hraised _)

/-! ### Locksmith's boot -/

/-- A torn fuse burn (R486): of a field's fuses some, but fewer than 192, read 1. -/
def fuseTorn (nv : Nv) (f : Nat) : Bool := fuseOnes nv f != 0 && decide (fuseOnes nv f < 192)

/-- Boot with a torn burn ends in a whole-part reset. -/
theorem lksBoot_torn {nv : Nv} {f : Nat} (hf : f < 4) (htorn : fuseTorn nv f = true) (v : Vol) :
    ∃ nv' v', lksBoot nv v = (nv', wholeReset v' 6 none) := by
  have hmem : f ∈ (List.range 4).filter (fuseTorn nv) := List.mem_filter.mpr ⟨List.mem_range.mpr hf, htorn⟩
  have hne : (!((List.range 4).filter (fuseTorn nv)).isEmpty) = true := by
    rw [Bool.not_eq_true', List.isEmpty_eq_false_iff_exists_mem]
    exact ⟨f, hmem⟩
  unfold lksBoot
  extract_lets torn lc slots st
  rw [if_pos (show (!torn.isEmpty) = true from hne)]
  exact ⟨_, _, rfl⟩

/-- The part has booted: no wait and no transition is left, and it is in SERVICE or SAFE. -/
def Booted (r : Vol) : Prop := r.sys.wait = .idle ∧ r.sys.target = none ∧ (r.sys.mode = .service ∨ r.sys.mode = .safe)

theorem SequenceEnded.booted {u r : Vol} {safe : Bool} (h : SequenceEnded u safe r) : Booted r := by
  refine ⟨h.wait, h.target, ?_⟩
  rw [h.mode]
  split
  · exact .inr rfl
  · exact .inl rfl

theorem ModeKept.booted {u r : Vol} (h : ModeKept u r) (hu : Booted u) : Booted r := by
  obtain ⟨hwait, htarget, hmode⟩ := hu
  exact ⟨h.wait.trans hwait, h.target.trans htarget, by rw [h.mode]; exact hmode⟩

/-- What the boot of an unprogrammed part starts (R493), Locksmith's checks having left w and found a counter above its shadow or not. -/
def blankStarted (w : Vol) (above : Bool) : Vol :=
  let u := if w.sys.coldTamp then rgOr w (aLks 0 0x094) 16 else w
  let u := startService (writeEntries (rbSet u (aStat pFlc) 0 true) 0) 0
  if above || w.sys.coldTamp then lksTamper u else u

section
variable {nv : Nv} (hsound : ∀ f, f < 4 → fuseTorn nv f = false) (v : Vol)
include hsound

theorem torn_eq_nil : (List.range 4).filter (fuseTorn nv) = [] :=
  List.filter_eq_nil_iff.mpr fun f hf => by rw [hsound f (List.mem_range.mp hf)]; decide

/-- Boot without a torn burn ends the reset sequence. What Locksmith reads is given a name first: the steps rest on none of it. -/
theorem lksBoot_booted : Booted (lksBoot nv v).2 := by
  have htorn := torn_eq_nil hsound
  unfold lksBoot
  obtain ⟨record, hrecord⟩ : ∃ r, devRecord nv 1 = r := ⟨_, rfl⟩
  obtain ⟨plane, hplane⟩ : ∃ p, bootPlane nv = p := ⟨_, rfl⟩
  obtain ⟨cycle, hcycle⟩ : ∃ n, lifeCycle nv = n := ⟨_, rfl⟩
  obtain ⟨⟨w, above⟩, hshadow⟩ : ∃ r, checkShadow nv (loadSlots nv (devCheck nv v)) = r := ⟨_, rfl⟩
  rw [hplane]
  extract_lets torn lc slots st
  rw [show torn = [] from htorn, show lc = cycle from hcycle, show st = record from hrecord,
    show checkShadow nv slots = (w, above) from hshadow]
  split
  · next h => exact absurd h (by decide)
  split
  · exact (sequenceEnds_ended _ _).booted
  dsimp only
  split
  · exact (sequenceEnds_ended _ _).booted
  split
  · exact (sequenceEnds_ended _ _).booted
  split
  · exact (sequenceEnds_ended _ _).booted
  · exact (startPower_kept _ 31).booted (sequenceEnds_ended _ _).booted

theorem lksBoot_blank (hlc : lifeCycle nv = 0) {w : Vol} {above : Bool}
    (hshadow : checkShadow nv (loadSlots nv (devCheck nv v)) = (w, above)) :
    lksBoot nv v = (nv, sequenceEnds (blankStarted w above) false) := by
  have htorn := torn_eq_nil hsound
  unfold lksBoot
  obtain ⟨record, hrecord⟩ : ∃ r, devRecord nv 1 = r := ⟨_, rfl⟩
  obtain ⟨plane, hplane⟩ : ∃ p, bootPlane nv = p := ⟨_, rfl⟩
  rw [hplane]
  extract_lets torn lc slots st
  rw [show torn = [] from htorn, show lc = 0 from hlc, show st = record from hrecord,
    show checkShadow nv slots = (w, above) from hshadow]
  rw [if_neg (by decide), if_neg (by decide)]
  exact if_pos rfl

end

/-! ### The service core of an unprogrammed part -/

theorem rbSet_cores (v : Vol) (a i : Nat) (b : Bool) : (rbSet v a i b).cores = v.cores := by
  unfold rbSet
  split
  · rfl
  · rfl

theorem foldl_onCore_length (g : Core → Core) (l : List Nat) (v : Vol) :
    (l.foldl (fun u k => onCore u k g) v).cores.length = v.cores.length := by
  induction l generalizing v with
  | nil => rfl
  | cons k l ih => exact (ih (onCore v k g)).trans (List.length_set ..)

theorem writeEntries_sys (v : Vol) (a : Nat) : (writeEntries v a).sys = v.sys := by
  unfold writeEntries
  exact foldl_onCore_sys _ _ _

theorem writeEntries_length (v : Vol) (a : Nat) : (writeEntries v a).cores.length = v.cores.length := by
  unfold writeEntries
  exact foldl_onCore_length _ _ _

theorem startService_sys (v : Vol) (a : Nat) : (startService v a).sys = v.sys := rbSet_sys _ _ _ _

/-- The service core starts. -/
theorem startService_spec (v : Vol) (a : Nat) (h : 8 < v.cores.length) :
    (startService v a).cores.length = v.cores.length ∧ (coreOf (startService v a) 8).run = true := by
  unfold startService
  extract_lets entry
  have hcores : (rbSet (rgOr entry (aCtl (pCore 8)) 0x18) (aStat (pCore 8)) 3 true).cores = v.cores := rbSet_cores _ _ _ _
  generalize rbSet (rgOr entry (aCtl (pCore 8)) 0x18) (aStat (pCore 8)) 3 true = u at hcores
  rw [← hcores] at h ⊢
  unfold startCore
  exact ⟨List.length_set .., by rw [coreOf_onCore u 8 _ h]⟩

theorem blankStarted_spec (w : Vol) (above : Bool) (h : 8 < w.cores.length) :
    (blankStarted w above).sys.safeAfter = w.sys.safeAfter ∧ 8 < (blankStarted w above).cores.length
      ∧ (coreOf (blankStarted w above) 8).run = true := by
  unfold blankStarted
  extract_lets marked started
  have hmarked : BootKept w marked := .ite (.rgSet w _ _) (.refl w)
  have hflash : (rbSet marked (aStat pFlc) 0 true).cores = w.cores := (rbSet_cores _ _ _ _).trans hmarked.cores
  have hlen : (writeEntries (rbSet marked (aStat pFlc) 0 true) 0).cores.length = w.cores.length := by
    rw [writeEntries_length, hflash]
  obtain ⟨hstarted, hrun⟩ := startService_spec (writeEntries (rbSet marked (aStat pFlc) 0 true) 0) 0 (by rw [hlen]; exact h)
  have hsys : started.sys = marked.sys :=
    (startService_sys _ 0).trans ((writeEntries_sys _ 0).trans (rbSet_sys marked _ _ _))
  have hend : BootKept started (if (above || w.sys.coldTamp) = true then lksTamper started else started) :=
    .ite (lksTamper_kept started) (.refl started)
  refine ⟨?_, ?_, ?_⟩
  · rw [hend.safeAfter, hsys, hmarked.safeAfter]
  · rw [hend.cores, hstarted, hlen]
    exact h
  · rw [coreOf_congr hend.cores]
    exact hrun

/-- The boot of an unprogrammed part ends with the service core at work. -/
theorem lksBoot_blank_ends {nv : Nv} {v : Vol} (hsound : ∀ f, f < 4 → fuseTorn nv f = false) (hlc : lifeCycle nv = 0)
    (hcores : v.cores.length = 9) : (lksBoot nv v).1 = nv ∧ (coreOf (lksBoot nv v).2 8).run = true
      ∧ (lksBoot nv v).2.sys.mode = if v.sys.safeAfter then .safe else .service := by
  obtain ⟨⟨w, above⟩, hshadow⟩ : ∃ r, checkShadow nv (loadSlots nv (devCheck nv v)) = r := ⟨_, rfl⟩
  have hw : BootKept v w := by
    have h := checkShadow_kept nv (loadSlots nv (devCheck nv v))
    rw [hshadow] at h
    exact ((devCheck_kept nv v).trans (loadSlots_kept nv _)).trans h
  obtain ⟨hafter, hlen, hrun⟩ := blankStarted_spec w above (by rw [hw.cores, hcores]; decide)
  obtain ⟨-, -, hmode, hservice⟩ := sequenceEnds_ended (blankStarted w above) false
  rw [lksBoot_blank hsound v hlc hshadow]
  refine ⟨rfl, by rw [hservice hlen]; exact hrun, ?_⟩
  rw [hmode, Bool.false_or, hafter, hw.safeAfter]

end Sys2Proof.Machine
end

section
/-! PROOFS. Mode requests, SAFE and the end of the boot (O46). -/

namespace Sys2Proof.Machine

theorem svcPull_sys (nv : Nv) (v : Vol) : (svcPull nv v).sys = v.sys := by
  unfold svcPull
  dsimp only
  split
  · split
    · rfl
    · rfl
  · split
    · rfl
    · rw [raiseEvent_sys]
      rfl

/-- The end of Locksmith's boot, as a command: the boot, then the service port's pull-up. -/
theorem exec_bootComplete {s : State} (h : s.vol.sys.wait = .boot) : exec .locksmithBootComplete s
    = .next { s with nv := (lksBoot s.nv s.vol).1, vol := svcPull (lksBoot s.nv s.vol).1 (lksBoot s.nv s.vol).2 } := by
  have hboot : bootCompletes s.nv s.vol = lksBoot s.nv s.vol := if_pos h
  show (.next { s with nv := (bootDone s.nv s.vol).1, vol := (bootDone s.nv s.vol).2 } : Out) = _
  unfold bootDone
  rw [hboot]

theorem fuseTorn_iff {nv : Nv} {f : Nat} : fuseTorn nv f = true ↔ fuseOnes nv f ≠ 0 ∧ fuseOnes nv f < 192 := by
  simp [fuseTorn]

theorem fuseTorn_eq_false {nv : Nv} {f : Nat} (h : fuseOnes nv f = 0 ∨ 192 ≤ fuseOnes nv f) : fuseTorn nv f = false := by
  rw [Bool.eq_false_iff, ne_eq, fuseTorn_iff]
  omega

/-- The boot of a part without a torn fuse burn. -/
theorem bootComplete_sound {s : State} (hwait : s.vol.sys.wait = .boot) (hsound : ∀ f, f < 4 → fuseTorn s.nv f = false) :
    ∃ t, exec .locksmithBootComplete s = .next t ∧ t.vol.sys.wait = .idle ∧ t.vol.sys.target = none
      ∧ (t.vol.sys.mode = .service ∨ t.vol.sys.mode = .safe)
      ∧ (lifeCycle s.nv = 0 → s.vol.cores.length = 9 → t.nv = s.nv ∧ (coreOf t.vol 8).run = true
        ∧ t.vol.sys.mode = if s.vol.sys.safeAfter then .safe else .service) := by
  obtain ⟨hidle, htarget, hmode⟩ := lksBoot_booted hsound s.vol
  obtain ⟨⟨-, -, hcores⟩, -, -, -⟩ := svcPull_spec (lksBoot s.nv s.vol).1 (lksBoot s.nv s.vol).2
  have hsys := svcPull_sys (lksBoot s.nv s.vol).1 (lksBoot s.nv s.vol).2
  refine ⟨_, exec_bootComplete hwait, ?_⟩
  dsimp only
  rw [hsys, coreOf_congr hcores]
  exact ⟨hidle, htarget, hmode, lksBoot_blank_ends hsound⟩

/-- The boot of a part with a torn fuse burn. -/
theorem bootComplete_torn {s : State} (hwait : s.vol.sys.wait = .boot) {f : Nat} (hf : f < 4) (htorn : fuseTorn s.nv f = true) :
    ∃ t, exec .locksmithBootComplete s = .next t ∧ t.vol.sys.mode = .reset ∧ rg t.vol (ra pRst 0x040) = bitWord 6 := by
  obtain ⟨nv', v', hboot⟩ := lksBoot_torn hf htorn s.vol
  have hreset := afterReset_wholeReset v' 6 none
  obtain ⟨-, -, -, hregs⟩ := svcPull_spec nv' (wholeReset v' 6 none)
  refine ⟨_, exec_bootComplete hwait, ?_⟩
  rw [hboot]
  exact ⟨by rw [svcPull_sys, hreset.mode], by rw [hregs _ (by decide), hreset.cause]⟩

section
variable (s : State) (m : Fin 16) (ho : pageOpen s.vol m pSys = true)
include ho

/-- A request for a mode other than SAFE, written to SYS_MODEREQ. -/
theorem modeReq_acts {code : Nat} {to' : Mode} (hcode : code < 7) (hto : modeOfCode code = some to') :
    let v := s.vol
    let c : Out := .next { s with vol := wr s.nv s.vol m (ra pSys 0x044) (BitVec.ofNat 32 code) }
    (modeRefusal v code = 0 → v.sys.mode ≠ to' → v.tick.running = true →
        ∃ v', c = .next (performed s m (ra pSys 0x044) (BitVec.ofNat 32 code) v') ∧ v'.sys.target = some to' ∧ v'.sys.mode = v.sys.mode
          ∧ v'.sram = v.sram ∧ v'.cores = v.cores)
      ∧ (modeRefusal v code = 0 → (v.sys.mode = to' ∨ v.tick.running = false) →
        ∃ v', c = .next (performed s m (ra pSys 0x044) (BitVec.ofNat 32 code) v') ∧ v'.sys.target = none ∧ v'.sys.mode = to')
      ∧ (modeRefusal v code ≠ 0 →
        ∃ v', c = .next (performed s m (ra pSys 0x044) (BitVec.ofNat 32 code) v') ∧ v'.sys = v.sys
          ∧ rg v' (ra pSys 0x048) = BitVec.ofNat 32 (modeRefusal v code)
          ∧ (rb v (aEvEn pSys) 1 = true → rb v' (aEvPend pSys) 1 = true) ∧ v'.sram = v.sram ∧ v'.cores = v.cores) := by
  intro v c
  obtain ⟨w', hexec⟩ := wr_modeReq s m (show code < 8 by omega) ho
  have h7 : code ≠ 7 := by omega
  have hrefusal : modeRefusal (rgSet v (ra pSys 0x044) w') code = modeRefusal v code := modeRefusal_rgSet v w' code
  refine ⟨fun hr hm hrun => ⟨_, hexec, ?_⟩, fun hr hnow => ⟨_, hexec, ?_⟩, fun hr => ⟨_, hexec, ?_⟩⟩
  · rw [modeRequest_waits h7 (hrefusal.trans hr) hto hm hrun]
    exact ⟨rfl, rfl, rfl, rfl⟩
  · exact modeRequest_performed h7 (hrefusal.trans hr) hto hnow
  · rw [modeRequest_refused h7 (by rw [hrefusal]; exact hr), hrefusal]
    refine ⟨raiseEvent_sys _ _ _, ?_, fun hen => rb_raiseEvent_same _ _ (by decide) ?_, raiseEvent_sram _ _ _, raiseEvent_cores _ _ _⟩
    · rw [rg_raiseEvent_ne _ _ _ (by decide), rg_rgSet_same]
    · rw [rb, rg_rgSet_ne _ _ (by decide), rg_rgSet_ne _ _ (by decide), ← rb]
      exact hen

/-- A request for SAFE where it is entered at once. -/
theorem modeReqSafe_at_once (h : safeAtOnce s.vol.sys.mode = true) :
    ∃ v', exec (.modeReqSafe m) s = .next (performed s m (ra pSys 0x044) 7 v') ∧ v'.sys.mode = .safe ∧ v'.sys.target = none
      ∧ (∀ k, k < 8 → k < s.vol.cores.length → (coreOf v' k).safeHalt = true) ∧ v'.outs.fireOn = 0 ∧ v'.sram = s.vol.sram := by
  obtain ⟨w', hexec⟩ := wr_modeReq s m (show 7 < 8 by decide) ho
  refine ⟨_, hexec, ?_⟩
  obtain ⟨hmode, htarget, -, hhalted, -, hfire, hsram⟩ := enterSafe_at_once (v := rgSet s.vol (ra pSys 0x044) w') h
  rw [modeRequest_safe_at_once (v := rgSet s.vol (ra pSys 0x044) w') h]
  exact ⟨hmode, htarget, hhalted, hfire, hsram⟩

/-- A request for SAFE in SAFE. -/
theorem modeReqSafe_again (h : s.vol.sys.mode = .safe) :
    ∃ v', exec (.modeReqSafe m) s = .next (performed s m (ra pSys 0x044) 7 v') ∧ v'.sys.mode = .safe ∧ v'.sys.target = none
      ∧ v'.sram = s.vol.sram ∧ v'.cores = s.vol.cores := by
  obtain ⟨w', hexec⟩ := wr_modeReq s m (show 7 < 8 by decide) ho
  refine ⟨_, hexec, ?_⟩
  rw [modeRequest_safe_again (v := rgSet s.vol (ra pSys 0x044) w') h, transitionEnds_sys, transitionEnds_cores,
    (transitionEnds_keeps _ _).sram]
  exact ⟨rfl, rfl, rfl, rfl⟩

/-- A request for SAFE in BANKED. -/
theorem modeReqSafe_banked (h : s.vol.sys.mode = .banked) :
    ∃ v', exec (.modeReqSafe m) s = .next (performed s m (ra pSys 0x044) 7 v') ∧ v'.sys.mode = .banked ∧ v'.sys.bankExit = true
      ∧ v'.sys.safeAfter = true ∧ v'.sram = s.vol.sram ∧ v'.cores = s.vol.cores := by
  obtain ⟨w', hexec⟩ := wr_modeReq s m (show 7 < 8 by decide) ho
  refine ⟨_, hexec, ?_⟩
  obtain ⟨hmode, hexit, hsram, hcores⟩ := bankedWake_exits (v := rgSet s.vol (ra pSys 0x044) w') h 0
  rw [modeRequest_safe_banked (v := rgSet s.vol (ra pSys 0x044) w') h, enterSafe_banked hmode]
  exact ⟨hmode, hexit, rfl, hsram, hcores⟩

end

end Sys2Proof.Machine

namespace Sys2Proof
open Sys2Proof.Machine

/-- Settles O46: a request is the write of SYS_MODEREQ, and the end of the boot the end of the reset sequence. -/
theorem modeRequestsAct : Obligations.ModeRequestsAct := by
  unfold Obligations.ModeRequestsAct
  intro s m c code to' v a w
  refine ⟨fun hc ho => ?_, modeReqSafe_at_once s m, modeReqSafe_again s m, modeReqSafe_banked s m, fun hwait hfuses => ?_,
    fun hwait ⟨f, hf, hset, hfew⟩ => ?_⟩
  · simp only [List.mem_cons, Prod.mk.injEq, List.not_mem_nil, or_false] at hc
    obtain ⟨rfl, rfl, rfl⟩ | ⟨rfl, rfl, rfl⟩ | ⟨rfl, rfl, rfl⟩ | ⟨rfl, rfl, rfl⟩ := hc
    · exact modeReq_acts s m ho (by decide) rfl
    · exact modeReq_acts s m ho (by decide) rfl
    · exact modeReq_acts s m ho (by decide) rfl
    · exact modeReq_acts s m ho (by decide) rfl
  · exact bootComplete_sound hwait fun f hf => fuseTorn_eq_false (hfuses f hf)
  · exact bootComplete_torn hwait hf (fuseTorn_iff.mpr ⟨hset, hfew⟩)

end Sys2Proof
end

section
/-! SUPPORT. What the operations that write flash, config flash or OTP leave of the three (R239, R251, R267): the canonical form, and
every OTP bit that is set. -/

namespace Sys2Proof.Machine

/-! ### Two relations between the memories before and after -/

/-- Flash and config flash alone are written, and in canonical form. -/
structure FlashWritten (nv nv' : Nv) : Prop where
  wf : nv.wf = true → nv'.wf = true
  otp : nv'.otp = nv.otp

/-- The memories keep their canonical form, and OTP its set bits. -/
structure NvWritten (nv nv' : Nv) : Prop where
  wf : nv.wf = true → nv'.wf = true
  otp : otpKept nv nv'

section
variable {nv nv' nv'' : Nv}

theorem FlashWritten.refl (nv : Nv) : FlashWritten nv nv := ⟨id, rfl⟩

theorem FlashWritten.trans (h : FlashWritten nv nv') (h' : FlashWritten nv' nv'') : FlashWritten nv nv'' :=
  ⟨fun hw => h'.wf (h.wf hw), h'.otp.trans h.otp⟩

theorem FlashWritten.of_eq {β : Type} {r : Nv × β} {m : Nv} {x : β} (e : r = (m, x)) (h : FlashWritten nv r.1) : FlashWritten nv m := by
  rw [e] at h
  exact h

theorem FlashWritten.ite {β : Type} {c : Prop} [Decidable c] {r r' : Nv × β} (h : FlashWritten nv r.1) (h' : FlashWritten nv r'.1) :
    FlashWritten nv (if c then r else r').1 := by
  split
  · exact h
  · exact h'

theorem NvWritten.refl (nv : Nv) : NvWritten nv nv := ⟨id, fun _ _ h => h⟩

theorem NvWritten.trans (h : NvWritten nv nv') (h' : NvWritten nv' nv'') : NvWritten nv nv'' :=
  ⟨fun hw => h'.wf (h.wf hw), fun a i hb => h'.otp a i (h.otp a i hb)⟩

/-- What writes flash alone clears no OTP bit. -/
theorem FlashWritten.nvWritten (h : FlashWritten nv nv') : NvWritten nv nv' :=
  ⟨h.wf, fun a i hb => by rw [otpWord, h.otp]; exact hb⟩

/-- A fold of operations that write flash alone, on a state with the memories in it, writes flash alone. -/
theorem FlashWritten.foldl {β γ : Type} (mem : β → Nv) (f : β → γ → β) (h : ∀ r x, FlashWritten (mem r) (mem (f r x))) (l : List γ) (r : β) :
    FlashWritten (mem r) (mem (l.foldl f r)) := by
  induction l generalizing r with
  | nil => exact .refl _
  | cons x l ih => exact (h r x).trans (ih (f r x))

end

/-! ### Flash and config flash (R243, R244) -/

theorem flashPut_otp (nv : Nv) (a : Nat) (ws : List Word) : (flashPut nv a ws).otp = nv.otp := by
  induction ws generalizing nv a with
  | nil => rfl
  | cons w rest ih => exact ih _ _

theorem unitsPut_otp (nv : Nv) (a n : Nat) (e : Nat → Nat) : (unitsPut nv a n e).otp = nv.otp := by
  unfold unitsPut
  generalize List.range (n / 16) = l
  induction l generalizing nv with
  | nil => rfl
  | cons i rest ih => exact ih _

theorem flashErase_written (nv : Nv) (a n : Nat) : FlashWritten nv (flashErase nv a n) := ⟨flashErase_wf nv a n, rfl⟩
theorem flashErased_written (nv : Nv) (a n f : Nat) : FlashWritten nv (flashErased nv a n f) := ⟨flashErased_wf nv a n f, rfl⟩

theorem unitsPut_flashPut_written (nv : Nv) (a b n : Nat) (ws : List Word) (e : Nat → Nat) :
    FlashWritten nv (unitsPut (flashPut nv a ws) b n e) :=
  ⟨fun h => unitsPut_wf _ _ _ _ (flashPut_wf _ _ _ h), (unitsPut_otp _ _ _ _).trans (flashPut_otp _ _ _)⟩

theorem flashFailed_written (nv : Nv) (a n f : Nat) : FlashWritten nv (flashFailed nv a n f) := unitsPut_flashPut_written _ _ _ _ _ _
theorem unitsWrite_written (nv : Nv) (a : Nat) (bs : List Byte) : FlashWritten nv (unitsWrite nv a bs) := unitsPut_flashPut_written _ _ _ _ _ _

/-- The end of an FLC command (R244, R245). -/
theorem flcDone_written (nv : Nv) (v : Vol) (us : Nat) (good : Bool) : FlashWritten nv (flcDone nv v us good).1 := by
  unfold flcDone
  extract_lets op
  split
  · exact .refl nv
  · dsimp only
    split
    · split
      · exact unitsPut_flashPut_written _ _ _ _ _ _
      · exact flashFailed_written _ _ _ _
    · split
      · exact .refl nv
      · exact flashErase_written _ _ _

/-! ### The device area (R246-R250, R484) -/

theorem openSector_written (nv : Nv) (s seq : Nat) : FlashWritten nv (openSector nv s seq) :=
  (flashErase_written nv s 0x10000).trans (unitsWrite_written _ _ _)

theorem devCompact_written (nv : Nv) : FlashWritten nv (devCompact nv) := by
  unfold devCompact
  split
  · exact openSector_written nv _ _
  · next old _ =>
    extract_lets new recs nv1 copy perKey
    have hcopy (acc : Nv × Nat) (a : Nat) : FlashWritten acc.1 (copy acc a).1 := unitsWrite_written _ _ _
    have hkey (acc : Nv × Nat) (key : Nat) : FlashWritten acc.1 (perKey acc key).1 := by
      simp only [perKey]
      split
      · exact .refl _
      · next cur _ =>
        split
        · exact (hcopy acc _).trans (hcopy _ _)
        · exact hcopy acc _
    exact ((openSector_written nv _ _).trans (FlashWritten.foldl (mem := Prod.fst) perKey hkey _ (nv1, new + 16))).trans (flashErase_written _ _ _)

theorem devPlace_written (nv : Nv) (n : Nat) : FlashWritten nv (devPlace nv n).1 := by
  unfold devPlace
  extract_lets room nv'
  show FlashWritten nv (if room nv then nv else devCompact nv)
  split
  · exact .refl nv
  · exact devCompact_written nv

theorem devWrite_written (nv : Nv) (key : Nat) (payload : List Byte) : FlashWritten nv (devWrite nv key payload) := by
  have hplace := devPlace_written nv ((payload.length + 31) / 16 * 16 + 32)
  unfold devWrite
  split
  · next h => rw [h] at hplace; exact hplace
  · next h => rw [h] at hplace; exact hplace.trans (unitsWrite_written _ _ _)

theorem devWriteTry_written (nv : Nv) (v : Vol) (key : Nat) (payload : List Byte) : FlashWritten nv (devWriteTry nv v key payload).1 := by
  have hplace := devPlace_written nv ((payload.length + 31) / 16 * 16 + 32)
  unfold devWriteTry
  split
  · split
    · next h => rw [h] at hplace; exact hplace
    · next h => rw [h] at hplace; exact (hplace.trans (unitsWrite_written _ _ _)).trans (flashFailed_written _ _ _ _)
  · exact devWrite_written nv key payload

theorem writeImageState_written (nv : Nv) (active state old : Nat) : FlashWritten nv (writeImageState nv active state old) :=
  devWrite_written nv 1 _

/-! ### Planes and the update messages (R497, R500-R505) -/

theorem unitsTry_written (nv : Nv) (v : Vol) (a : Nat) (bs : List Byte) : FlashWritten nv (unitsTry nv v a bs).1 := by
  unfold unitsTry
  split
  · exact flashFailed_written _ _ _ _
  · exact unitsWrite_written _ _ _

theorem planeStart_written (nv : Nv) (v : Vol) (p : Nat) : FlashWritten nv (planeStart nv v p).1 := by
  unfold planeStart
  extract_lets v1
  split
  · exact flashErased_written _ _ _ _
  · exact (flashErase_written nv _ _).trans (unitsTry_written _ _ _ _)

theorem planeProgram_written (nv : Nv) (v : Vol) (a : Nat) (bs : List Byte) : FlashWritten nv (planeProgram nv v a bs).1 := by
  unfold planeProgram
  split
  · exact .refl nv
  · dsimp only
    split
    · exact .refl nv
    · exact unitsTry_written _ _ _ _

theorem svcManifest_written (nv : Nv) (v : Vol) (msg : List Byte) : FlashWritten nv (svcManifest nv v msg).1 := by
  have hstart (u : Vol) : FlashWritten nv (if u.lks.staged then (nv, u, true) else planeStart nv u (1 - activePlane u)).1 :=
    .ite (.refl nv) (planeStart_written _ _ _)
  fun_cases svcManifest nv v msg
  case case8 => next h => exact .of_eq h (hstart _)
  case case9 => next h => exact .of_eq h (hstart _)
  all_goals exact .refl nv

theorem svcBlock_written (nv : Nv) (v : Vol) (msg : List Byte) : FlashWritten nv (svcBlock nv v msg).1 := by
  fun_cases svcBlock nv v msg
  case case11 => next h => exact .of_eq h (planeProgram_written _ _ _ _)
  all_goals exact .refl nv

theorem svcInstall_written (nv : Nv) (v : Vol) (msg : List Byte) : FlashWritten nv (svcInstall nv v msg).1 := by
  have hblocks (p : Nat) (l : List Nat) (r : Nv × Vol × Nat) := FlashWritten.foldl (mem := fun x : Nv × Vol × Nat => x.1)
    (fun r b => if r.2.2 ≠ 0 then r else planeProgram r.1 r.2.1 (p * 0x800000 + 4096 * b) (stagingUnit v b))
    (fun r b => .ite (.refl r.1) (planeProgram_written _ _ _ _)) l r
  fun_cases svcInstall nv v msg
  case case5 => next h => exact (planeStart_written nv v _).trans (h ▸ hblocks _ _ _)
  all_goals exact .refl nv

/-! ### Activation, fallback and the identity key (R483, R505-R513) -/

theorem switchReady_written (nv : Nv) (v : Vol) : FlashWritten nv (switchReady nv v).1 := by
  unfold switchReady
  split
  · exact .refl nv
  · exact writeImageState_written _ _ _ _

theorem idSteps_written (n : Nat) (nv : Nv) (v : Vol) : FlashWritten nv (idSteps n nv v).1 := by
  induction n generalizing nv v with
  | zero => exact .refl nv
  | succ n ih =>
    unfold idSteps
    split
    · exact (switchReady_written nv v).trans (ih _ _)
    split
    · exact .refl nv
    split
    · exact .refl nv
    split
    · exact ih _ _
    split
    · exact ih _ _
    · exact .refl nv

theorem idGoes_written (nv : Nv) (v : Vol) : FlashWritten nv (idGoes nv v).1 := by
  unfold idGoes
  split
  · exact .refl nv
  · exact idSteps_written _ _ _

theorem switchStarts_written (nv : Nv) (v : Vol) (p tick : Nat) (back : Bool) : FlashWritten nv (switchStarts nv v p tick back).1 :=
  idGoes_written _ _

theorem activateGo_written (nv : Nv) (v : Vol) (tick : Nat) : FlashWritten nv (activateGo nv v tick).1 := by
  unfold activateGo
  extract_lets p
  split
  · exact writeImageState_written _ _ _ _
  · exact switchStarts_written _ _ _ _ _

theorem fallBack_written (nv : Nv) (v : Vol) : FlashWritten nv (fallBack nv v).1 := by
  unfold fallBack
  split
  · exact .refl nv
  · exact switchStarts_written _ _ _ _ _

theorem fellBack_written (nv : Nv) (v : Vol) : FlashWritten nv (fellBack nv v).1 := by
  unfold fellBack
  split
  · exact .refl nv
  · exact writeImageState_written _ _ _ _

theorem probExpires_written (nv : Nv) (v : Vol) : FlashWritten nv (probExpires nv v).1 := by
  unfold probExpires
  split
  · exact fallBack_written _ _
  · exact .refl nv

theorem svcMessage_written (nv : Nv) (v : Vol) (op : Nat) (msg : List Byte) : FlashWritten nv (svcMessage nv v op msg).1 := by
  unfold svcMessage
  extract_lets pay lc v1 staged s
  refine .ite (.refl nv) (.ite (.refl nv) (.ite (.refl nv) (.ite (.refl nv) (.ite ?begin (.ite (svcManifest_written _ _ _)
    (.ite (svcBlock_written _ _ _) (.ite (svcInstall_written _ _ _) (.ite ?verify (.ite ?activate (.ite (.refl nv) (.ite (.refl nv) ?quote)))))))))))
  case begin => exact .ite (.refl nv) (.ite (.refl nv) (.ite (.refl nv) (.ite (.refl nv) (.refl nv))))
  case verify => exact .ite (.refl nv) (.ite (.refl nv) (.refl nv))
  case activate => exact .ite (.refl nv) (.ite (.refl nv) (.ite (.refl nv) (activateGo_written _ _ _)))
  case quote => exact .ite (.refl nv) (.ite (.refl nv) (idGoes_written _ _))

end Sys2Proof.Machine
end

section
/-! PROOFS. The memories that outlast power (O3, O4, O6): burns of OTP, Locksmith's commands and its boot, and every step. -/

namespace Sys2Proof.Machine

/-- What an operation answers begins with memories that it has written as `NvWritten` says. -/
def NvAnswer {β : Type} (nv : Nv) (r : Nv × β) : Prop := NvWritten nv r.1

namespace NvAnswer
variable {β : Type} {nv m : Nv} {r r' : Nv × β}

theorem same (nv : Nv) (x : β) : NvAnswer nv (nv, x) := NvWritten.refl nv

theorem ite {c : Prop} [Decidable c] (h : NvAnswer nv r) (h' : NvAnswer nv r') : NvAnswer nv (if c then r else r') := by
  split
  · exact h
  · exact h'

/-- What else is answered with the memories does not matter. -/
theorem relabel {γ : Type} (h : NvAnswer nv r) (x : γ) : NvAnswer nv (r.1, x) := h

theorem of_eq {x : β} (e : r = (m, x)) (h : NvAnswer nv r) : NvWritten nv m := by
  rw [e] at h
  exact h

end NvAnswer

/-! ### Burns (R251, R485, R515, R528) -/

theorem otpBurn_written (nv : Nv) (off : Nat) (w : Word) : NvWritten nv (otpBurn nv off w) := ⟨otpBurn_wf nv off w, otpBurn_kept nv off w⟩

theorem burnWord_answer (nv : Nv) (v : Vol) (off : Nat) (w : Word) : NvAnswer nv (burnWord nv v off w) :=
  .ite (otpBurn_written _ _ _) (otpBurn_written _ _ _)

theorem burnWords_answer (nv : Nv) (v : Vol) (off : Nat) (ws : List Word) : NvAnswer nv (burnWords nv v off ws) := by
  induction ws generalizing nv v off with
  | nil => exact .same nv _
  | cons w rest ih =>
    have hw := burnWord_answer nv v off w
    unfold burnWords
    split
    · next h => exact (NvAnswer.of_eq h hw).trans (ih _ _ _)
    · exact hw

/-- The boot completes every torn burn. -/
theorem burnFields_answer (l : List Nat) (r : Nv × Vol) :
    NvAnswer r.1 (l.foldl (fun r f => burnField r.1 r.2 f |> fun b => (b.1, b.2.1)) r) := by
  induction l generalizing r with
  | nil => exact .same _ _
  | cons f l ih => exact NvWritten.trans (burnWords_answer r.1 r.2 _ _) (ih ((burnField r.1 r.2 f).1, (burnField r.1 r.2 f).2.1))

theorem counterStep_answer (nv : Nv) (v : Vol) (i : Nat) : NvAnswer nv (counterStep nv v i) := by
  fun_cases counterStep nv v i
  · exact .same nv _
  · exact burnWord_answer _ _ _ _

theorem counterSteps_answer (nv : Nv) (v : Vol) (i n : Nat) : NvAnswer nv (counterSteps nv v i n) := by
  induction n generalizing nv v with
  | zero => exact .same nv _
  | succ n ih =>
    have hstep := counterStep_answer nv v i
    unfold counterSteps
    split
    · next h => exact (NvAnswer.of_eq h hstep).trans (ih _ _)
    · exact hstep

theorem counterTo_answer (nv : Nv) (v : Vol) (i n : Nat) : NvAnswer nv (counterTo nv v i n) := by
  fun_cases counterTo nv v i n
  next h => exact NvAnswer.of_eq h (counterSteps_answer _ _ _ _)

theorem devWriteTry_answer (nv : Nv) (v : Vol) (key : Nat) (payload : List Byte) : NvAnswer nv (devWriteTry nv v key payload) :=
  (devWriteTry_written nv v key payload).nvWritten

/-- Unfolded as a function: applied, it would have its counters evaluated. -/
theorem confirmImage_answer (nv : Nv) (v : Vol) : NvAnswer nv (confirmImage nv v) := by
  generalize hf : confirmImage = f
  delta confirmImage at hf
  subst hf
  beta_reduce
  extract_lets p
  split
  · next h => exact NvAnswer.of_eq h (counterTo_answer _ _ _ _)
  · next hcount =>
    have hkept := NvAnswer.of_eq hcount (counterTo_answer _ _ _ _)
    split
    · next h => exact hkept.trans (NvAnswer.of_eq h (devWriteTry_answer _ _ _ _))
    · next h => exact hkept.trans (NvAnswer.of_eq h (devWriteTry_answer _ _ _ _))

/-! ### Locksmith's commands (R489, R515-R526) -/

section
variable {nv : Nv} (v : Vol) (a : Nat)

/-- A read over the bus on the way writes nothing by itself. -/
theorem lksGet_answer (n : Nat) {k : Vol → List Byte → LksRes} (h : ∀ v bs, NvAnswer nv (k v bs)) : NvAnswer nv (lksGet nv v a n k) := by
  fun_cases lksGet nv v a n k
  case case3 => exact h _ _
  all_goals exact .same nv _

theorem lksPut_answer (bs : List Byte) {k : Vol → LksRes} (h : ∀ v, NvAnswer nv (k v)) : NvAnswer nv (lksPut nv v a bs k) := by
  unfold lksPut
  extract_lets n
  split
  · exact .same nv _
  · split
    · exact .same nv _
    · exact h _
    · exact .same nv _
  · exact .same nv _

end

section
variable (nv : Nv) (v : Vol)

theorem debugAuth_answer (t : List Byte) : NvAnswer nv (debugAuth nv v t) := by
  unfold debugAuth
  exact .ite (.same nv _) (.same nv _)

theorem lksAead_answer : NvAnswer nv (lksAead nv v) := by
  unfold lksAead
  dsimp only
  split
  · exact .same nv _
  refine lksGet_answer _ _ _ fun v d => lksGet_answer _ _ _ fun v iv => lksGet_answer _ _ _ fun v aad => lksGet_answer _ _ _ fun v inp =>
    .ite (lksGet_answer _ _ _ fun v tag => ?_) (lksPut_answer _ _ _ fun v => lksPut_answer _ _ _ fun v => .same nv _)
  split
  · exact .same nv _
  · exact lksPut_answer _ _ _ fun v => .same nv _

theorem lksUkgen_answer : NvAnswer nv (lksUkgen nv v) := by
  unfold lksUkgen
  exact .ite (.same nv _) (lksPut_answer _ _ _ fun _ => .same nv _)

theorem lksUkload_answer : NvAnswer nv (lksUkload nv v) := by
  unfold lksUkload
  refine .ite (.same nv _) (lksGet_answer _ _ _ fun v b => ?_)
  split <;> exact .same nv _

theorem lksIdgen_answer : NvAnswer nv (lksIdgen nv v) := by
  fun_cases lksIdgen nv v
  · exact .same nv _
  · next h => exact NvAnswer.of_eq h (burnWords_answer _ _ _ _)
  · next h => exact NvAnswer.of_eq h (burnWords_answer _ _ _ _)

theorem lksProv_answer : NvAnswer nv (lksProv nv v) := by
  unfold lksProv
  exact .ite (lksGet_answer _ _ _ fun _ _ => devWriteTry_answer _ _ _ _)
    (.ite (lksGet_answer _ _ _ fun _ _ => devWriteTry_answer _ _ _ _) (.same nv _))

/-- A change of the life cycle burns OTP and erases config flash (R489). -/
theorem lcBurn_answer (target : Nat) : NvAnswer nv (lcBurn nv v target) := by
  have herase (m : Nv) : NvWritten m (if target = 4 then flashErase m 0x1020000 0x60000
      else if target = 5 then flashErase m 0x1000000 0x80000 else m) := by
    split_ifs
    · exact (flashErase_written _ _ _).nvWritten
    · exact (flashErase_written _ _ _).nvWritten
    · exact .refl m
  have hidentity (m : Nv) (u : Vol) : NvAnswer m (if target = 5 then burnWords m u 0x80 (List.replicate 32 0xFFFFFFFF) else (m, u, true)) :=
    .ite (burnWords_answer _ _ _ _) (.same m _)
  fun_cases lcBurn nv v target
  next hfield _ _ _ _ hid =>
    exact (NvAnswer.of_eq hfield (burnWords_answer _ _ _ _)).trans ((herase _).trans (NvAnswer.of_eq hid (hidentity _ _)))

theorem lcStep_answer : NvAnswer nv (lcStep nv v) := by
  unfold lcStep
  exact .ite (.ite (lcBurn_answer _ _ _) (.same nv _)) (.ite (lcBurn_answer _ _ _)
    (.ite (lksGet_answer _ _ _ fun _ _ => .ite (.same nv _) (lcBurn_answer _ _ _)) (.same nv _)))

theorem revokeSlot_answer (m : List Byte) : NvAnswer nv (revokeSlot nv v m) := by
  unfold revokeSlot
  exact .ite (.same nv _) (.ite (.same nv _) (.ite (.same nv _) (.ite (.same nv _) (.ite (.same nv _) (burnWord_answer _ _ _ _)))))

theorem lksRun_answer (op : Nat) : NvAnswer nv (lksRun nv v op) := by
  unfold lksRun
  refine .ite (.same nv _) (.ite (.same nv _) (.ite (.same nv _) (.ite ?activate (.ite (.same nv _) (.ite ?confirm (.ite ?reject
    (.ite ?quote (.ite ?hash (.ite ?random (.ite (lksAead_answer _ _) (.ite ?ecdh (.ite ?sign (.ite (lksUkgen_answer _ _)
    (.ite (lksUkload_answer _ _) (.ite ?incr (.ite ?dbgauth (.ite ?rootset (.ite (lksIdgen_answer _ _) (.ite (lksProv_answer _ _)
    (.ite (lcStep_answer _ _) ?revoke))))))))))))))))))))
  case activate => exact .ite (.same nv _) (activateGo_written _ _ _).nvWritten
  case confirm => exact (confirmImage_answer nv v).relabel _
  case reject => exact (fallBack_written _ _).nvWritten
  case quote => exact .ite (.same nv _) (lksGet_answer _ _ _ fun _ _ => lksPut_answer _ _ _ fun _ => .same nv _)
  case hash => exact .ite (.same nv _) (lksGet_answer _ _ _ fun _ _ => lksPut_answer _ _ _ fun _ => .same nv _)
  case random => exact .ite (.same nv _) (lksPut_answer _ _ _ fun _ => .same nv _)
  case ecdh =>
    split
    · exact .same nv _
    · exact lksGet_answer _ _ _ fun _ _ => lksPut_answer _ _ _ fun _ => .same nv _
  case sign =>
    split
    · exact .same nv _
    · exact .ite (.same nv _) (lksGet_answer _ _ _ fun _ _ => lksPut_answer _ _ _ fun _ => .same nv _)
  case incr => exact .ite (.same nv _) (.ite (.same nv _) ((counterTo_answer _ _ _ _).relabel _))
  case dbgauth => exact .ite (debugAuth_answer _ _ _) (lksGet_answer _ _ _ fun _ _ => debugAuth_answer _ _ _)
  case rootset => exact .ite (.same nv _) (.ite (.same nv _) (lksGet_answer _ _ _ fun _ _ => burnWords_answer _ _ _ _))
  case revoke => exact lksGet_answer _ _ _ fun _ _ => revokeSlot_answer _ _ _

theorem lksEnds_answer : NvAnswer nv (lksEnds nv v) := by
  fun_cases lksEnds nv v
  case case4 => next h => exact NvAnswer.of_eq h (lksRun_answer _ _ _)
  case case5 => next h => exact NvAnswer.of_eq h (lksRun_answer _ _ _)
  all_goals exact .same nv _

theorem lksDone_answer : NvAnswer nv (lksDone nv v) := NvWritten.trans (lksEnds_answer nv v) (idGoes_written _ _).nvWritten

/-! ### Locksmith's boot (R486, R490) -/

theorem bootPlane_written {m : Nv} {u : Vol} {st : Option (List Byte)} {p : Nat} (h : bootPlane nv v st p = some (m, u)) :
    NvWritten nv m := by
  have himage (c : Bool) : NvWritten nv (if c then nv else writeImageState nv p 0 p) := by
    split
    · exact .refl nv
    · exact (writeImageState_written _ _ _ _).nvWritten
  revert h
  fun_cases bootPlane nv v st p
  · exact nofun
  · intro h
    rw [← (Prod.mk.inj (Option.some.inj h)).1]
    exact himage _

/-- What Locksmith reads is given a name first: the memories rest on none of it. -/
theorem lksBoot_answer : NvAnswer nv (lksBoot nv v) := by
  unfold lksBoot
  obtain ⟨record, hrecord⟩ : ∃ r, devRecord nv 1 = r := ⟨_, rfl⟩
  obtain ⟨plane, hplane⟩ : ∃ p, bootPlane nv = p := ⟨_, rfl⟩
  obtain ⟨cycle, hcycle⟩ : ∃ n, lifeCycle nv = n := ⟨_, rfl⟩
  obtain ⟨⟨w, above⟩, hshadow⟩ : ∃ r, checkShadow nv (loadSlots nv (devCheck nv v)) = r := ⟨_, rfl⟩
  have hboot {u u' : Vol} {p : Nat} {m : Nv} (h : plane u record p = some (m, u')) : NvWritten nv m :=
    bootPlane_written nv u (st := record) (p := p) (by rw [hplane]; exact h)
  rw [hplane]
  extract_lets torn lc slots st
  rw [show lc = cycle from hcycle, show st = record from hrecord, show checkShadow nv slots = (w, above) from hshadow]
  refine .ite ?torn (.ite (.same nv _) (.ite (.same nv _) ?_))
  case torn => exact (burnFields_answer torn (nv, v)).relabel _
  split
  split
  · next h => exact hboot h
  split
  · next h => exact hboot h
  · exact .same nv _

theorem bootDone_answer : NvAnswer nv (bootDone nv v) := by
  have hboot : NvAnswer nv (bootCompletes nv v) := .ite (lksBoot_answer nv v) (.same nv v)
  exact hboot

end

/-! ### Commands and steps -/

/-- A command that is none of `writesNv` acts on the volatile part alone. -/
theorem exec_volatile (c : Instr) (s : State) (h : writesNv c = false) : ∃ v, exec c s = .next (withVol s v) := by
  cases c <;> first | exact ⟨_, rfl⟩ | cases h

/-- What a command does with the memories. -/
theorem exec_written {c : Instr} {s t : State} (h : exec c s = .next t) : NvWritten s.nv t.nv := by
  have hnext {m : Nv} {v : Vol} (hm : NvWritten s.nv m) (he : exec c s = .next { s with nv := m, vol := v }) : NvWritten s.nv t.nv := by
    rw [← Host.Outcome.next.inj (he.symm.trans h)]
    exact hm
  cases hc : writesNv c with
  | false =>
    obtain ⟨v, he⟩ := exec_volatile c s hc
    exact hnext (.refl _) he
  | true =>
    cases c <;> cases hc
    case true.flcOpDone.refl us good => exact hnext (flcDone_written _ _ _ _).nvWritten rfl
    case true.lksCommandDone.refl => exact hnext (lksDone_answer _ _) rfl
    case true.tickBoundary.refl => exact hnext (fellBack_written _ _).nvWritten rfl
    case true.probationExpiry.refl => exact hnext (probExpires_written _ _).nvWritten rfl
    case true.sealSigned.refl t => exact hnext (idGoes_written _ _).nvWritten rfl
    case true.tamper.refl => exact hnext (idGoes_written _ _).nvWritten rfl
    case true.glitch.refl => exact hnext (idGoes_written _ _).nvWritten rfl
    case true.locksmithBootComplete.refl => exact hnext (bootDone_answer _ _) rfl
    all_goals exact hnext (svcMessage_written _ _ _ _).nvWritten rfl

theorem step_written {s t : State} (h : step s = .next t) : NvWritten s.nv t.nv := by
  unfold step at h
  split at h
  · rw [← Host.Outcome.next.inj h]
    exact .refl _
  · next c rest _ => exact exec_written (s := { s with pending := rest }) h

end Sys2Proof.Machine

namespace Sys2Proof

open Sys2Proof.Machine

/-- Settles O3: every other command is an operation on the volatile part. -/
theorem nonVolatileWritersAreNamed : Obligations.NonVolatileWritersAreNamed := by
  intro c s t hc h
  obtain ⟨v, he⟩ := exec_volatile c s hc
  rw [← Host.Outcome.next.inj (he.symm.trans h)]

/-- Settles O4: every write of the memories keeps the form of each. -/
theorem nonVolatileFormIsKept : Obligations.NonVolatileFormIsKept := fun _ _ hwf h => (step_written h).wf hwf

/-- Settles O6: OTP is written by burns alone, and a burn clears no bit. -/
theorem otpBitsAreNeverCleared : Obligations.OtpBitsAreNeverCleared := fun _ _ h => (step_written h).otp

end Sys2Proof
end

section
/-! PROOFS. A region under test with a stuck cell (O33): accesses reach the shadow buffer, in which a stuck cell of the bank does not show
(R260, R262), so a word with one has no wrong bit while its region is under test. The statement counts the cell. -/

namespace Sys2Proof.Machine

/-- A part with background testing of memory 0 on, the domains up, and a stuck cell in the first word of the memory. -/
def stuckPart : State :=
  withVol State.reset { rgSet (rgSet (rgSet (rgSet State.reset.vol (ra pWhs 0x040) 1) (aCtl pWhs) 1) (ra pPwr 0x04C) 0xFFFFFFFF)
    (ra pPwr 0x050) 0xFFFFFFFF with stuck := [0x10000000] }

/-- The cell shows before the test, and not under it. -/
theorem stuckPart_wrongBits : wrongBits stuckPart.vol 0x10000000 = 1 ∧ wrongBits (whsRegionStart stuckPart.vol) 0x10000000 = 0 := by
  decide +kernel

/-- No word of the region has three wrong bits. -/
theorem stuckPart_wrongBits_le (i : Nat) : wrongBits stuckPart.vol (0x10000000 + 4 * i) ≤ 2 := by
  have herr (a : Nat) : smapGet noErr stuckPart.vol.sramErr a = 0 := rfl
  rw [wrongBits, herr]
  cases (stuckPart.vol.stuck.contains (0x10000000 + 4 * i) && !shadowed stuckPart.vol (0x10000000 + 4 * i)) <;> decide

end Sys2Proof.Machine

namespace Sys2Proof

open Sys2Proof.Machine

/-- Refutes O33: the first word of the region, with a stuck cell, would have one wrong bit under test; it has none. -/
theorem not_whetstoneActs : ¬ Obligations.WhetstoneActs := by
  intro h
  obtain ⟨hstart, -⟩ := h.1 stuckPart rfl
  obtain ⟨t, hexec, -, -, -, -, -, hregion, -⟩ := hstart 0x10000000 (by decide +kernel) (by decide +kernel) rfl (by decide +kernel)
    (by decide +kernel) fun i _ => stuckPart_wrongBits_le i
  have ht : t.vol = whsRegionStart stuckPart.vol := by rw [← Host.Outcome.next.inj hexec]
  have hfirst := hregion 0 (by decide)
  rw [ht, Nat.mul_zero, Nat.add_zero, stuckPart_wrongBits.2, stuckPart_wrongBits.1] at hfirst
  exact absurd hfirst (by decide)

end Sys2Proof
end

section
/-! SUPPORT. The commands of the flash controller (R243-R245, R268, R269). -/

namespace Sys2Proof.Machine

/-! ### A command is written -/

/-- FLC_CMD holds a command of three bits, of which the codes from 5 are reserved. -/
theorem specAt_flcCmd : ∃ sp, specAt pFlc 0x040 = some sp ∧ sp.rw = 7 ∧ sp.w1c = 0 ∧ sp.rwo = 0 ∧ sp.chk = [⟨2, 0, .atLeast 5⟩] := by
  have key : (specAt pFlc 0x040).map (fun sp => (sp.rw, sp.w1c, sp.rwo, sp.chk)) = some (7, 0, 0, [⟨2, 0, .atLeast 5⟩]) := by decide +kernel
  obtain ⟨sp, hsp, hmask⟩ := Option.map_eq_some_iff.mp key
  simp only [Prod.mk.injEq] at hmask
  exact ⟨sp, hsp, hmask⟩

theorem fld_merged (old w : Word) : fld ((old &&& ~~~BitVec.ofNat 32 7) ||| (w &&& BitVec.ofNat 32 7)) 2 0 = fld w 2 0 := by
  refine fld_congr fun i hi => ?_
  simp only [bit]
  interval_cases i <;> simp

theorem fld_putFld_zero (w : Word) : fld (putFld w 2 0 0) 2 0 = 0 := by
  rw [show fld (putFld w 2 0 0) 2 0 = fld 0 2 0 from fld_congr fun i hi => by
    simp only [bit, putFld]
    interval_cases i <;> simp]
  rfl

/-- A field whose code is not reserved is taken. -/
theorem rejectFields_kept (old : Word) {c : Chk} {x : Word} (h : badCode c.bad (fld x c.hi c.lo) = false) : rejectFields old [c] x = (x, 0) :=
  if_neg (by rw [h]; decide)

/-- A command's code is taken into its field. -/
theorem regWrite_flcCmd (v : Vol) {op : Nat} (hop : op < 5) :
    ∃ w, regWrite v pFlc 0x040 .direct (BitVec.ofNat 32 op) = rgSet v (ra pFlc 0x040) w ∧ fld w 2 0 = op := by
  obtain ⟨sp, hsp, hrw, hw1c, hrwo, hchk⟩ := specAt_flcCmd
  obtain ⟨x, hx⟩ : ∃ x, (rg v (ra pFlc 0x040) &&& ~~~BitVec.ofNat 32 7) ||| (BitVec.ofNat 32 op &&& BitVec.ofNat 32 7) = x := ⟨_, rfl⟩
  have hfield : fld x 2 0 = op := by
    rw [← hx, fld_merged]
    simp only [fld, BitVec.toNat_ofNat]
    omega
  have hgood : badCode (.atLeast 5) (fld x 2 0) = false := by rw [hfield]; exact decide_eq_false (by omega)
  have hmask (used : Word) : BitVec.ofNat 32 7 ||| (BitVec.ofNat 32 0 &&& ~~~used) = BitVec.ofNat 32 7 := by simp
  have hvalue (used : Word) : writeValue sp .direct (rg v (ra pFlc 0x040)) used (BitVec.ofNat 32 op) = (x, 0, 0) := by
    simp only [writeValue, hrw, hw1c, hrwo, hchk, hmask, hx,
      rejectFields_kept (rg v (ra pFlc 0x040)) (c := ⟨2, 0, .atLeast 5⟩) hgood]
    rw [show BitVec.ofNat 32 op &&& BitVec.ofNat 32 0 = 0 from BitVec.and_zero, show (~~~(0 : Word)) = BitVec.allOnes 32 from rfl, BitVec.and_allOnes]
    simp
  exact ⟨x, by simp [regWrite, hsp, hvalue], hfield⟩

/-- A command written to the open page: while one runs FAULT.BUSY is set and FLC_CMD stays, else the command starts. -/
theorem wr_flcCmd (s : State) (m : Fin 16) {op : Nat} (h1 : 1 ≤ op) (h5 : op < 5) (ho : pageOpen s.vol m pFlc = true) :
    ∃ w, fld w 2 0 = op ∧ (.next { s with vol := wr s.nv s.vol m (ra pFlc 0x040) (BitVec.ofNat 32 op) } : Out)
      = .next (performed s m (ra pFlc 0x040) (BitVec.ofNat 32 op)
        (if s.vol.flc.op ≠ 0 then setFault (rgSet (rgSet s.vol (ra pFlc 0x040) w) (ra pFlc 0x040) (rg s.vol (ra pFlc 0x040))) pFlc 3
          else flcStart s.nv (rgSet s.vol (ra pFlc 0x040) w) op)) := by
  obtain ⟨inf, hp⟩ := pageOpen_info ho
  have hblk : inf.blk = .flc := blk_of_page hp (by decide +kernel)
  obtain ⟨w, hw, hfld⟩ := regWrite_flcCmd s.vol h5
  have hcode : (fld (BitVec.ofNat 32 op) 2 0 ≠ 0 && Via.direct != .clearBits) = true := by
    have hne : fld (BitVec.ofNat 32 op) 2 0 ≠ 0 := by simp only [fld, BitVec.toNat_ofNat]; omega
    simp [hne]
  have hop : rf (rgSet s.vol (ra pFlc 0x040) w) (ra pFlc 0x040) 2 0 = op := by rw [rf, rg_rgSet_same, hfld]
  refine ⟨w, hfld, ?_⟩
  rw [wr_open s.nv s.vol m pFlc 0x040 _ inf hp ho (by decide) (by decide),
    pageWrite_block s.nv s.vol inf m pFlc 0x040 .direct _ (stageChan_ra_none (by decide) (by decide)) (by decide +kernel)
      (by decide) (fun h => absurd h (by decide)) (fun h => absurd h (by decide)), blockWrite, hblk]
  dsimp only [flcWrite, TWord.ofWord]
  rw [if_neg (by decide), hw, hop, if_pos hcode, if_pos (by omega : op ≠ 0)]
  rfl

/-! ### A command starts -/

/-- What refuses a command does not rest on FLC_CMD. -/
theorem flcRefusal_rgSet (nv : Nv) (v : Vol) (w : Word) (op a : Nat) :
    flcRefusal nv (rgSet v (ra pFlc 0x040) w) op a = flcRefusal nv v op a := by
  have hrb {b : Nat} (hb : b ≠ ra pFlc 0x040) (i : Nat) : rb (rgSet v (ra pFlc 0x040) w) b i = rb v b i := by
    rw [rb, rg_rgSet_ne _ _ hb, ← rb]
  rw [flcRefusal, activePlane, hrb (b := aStat pFlc) (by decide), hrb (b := ra pLks 0x05C) (by decide)]
  rfl

theorem rg_planeUnverify_ne (v : Vol) (p : Nat) {b : Nat} (h : b ≠ aStat pFlc) : rg (planeUnverify v p) b = rg v b :=
  rg_rbSet_ne v p false h

theorem planeUnverify_clears (v : Vol) {p : Nat} (hp : p < 32) : rb (planeUnverify v p) (aStat pFlc) p = false := by
  show rb (rbSet v (aStat pFlc) p false) (aStat pFlc) p = false
  rw [rb_rbSet_false v (aStat pFlc) p hp, decide_eq_true rfl, Bool.not_true, Bool.and_false]

theorem planeUnverify_sram (v : Vol) (p : Nat) : (planeUnverify v p).sram = v.sram := rfl
theorem planeUnverify_cores (v : Vol) (p : Nat) : (planeUnverify v p).cores = v.cores := rfl

/-- Command op is taken for address a: its target and its line of the buffer. -/
structure FlcTaken (v : Vol) (op a : Nat) (t : Vol) : Prop where
  code : t.flc.op = op
  addr : t.flc.addr = a
  busy : rb t (aStat pFlc) 29 = true
  line : op = 1 → ∀ j, j < (flcSpan op a).2 / 4 → t.flc.buf.getD j 0 = rg v (ra pFlc (0x100 + 4 * j))
  unverified : op ≠ 4 → a < 0x1000000 → rb t (aStat pFlc) (a / 0x800000) = false
  sram : t.sram = v.sram
  cores : t.cores = v.cores
  regs : ∀ b, b ≠ aStat pFlc → rg t b = rg v b

/-- The plane that a command erases or programs is unverified. -/
def flcTouched (v : Vol) (op a : Nat) : Vol := if op ≠ 4 ∧ a < 0x1000000 then planeUnverify v (a / 0x800000) else v

theorem flcTouched_rest (v : Vol) (op a : Nat) :
    (flcTouched v op a).flc = v.flc ∧ (flcTouched v op a).sram = v.sram ∧ (flcTouched v op a).cores = v.cores := by
  unfold flcTouched
  split
  · exact ⟨rfl, rfl, rfl⟩
  · exact ⟨rfl, rfl, rfl⟩

theorem rg_flcTouched_ne (v : Vol) (op a : Nat) {b : Nat} (h : b ≠ aStat pFlc) : rg (flcTouched v op a) b = rg v b := by
  unfold flcTouched
  split
  · exact rg_planeUnverify_ne v _ h
  · rfl

theorem flcTouched_clears (v : Vol) {op a : Nat} (hop : op ≠ 4) (ha : a < 0x1000000) :
    rb (flcTouched v op a) (aStat pFlc) (a / 0x800000) = false := by
  rw [flcTouched, if_pos ⟨hop, ha⟩]
  exact planeUnverify_clears v (by omega)

theorem flcStart_eq {nv : Nv} {v : Vol} {op a : Nat} (ha : (rg v (ra pFlc 0x044)).toNat = a) : flcStart nv v op =
    match flcRefusal nv v op a with
    | some f => raiseEvent (rfSet (setFault v pFlc f) (ra pFlc 0x040) 2 0 0) pFlc 1
    | none => rgOr (flcTouched { v with flc := ⟨op, a, if op = 1 then
        (List.range ((flcSpan op a).2 / 4)).map fun i => rg v (ra pFlc (0x100 + 4 * i)) else []⟩ } op a) (aStat pFlc) (bitWord 29) := by
  subst ha
  rfl

theorem flcStart_taken {nv : Nv} {v : Vol} {op a : Nat} (ha : (rg v (ra pFlc 0x044)).toNat = a) (h : flcRefusal nv v op a = none) :
    FlcTaken v op a (flcStart nv v op) := by
  rw [flcStart_eq ha, h]
  obtain ⟨taken, htaken⟩ : ∃ taken : Vol, { v with flc := ⟨op, a, if op = 1 then
    (List.range ((flcSpan op a).2 / 4)).map fun i => rg v (ra pFlc (0x100 + 4 * i)) else []⟩ } = taken := ⟨_, rfl⟩
  rw [htaken]
  obtain ⟨hflc, hsram, hcores⟩ := flcTouched_rest taken op a
  exact
    { code := by show (flcTouched taken op a).flc.op = op; rw [hflc, ← htaken]
      addr := by show (flcTouched taken op a).flc.addr = a; rw [hflc, ← htaken]
      busy := by rw [rb_rgOr, bit_bitWord]; simp
      line := fun hop j hj => by
        show (flcTouched taken op a).flc.buf.getD j 0 = _
        rw [hflc, ← htaken]
        dsimp only
        rw [if_pos hop, List.getD_eq_getElem?_getD, List.getElem?_map, List.getElem?_range hj]
        rfl
      unverified := fun hop ha => by
        rw [rb_rgOr, flcTouched_clears taken hop ha, bit_bitWord, decide_eq_false (by omega : ¬ 29 = a / 0x800000), Bool.and_false]
        rfl
      sram := by show (flcTouched taken op a).sram = v.sram; rw [hsram, ← htaken]
      cores := by show (flcTouched taken op a).cores = v.cores; rw [hcores, ← htaken]
      regs := fun b hb => by rw [rg_rgOr_ne _ _ hb, rg_flcTouched_ne _ _ _ hb, ← htaken]; rfl }

/-- A refused command sets its FAULT bit, raises event 1 and leaves FLC_CMD at 0. -/
structure FlcRefused (v : Vol) (f : Nat) (t : Vol) : Prop where
  flc : t.flc = v.flc
  fault : rb t (aFault pFlc) f = true
  cmd : rf t (ra pFlc 0x040) 2 0 = 0
  event : rb v (aEvEn pFlc) 1 = true → rb t (aEvPend pFlc) 1 = true
  sram : t.sram = v.sram
  cores : t.cores = v.cores

theorem flcRefusal_lt {nv : Nv} {v : Vol} {op a f : Nat} (h : flcRefusal nv v op a = some f) : f < 3 := by
  unfold flcRefusal at h
  split_ifs at h <;> cases h <;> decide

theorem flcStart_refused {nv : Nv} {v : Vol} {op a f : Nat} (ha : (rg v (ra pFlc 0x044)).toNat = a) (h : flcRefusal nv v op a = some f) :
    FlcRefused v f (flcStart nv v op) := by
  have hf := flcRefusal_lt h
  rw [flcStart_eq ha, h]
  exact
    { flc := raiseEvent_flc _ _ _
      fault := by
        rw [rb, rg_raiseEvent_ne _ _ _ (by decide), rfSet, rg_rgSet_ne _ _ (by decide), ← rb]
        exact rb_setFault_same v pFlc (by omega)
      cmd := by rw [rf, rg_raiseEvent_ne _ _ _ (by decide), rfSet, rg_rgSet_same, fld_putFld_zero]
      event := fun hen => rb_raiseEvent_same _ _ (by decide) (by
        rw [rb, rfSet, rg_rgSet_ne _ _ (by decide), rg_setFault, if_neg (by decide), ← rb]
        exact hen)
      sram := raiseEvent_sram _ _ _
      cores := raiseEvent_cores _ _ _ }

/-! ### What a command leaves in the flash -/

theorem smapGet_flashPut_ne {ws : List Word} {nv : Nv} {a b : Nat} (h : ∀ j, j < ws.length → b ≠ a + 4 * j) :
    smapGet flashBlank (flashPut nv a ws).flash b = smapGet flashBlank nv.flash b := by
  induction ws generalizing nv a with
  | nil => rfl
  | cons w ws ih =>
    have htail (j : Nat) (hj : j < ws.length) : b ≠ a + 4 + 4 * j := by
      have := h (j + 1) (Nat.succ_lt_succ hj)
      omega
    rw [flashPut, ih htail]
    exact smapGet_set_ne _ _ _ _ (h 0 (Nat.succ_pos _))

theorem smapGet_flashPut_at {ws : List Word} {nv : Nv} {a j : Nat} (h : j < ws.length) :
    smapGet flashBlank (flashPut nv a ws).flash (a + 4 * j) = ws.getD j 0 := by
  induction ws generalizing nv a j with
  | nil => exact absurd h (Nat.not_lt_zero j)
  | cons w ws ih =>
    cases j with
    | zero =>
      rw [flashPut, smapGet_flashPut_ne fun j _ => by omega]
      exact smapGet_set_same _ _ _ _
    | succ j =>
      rw [flashPut, show a + 4 * (j + 1) = a + 4 + 4 * j by omega, ih (Nat.lt_of_succ_lt_succ h), List.getD_cons_succ]

theorem unitsPut_flash (nv : Nv) (a n : Nat) (e : Nat → Nat) : (unitsPut nv a n e).flash = nv.flash := by
  unfold unitsPut
  induction List.range (n / 16) generalizing nv with
  | nil => rfl
  | cons i l ih => rw [List.foldl_cons, ih]

theorem smapGet_unitsPut (nv : Nv) (a n : Nat) (e : Nat → Nat) {u : Nat} (hu : u < n / 16) :
    smapGet noErr (unitsPut nv a n e).unitErr (a + 16 * u) = e u := by
  unfold unitsPut
  generalize n / 16 = k at hu
  induction k with
  | zero => exact absurd hu (Nat.not_lt_zero u)
  | succ k ih =>
    rw [List.range_succ, List.foldl_append, List.foldl_cons, List.foldl_nil]
    by_cases h : u = k
    · subst h
      exact smapGet_set_same _ _ _ _
    · exact (smapGet_set_ne _ _ _ _ (by omega)).trans (ih (by omega))

theorem smapGet_flashErase (nv : Nv) (a n b : Nat) : smapGet flashBlank (flashErase nv a n).flash b
    = if a ≤ b ∧ b < a + n then 0xFFFFFFFF else smapGet flashBlank nv.flash b := by
  rw [flashErase, smapGet_keep]
  by_cases h : a ≤ b ∧ b < a + n
  · simp [h, flashBlank]
  · simp only [← Bool.decide_and, h, decide_false, Bool.not_false, if_true, if_false]

/-! ### A command ends -/

/-- The controller with its command ended after us microseconds (R245, R269). -/
def flcEnded (v : Vol) (us : Nat) : Vol :=
  rgSet { rgClr (rfSet v (ra pFlc 0x040) 2 0 0) (aStat pFlc) (bitWord 29) with flc := Flc.reset } (ra pFlc 0x048) (BitVec.ofNat 32 us)

theorem flcDone_eq {nv : Nv} {v : Vol} {us : Nat} {good : Bool} (h : v.flc.op ≠ 0) :
    flcDone nv v us good =
      (if v.flc.op = 1 then
        if good then
          (unitsPut (flashPut nv (flcSpan v.flc.op v.flc.addr).1 (v.flc.buf.take ((flcSpan v.flc.op v.flc.addr).2 / 4)))
            (flcSpan v.flc.op v.flc.addr).1 (flcSpan v.flc.op v.flc.addr).2 fun _ => 0, raiseEvent (flcEnded v us) pFlc 0)
        else
          (flashFailed nv (flcSpan v.flc.op v.flc.addr).1 (flcSpan v.flc.op v.flc.addr).2 v.free,
            raiseEvent (setFault { flcEnded v us with free := v.free + 32 } pFlc 4) pFlc 1)
      else if v.flc.op = 4 then
        (nv, if flashIsBlank nv (flcSpan v.flc.op v.flc.addr).1 (flcSpan v.flc.op v.flc.addr).2 then raiseEvent (flcEnded v us) pFlc 0
          else raiseEvent (setFault (flcEnded v us) pFlc 1) pFlc 1)
      else (flashErase nv (flcSpan v.flc.op v.flc.addr).1 (flcSpan v.flc.op v.flc.addr).2, raiseEvent (flcEnded v us) pFlc 0)) := by
  unfold flcDone
  rw [if_neg h]
  rfl

/-- The idle controller that shows the length of its last command, with the memories and the enables of v. -/
structure FlcIdle (v : Vol) (us : BitVec 20) (t : Vol) : Prop where
  flc : t.flc = Flc.reset
  busy : rb t (aStat pFlc) 29 = false
  time : rg t (ra pFlc 0x048) = us.setWidth 32
  sram : t.sram = v.sram
  cores : t.cores = v.cores
  enables : rg t (aEvEn pFlc) = rg v (aEvEn pFlc)

theorem flcEnded_idle (v : Vol) (us : BitVec 20) : FlcIdle v us (flcEnded v us.toNat) where
  flc := rfl
  busy := by
    rw [flcEnded, rb, rg_rgSet_ne _ _ (by decide)]
    show rb (rgClr _ (aStat pFlc) (bitWord 29)) (aStat pFlc) 29 = false
    rw [rb_rgClr _ _ _ (by decide), bit_bitWord]
    simp
  time := by rw [flcEnded, rg_rgSet_same, BitVec.ofNat_toNat]
  sram := rfl
  cores := rfl
  enables := by
    rw [flcEnded, rg_rgSet_ne _ _ (by decide)]
    show rg (rgClr _ (aStat pFlc) (bitWord 29)) (aEvEn pFlc) = _
    rw [rg_rgClr_ne _ _ (by decide), rfSet, rg_rgSet_ne _ _ (by decide)]

namespace FlcIdle

variable {v t : Vol} {us : BitVec 20}

theorem setFault (h : FlcIdle v us t) (i : Nat) : FlcIdle v us (setFault t pFlc i) where
  flc := h.flc
  busy := by rw [rb, rg_setFault, if_neg (by decide), ← rb, h.busy]
  time := by rw [rg_setFault, if_neg (by decide), h.time]
  sram := h.sram
  cores := h.cores
  enables := by rw [rg_setFault, if_neg (by decide), h.enables]

theorem raiseEvent (h : FlcIdle v us t) (i : Nat) : FlcIdle v us (raiseEvent t pFlc i) where
  flc := (raiseEvent_flc _ _ _).trans h.flc
  busy := by rw [rb, rg_raiseEvent_ne _ _ _ (by decide), ← rb, h.busy]
  time := by rw [rg_raiseEvent_ne _ _ _ (by decide), h.time]
  sram := (raiseEvent_sram _ _ _).trans h.sram
  cores := (raiseEvent_cores _ _ _).trans h.cores
  enables := by rw [rg_raiseEvent_ne _ _ _ (by decide), h.enables]

theorem free (h : FlcIdle v us t) (n : Nat) : FlcIdle v us { t with free := n } := ⟨h.flc, h.busy, h.time, h.sram, h.cores, h.enables⟩

/-- An enabled event of the idle controller is pending once raised. -/
theorem pending (h : FlcIdle v us t) {i : Nat} (hi : i < 32) (hen : rb v (aEvEn pFlc) i = true) :
    rb (Machine.raiseEvent t pFlc i) (aEvPend pFlc) i = true :=
  rb_raiseEvent_same t pFlc hi (by rw [rb, h.enables, ← rb, hen])

/-- A fault of the idle controller stays beside the event that tells it. -/
theorem faulted (t : Vol) {i : Nat} (hi : i < 32) (n : Nat) : rb (Machine.raiseEvent (Machine.setFault t pFlc i) pFlc n) (aFault pFlc) i = true := by
  rw [rb, rg_raiseEvent_ne _ _ _ (by decide), ← rb]
  exact rb_setFault_same t pFlc hi

end FlcIdle

section
variable {nv : Nv} {v : Vol} {us : BitVec 20} {good : Bool}

theorem flcDone_idle (h : v.flc.op ≠ 0) : FlcIdle v us (flcDone nv v us.toNat good).2 := by
  have hended := flcEnded_idle v us
  rw [flcDone_eq h]
  split
  · split
    · exact hended.raiseEvent 0
    · exact ((hended.free (v.free + 32)).setFault 4).raiseEvent 1
  split
  · dsimp only
    split
    · exact hended.raiseEvent 0
    · exact (hended.setFault 1).raiseEvent 1
  · exact hended.raiseEvent 0

/-- Words put into a span leave the flash outside it. -/
theorem smapGet_flashPut_outside {ws : List Word} {nv : Nv} {a n b : Nat} (hn : 4 * ws.length ≤ n) (hb : b < a ∨ a + n ≤ b) :
    smapGet flashBlank (flashPut nv a ws).flash b = smapGet flashBlank nv.flash b :=
  smapGet_flashPut_ne fun j hj => by omega

theorem flcDone_outside (h : v.flc.op ≠ 0) {b : Nat}
    (hb : b < (flcSpan v.flc.op v.flc.addr).1 ∨ (flcSpan v.flc.op v.flc.addr).1 + (flcSpan v.flc.op v.flc.addr).2 ≤ b) :
    smapGet flashBlank (flcDone nv v us.toNat good).1.flash b = smapGet flashBlank nv.flash b := by
  rw [flcDone_eq h]
  split
  · split
    · rw [unitsPut_flash]
      refine smapGet_flashPut_outside ?_ hb
      have := List.length_take_le ((flcSpan v.flc.op v.flc.addr).2 / 4) v.flc.buf
      omega
    · rw [flashFailed, unitsPut_flash]
      refine smapGet_flashPut_outside ?_ hb
      rw [List.length_map, List.length_range]
      omega
  split
  · rfl
  · rw [smapGet_flashErase, if_neg (by omega)]

theorem flcDone_programmed (h : v.flc.op = 1) {j : Nat} (hj : j < (flcSpan 1 v.flc.addr).2 / 4) (hlen : j < v.flc.buf.length) :
    smapGet flashBlank (flcDone nv v us.toNat true).1.flash ((flcSpan 1 v.flc.addr).1 + 4 * j) = v.flc.buf.getD j 0 := by
  rw [flcDone_eq (by omega), if_pos h, if_pos rfl, unitsPut_flash, h, smapGet_flashPut_at (by rw [List.length_take]; omega),
    List.getD_eq_getElem?_getD, List.getElem?_take_of_lt hj, List.getD_eq_getElem?_getD]

theorem flcDone_sound (h : v.flc.op = 1) {u : Nat} (hu : u < (flcSpan 1 v.flc.addr).2 / 16) :
    smapGet noErr (flcDone nv v us.toNat true).1.unitErr ((flcSpan 1 v.flc.addr).1 + 16 * u) = 0 := by
  rw [flcDone_eq (by omega), if_pos h, if_pos rfl, h, smapGet_unitsPut _ _ _ _ hu]

/-- A program whose read-back disagrees sets FAULT.VERIFY and raises event 1. -/
theorem flcDone_failed (h : v.flc.op = 1) : rb (flcDone nv v us.toNat false).2 (aFault pFlc) 4 = true
    ∧ (rb v (aEvEn pFlc) 1 = true → rb (flcDone nv v us.toNat false).2 (aEvPend pFlc) 1 = true) := by
  rw [flcDone_eq (by omega), if_pos h, if_neg Bool.false_ne_true]
  exact ⟨FlcIdle.faulted _ (by decide) 1, (((flcEnded_idle v us).free (v.free + 32)).setFault 4).pending (by decide)⟩

theorem flcDone_erased (h : v.flc.op = 2 ∨ v.flc.op = 3) {b : Nat} (h1 : (flcSpan v.flc.op v.flc.addr).1 ≤ b)
    (h2 : b < (flcSpan v.flc.op v.flc.addr).1 + (flcSpan v.flc.op v.flc.addr).2) :
    smapGet flashBlank (flcDone nv v us.toNat good).1.flash b = 0xFFFFFFFF := by
  rw [flcDone_eq (by omega), if_neg (by omega), if_neg (by omega), smapGet_flashErase, if_pos ⟨h1, h2⟩]

/-- A blank check changes no memory; bytes that are not erased set FAULT.BLANK. -/
theorem flcDone_checked (h : v.flc.op = 4) : (flcDone nv v us.toNat good).1 = nv
    ∧ (flashIsBlank nv (flcSpan 4 v.flc.addr).1 (flcSpan 4 v.flc.addr).2 = false → rb (flcDone nv v us.toNat good).2 (aFault pFlc) 1 = true) := by
  rw [flcDone_eq (by omega), if_neg (by omega), if_pos h, h]
  refine ⟨rfl, fun hblank => ?_⟩
  rw [hblank]
  exact FlcIdle.faulted _ (by decide) 1

/-- Every end but a failed one raises event 0. -/
theorem flcDone_done (h : (v.flc.op = 1 ∧ good = true) ∨ v.flc.op = 2 ∨ v.flc.op = 3
      ∨ (v.flc.op = 4 ∧ flashIsBlank nv (flcSpan v.flc.op v.flc.addr).1 (flcSpan v.flc.op v.flc.addr).2 = true))
    (hen : rb v (aEvEn pFlc) 0 = true) : rb (flcDone nv v us.toNat good).2 (aEvPend pFlc) 0 = true := by
  have hpend := (flcEnded_idle v us).pending (i := 0) (by decide) hen
  rcases h with ⟨hop, rfl⟩ | hop | hop | ⟨hop, hblank⟩
  · rwa [flcDone_eq (by omega), if_pos hop, if_pos rfl]
  · rwa [flcDone_eq (by omega), if_neg (by omega), if_neg (by omega)]
  · rwa [flcDone_eq (by omega), if_neg (by omega), if_neg (by omega)]
  · rwa [flcDone_eq (by omega), if_neg (by omega), if_pos hop, if_pos hblank]

end

end Sys2Proof.Machine

namespace Sys2Proof

open Sys2Proof.Machine

/-- A command written to FLC_CMD (R243, R244, R268). -/
theorem flcCommand_acts (s : State) (m : Fin 16) {i : Instr} {op : Nat} (h1 : 1 ≤ op) (h5 : op < 5) (ho : pageOpen s.vol m pFlc = true)
    (hexec : exec i s = .next { s with vol := wr s.nv s.vol m (ra pFlc 0x040) (BitVec.ofNat 32 op) }) :
    let a := (rg s.vol (ra pFlc 0x044)).toNat
    (s.vol.flc.op = 0 → flcRefusal s.nv s.vol op a = none →
      ∃ v, exec i s = .next (performed s m (ra pFlc 0x040) (BitVec.ofNat 32 op) v)
        ∧ v.flc.op = op ∧ v.flc.addr = a ∧ rf v (ra pFlc 0x040) 2 0 = op ∧ rb v (aStat pFlc) 29 = true
        ∧ (op = 1 → ∀ j, j < (flcSpan op a).2 / 4 → v.flc.buf.getD j 0 = rg s.vol (ra pFlc (0x100 + 4 * j)))
        ∧ (op ≠ 4 → a < 0x1000000 → rb v (aStat pFlc) (a / 0x800000) = false)
        ∧ v.sram = s.vol.sram ∧ v.cores = s.vol.cores ∧ ∀ p off, p ≠ pFlc → off < 0x400 → rg v (ra p off) = rg s.vol (ra p off))
    ∧ (s.vol.flc.op = 0 → ∀ f, flcRefusal s.nv s.vol op a = some f →
      ∃ v, exec i s = .next (performed s m (ra pFlc 0x040) (BitVec.ofNat 32 op) v) ∧ v.flc = s.vol.flc
        ∧ rb v (aFault pFlc) f = true ∧ rf v (ra pFlc 0x040) 2 0 = 0
        ∧ (rb s.vol (aEvEn pFlc) 1 = true → rb v (aEvPend pFlc) 1 = true) ∧ v.sram = s.vol.sram ∧ v.cores = s.vol.cores)
    ∧ (s.vol.flc.op ≠ 0 →
      ∃ v, exec i s = .next (performed s m (ra pFlc 0x040) (BitVec.ofNat 32 op) v) ∧ v.flc = s.vol.flc
        ∧ rb v (aFault pFlc) 3 = true ∧ v.sram = s.vol.sram ∧ v.cores = s.vol.cores) := by
  intro a
  obtain ⟨w, hfld, hnext⟩ := wr_flcCmd s m h1 h5 ho
  have hkeep {b : Nat} (hb : b ≠ ra pFlc 0x040) : rg (rgSet s.vol (ra pFlc 0x040) w) b = rg s.vol b := rg_rgSet_ne _ _ hb
  have ha : (rg (rgSet s.vol (ra pFlc 0x040) w) (ra pFlc 0x044)).toNat = a := by rw [hkeep (by decide)]
  refine ⟨fun hidle hnone => ?_, fun hidle f hsome => ?_, fun hbusy => ?_⟩
  · rw [if_neg (not_not.mpr hidle)] at hnext
    have ht := flcStart_taken ha ((flcRefusal_rgSet _ _ _ _ _).trans hnone)
    refine ⟨_, hexec.trans hnext, ht.code, ht.addr, ?_, ht.busy, fun hop j hj => ?_, ht.unverified, ht.sram, ht.cores, fun p off hp hoff => ?_⟩
    · rw [rf, ht.regs _ (by decide), rg_rgSet_same, hfld]
    · rw [ht.line hop j hj, hkeep (by simp only [ra]; omega)]
    · rw [ht.regs _ (by simp only [aStat, ra]; omega), hkeep (by simp only [ra]; omega)]
  · rw [if_neg (not_not.mpr hidle)] at hnext
    have ht := flcStart_refused ha ((flcRefusal_rgSet _ _ _ _ _).trans hsome)
    refine ⟨_, hexec.trans hnext, ht.flc, ht.fault, ht.cmd, fun hen => ht.event ?_, ht.sram, ht.cores⟩
    rw [rb, hkeep (by decide)]
    exact hen
  · rw [if_pos hbusy] at hnext
    exact ⟨_, hexec.trans hnext, rfl, rb_setFault_same _ _ (by decide), rfl, rfl⟩

/-- Settles O32: a command by `flcCommand_acts`, its end by the cases of `flcDone_eq`. -/
theorem flashCommandsAct : Obligations.FlashCommandsAct := by
  refine ⟨fun s m i op hi ho => ?_, fun s us good => ⟨fun hop => ?_, fun h1 _ _ => ?_⟩⟩
  · simp only [List.mem_cons, Prod.mk.injEq, List.not_mem_nil, or_false] at hi
    rcases hi with ⟨rfl, rfl⟩ | ⟨rfl, rfl⟩ | ⟨rfl, rfl⟩ | ⟨rfl, rfl⟩
    · exact flcCommand_acts s m (by decide) (by decide) ho rfl
    · exact flcCommand_acts s m (by decide) (by decide) ho rfl
    · exact flcCommand_acts s m (by decide) (by decide) ho rfl
    · exact flcCommand_acts s m (by decide) (by decide) ho rfl
  · show (.next { s with nv := (flcDone s.nv s.vol us.toNat good).1, vol := (flcDone s.nv s.vol us.toNat good).2 } : Out) = .next s
    rw [flcDone, if_pos hop]
  · have hrun : s.vol.flc.op ≠ 0 := by omega
    have hidle : FlcIdle s.vol us (flcDone s.nv s.vol us.toNat good).2 := flcDone_idle hrun
    refine ⟨_, rfl, hidle.flc, hidle.busy, hidle.time, (flcDone_written s.nv s.vol us.toNat good).otp, hidle.sram, hidle.cores,
      fun b hb => flcDone_outside hrun hb, fun hop hgood j hj hlen => ?_, fun hop hgood u hu => ?_, fun hop hgood => ?_,
      fun hop b hb1 hb2 => flcDone_erased hop hb1 hb2, fun hop => ?_, fun h hen => flcDone_done h hen⟩
    · subst hgood
      rw [hop] at hj ⊢
      exact flcDone_programmed hop hj hlen
    · subst hgood
      rw [hop] at hu ⊢
      exact flcDone_sound hop hu
    · subst hgood
      exact flcDone_failed hop
    · rw [hop]
      exact flcDone_checked hop

end Sys2Proof
end

section
/-! SUPPORT. What Ledger's seals, the identity-key operations and the programs of a plane leave unchanged (R243, R462-R468, R483, R506). -/

namespace Sys2Proof.Machine

/-! ### Ledger and the switch -/

/-- The SRAM, the hold of Ledger's ring and the switch that waits stay as they are. -/
structure SwitchKept (v v' : Vol) : Prop where
  sram : v'.sram = v.sram
  held : v'.ldg.held = v.ldg.held
  fallback : v'.lks.fallback = v.lks.fallback
  switchTo : v'.lks.switchTo = v.lks.switchTo
  switchHold : v'.lks.switchHold = v.lks.switchHold

namespace SwitchKept

variable {v v' v'' : Vol}

theorem refl (v : Vol) : SwitchKept v v := ⟨rfl, rfl, rfl, rfl, rfl⟩

theorem trans (h : SwitchKept v v') (h' : SwitchKept v' v'') : SwitchKept v v'' :=
  ⟨h'.sram.trans h.sram, h'.held.trans h.held, h'.fallback.trans h.fallback, h'.switchTo.trans h.switchTo, h'.switchHold.trans h.switchHold⟩

theorem ite {c : Prop} [Decidable c] {a b : Vol} (ha : SwitchKept v a) (hb : SwitchKept v b) : SwitchKept v (if c then a else b) := by
  split
  · exact ha
  · exact hb

theorem of_touches {W : Nat → Prop} (h : Touches W v v') : SwitchKept v v' := by
  rw [h.rest]
  exact ⟨rfl, rfl, rfl, rfl, rfl⟩

theorem setFault (v : Vol) (p i : Nat) : SwitchKept v (setFault v p i) := ⟨rfl, rfl, rfl, rfl, rfl⟩
theorem raiseEvent (v : Vol) (p i : Nat) : SwitchKept v (raiseEvent v p i) := of_touches (any_raiseEvent v p i)
theorem setLst (v : Vol) (s : Nat) (f : LStream → LStream) : SwitchKept v (setLst v s f) := ⟨rfl, rfl, rfl, rfl, rfl⟩
theorem lunQueue (v : Vol) (who : Option Nat) (b : Nat) : SwitchKept v (lunQueue v who b) := ⟨rfl, rfl, rfl, rfl, rfl⟩
theorem nextFree (v : Vol) : SwitchKept v (nextFree v) := ⟨rfl, rfl, rfl, rfl, rfl⟩
theorem devLook (nv : Nv) (v : Vol) (key : Nat) : SwitchKept v (devLook nv v key) := .ite (.refl v) (.setFault v _ _)

theorem foldl {β : Type} {f : Vol → β → Vol} (h : ∀ v x, SwitchKept v (f v x)) (l : List β) (v : Vol) : SwitchKept v (l.foldl f v) := by
  induction l generalizing v with
  | nil => exact .refl v
  | cons x l ih => exact (h v x).trans (ih (f v x))

end SwitchKept

theorem svcAnswer_kept (v : Vol) (msg : List Byte) (status : Nat) (more : List Byte) : SwitchKept v (svcAnswer v msg status more) :=
  SwitchKept.trans (v' := setLks v fun l => { l with resp := response magicUpdate msg status 0 more }) ⟨rfl, rfl, rfl, rfl, rfl⟩
    (.of_touches (touches_raiseIf (W := AnyReg) _ _ _ trivial))

theorem streamNewBlock_kept (v : Vol) (s : Nat) : SwitchKept v (streamNewBlock v s).1 := by
  unfold streamNewBlock
  extract_lets st q last v1
  have h1 : SwitchKept v v1 := .ite ((SwitchKept.setFault v _ _).trans (.raiseEvent _ _ _)) (.refl v)
  split
  · exact ⟨rfl, rfl, rfl, rfl, rfl⟩
  split
  · next b n erase gone _ =>
    extract_lets base v2 v3
    have h2 : SwitchKept v1 v2 := .ite ⟨rfl, rfl, rfl, rfl, rfl⟩ (.refl v1)
    have h3 : SwitchKept v2 v3 := .ite ⟨rfl, rfl, rfl, rfl, rfl⟩ (.refl v2)
    exact ((h1.trans h2).trans h3).trans ⟨rfl, rfl, rfl, rfl, rfl⟩
  · exact h1.trans (.ite (.refl v1) ((SwitchKept.setLst v1 _ _).trans (.raiseEvent _ _ _)))

theorem streamHasBlock_kept (v : Vol) (s : Nat) : SwitchKept v (streamHasBlock v s).1 := by
  unfold streamHasBlock
  extract_lets st
  split
  · exact streamNewBlock_kept v s
  · exact .refl v

theorem programPage_kept (v : Vol) (s : Nat) : SwitchKept v (programPage v s) := by
  have hblock := streamHasBlock_kept v s
  unfold programPage
  split
  · exact .refl v
  split
  · next heq => rwa [heq] at hblock
  · next heq =>
    rw [heq] at hblock
    exact hblock.trans ((SwitchKept.setLst _ _ _).trans (.lunQueue _ _ _))

theorem programPages_kept (s n : Nat) (v : Vol) : SwitchKept v (programPages v s n) := by
  induction n generalizing v with
  | zero => exact .refl v
  | succ n ih => exact (programPage_kept v s).trans (ih _)

theorem putSlot_kept (v : Vol) (s : Nat) (slot : List Byte) : SwitchKept v (putSlot v s slot) :=
  (SwitchKept.setLst v s _).trans (programPages_kept s _ _)

theorem closeLeaf_kept (v : Vol) (s : Nat) : SwitchKept v (closeLeaf v s) := (SwitchKept.setLst v s _).trans (putSlot_kept _ _ _)

theorem sealStart_kept (nv : Nv) (v : Vol) (s reason : Nat) : SwitchKept v (sealStart nv v s reason) := by
  unfold sealStart
  extract_lets st v1 v2 st2 why
  have h1 : SwitchKept v v1 := .setLst v s _
  have h2 : SwitchKept v1 v2 := .ite (.refl v1) (closeLeaf_kept v1 s)
  split
  · exact .refl v
  split
  · exact h1
  split
  · exact h1.trans (.setFault v1 _ _)
  split
  exact (h1.trans h2).trans ⟨rfl, rfl, rfl, rfl, rfl⟩

theorem sealSign_kept (nv : Nv) (v : Vol) (s : Nat) : SwitchKept v (sealSign nv v s) := by
  unfold sealSign
  split
  · exact .refl v
  extract_lets sig v1 v2
  have h2 : SwitchKept v v2 :=
    (((SwitchKept.nextFree v).trans (.setLst _ _ _)).trans (putSlot_kept _ _ _)).trans (programPages_kept _ _ _)
  exact .ite (.refl v) (.ite (.setFault v _ _) (.ite h2 (h2.trans (sealStart_kept _ _ _ _))))

theorem quoteSent_kept (nv : Nv) (v : Vol) : SwitchKept v (quoteSent nv v) := by
  unfold quoteSent
  split
  · exact .refl v
  extract_lets v1
  have h1 : SwitchKept v v1 := ⟨rfl, rfl, rfl, rfl, rfl⟩
  exact h1.trans (.ite (.refl v1) (.ite (svcAnswer_kept _ _ _ _) (((SwitchKept.devLook nv v1 3).trans (.nextFree _)).trans (svcAnswer_kept _ _ _ _))))

/-- An accepted switch goes on: it waits for its signatures or for its boundary. -/
structure SwitchGoes (v v' : Vol) : Prop where
  sram : v'.sram = v.sram
  held : v'.ldg.held = v.ldg.held
  fallback : v'.lks.fallback = v.lks.fallback
  waits : switchWaits v = true → switchWaits v' = true

namespace SwitchGoes

variable {v v' v'' : Vol}

theorem of_kept (h : SwitchKept v v') : SwitchGoes v v' :=
  ⟨h.sram, h.held, h.fallback, fun hw => by rwa [switchWaits, h.switchTo, h.switchHold]⟩

theorem refl (v : Vol) : SwitchGoes v v := .of_kept (.refl v)

theorem trans (h : SwitchGoes v v') (h' : SwitchGoes v' v'') : SwitchGoes v v'' :=
  ⟨h'.sram.trans h.sram, h'.held.trans h.held, h'.fallback.trans h.fallback, h'.waits ∘ h.waits⟩

end SwitchGoes

theorem switchReady_goes (nv : Nv) (v : Vol) : SwitchGoes v (switchReady nv v).2 := by
  unfold switchReady
  split
  · exact .refl v
  · exact ⟨rfl, rfl, rfl, fun _ => rfl⟩

theorem idSteps_goes (n : Nat) (nv : Nv) (v : Vol) : SwitchGoes v (idSteps n nv v).2 := by
  induction n generalizing nv v with
  | zero => exact .refl v
  | succ n ih =>
    rw [idSteps]
    split
    · exact (switchReady_goes nv v).trans (ih _ _)
    split
    · exact .of_kept (quoteSent_kept nv v)
    split
    · exact .refl v
    split
    · exact (SwitchGoes.of_kept (quoteSent_kept nv v)).trans (ih _ _)
    split
    · exact (SwitchGoes.of_kept (sealSign_kept nv v _)).trans (ih _ _)
    · exact .refl v

theorem idGoes_goes (nv : Nv) (v : Vol) : SwitchGoes v (idGoes nv v).2 := by
  unfold idGoes
  split
  · exact .refl v
  · exact idSteps_goes _ nv v

/-- Ledger holds its ring, and the switch to the plane waits. -/
theorem switchStarts_waits (nv : Nv) (v : Vol) (p tick : Nat) (back : Bool) :
    switchWaits (switchStarts nv v p tick back).2 = true ∧ (switchStarts nv v p tick back).2.lks.fallback = back
      ∧ (switchStarts nv v p tick back).2.ldg.held = true ∧ (switchStarts nv v p tick back).2.sram = v.sram := by
  unfold switchStarts
  extract_lets v1 v2
  have h2 : SwitchKept v1 v2 := .ite (.foldl (fun v s => sealStart_kept nv v s 4) _ v1) (.refl v1)
  obtain ⟨v3, hv3⟩ : ∃ v3, (setLks v2 fun l => { l with switchHold := some (p, tick), fallback := back }) = v3 := ⟨_, rfl⟩
  rw [hv3]
  have hgoes := idGoes_goes nv v3
  refine ⟨hgoes.waits ?_, hgoes.fallback.trans ?_, hgoes.held.trans ?_, hgoes.sram.trans ?_⟩
  · rw [← hv3, switchWaits, setLks_lks, Option.isSome_some, Bool.or_true]
  · rw [← hv3, setLks_lks]
  · rw [← hv3, setLks_ldg, h2.held]
    rfl
  · rw [← hv3, setLks_sram, h2.sram]
    rfl

/-! ### Identity-key operations without a wait -/

/-- Without a switch and a QUOTE that wait, nothing goes on by itself. -/
theorem idSteps_rest (n : Nat) (nv : Nv) {v : Vol} (hhold : v.lks.switchHold = none) (hquote : v.lks.quoteQ = none) :
    idSteps n nv v = (nv, v) := by
  have hsent : quoteSent nv v = v := by rw [quoteSent, hquote]
  induction n with
  | zero => rfl
  | succ n ih =>
    rw [idSteps, hhold, hsent, ih]
    simp only [Option.isSome_none, Bool.false_and, Bool.false_eq_true, if_false, and_false]
    split
    · rfl
    split
    · rfl
    · exact ite_self _

/-- Without a seal that waits, a switch that waits is ready at once. -/
theorem idGoes_ready {nv : Nv} {v : Vol} {p tick : Nat} (hhold : v.lks.switchHold = some (p, tick)) (hquote : v.lks.quoteQ = none)
    (hseals : sealsWait v = false) : idGoes nv v = switchReady nv v := by
  have hready : (switchReady nv v).2.lks.switchHold = none ∧ (switchReady nv v).2.lks.quoteQ = none := by
    rw [switchReady, hhold]
    exact ⟨rfl, hquote⟩
  obtain ⟨n, hn⟩ : ∃ n, v.lks.idq.length + ((List.range 64).map fun s => 2 + (lst v s).segHash.length).sum = n + 1 := by
    refine Nat.exists_eq_succ_of_ne_zero ?_
    rw [List.range_succ, List.map_append, List.sum_append, List.map_cons, List.sum_cons]
    omega
  rw [idGoes, hhold, Option.isNone_some, Bool.false_and, if_neg Bool.false_ne_true, hn, idSteps, hhold, hseals]
  exact idSteps_rest n _ hready.1 hready.2

theorem sealStart_none {nv : Nv} {v : Vol} {s : Nat} (reason : Nat) (h : (lst v s).segTicks = none) : sealStart nv v s reason = v := by
  rw [sealStart, h]
  rfl

theorem sealStarts_none {nv : Nv} {v : Vol} {l : List Nat} (reason : Nat) (h : ∀ s ∈ l, (lst v s).segTicks = none) :
    l.foldl (fun v s => sealStart nv v s reason) v = v := by
  induction l with
  | nil => rfl
  | cons s l ih =>
    rw [List.foldl_cons, sealStart_none reason (h s List.mem_cons_self)]
    exact ih fun s hs => h s (List.mem_cons_of_mem _ hs)

/-- Without records since the last seals and without a QUOTE that waits, a switch waits for its boundary at once. -/
theorem switchStarts_ready {nv : Nv} {v : Vol} {p tick : Nat} {back : Bool} (hquote : v.lks.quoteQ = none)
    (hseals : ∀ j, j < 64 → (lst v j).segTicks = none ∧ (lst v j).signing = none) :
    (switchStarts nv v p tick back).2.lks.switchTo = some (p, tick) ∧ (switchStarts nv v p tick back).2.lks.resp = v.lks.resp := by
  unfold switchStarts
  extract_lets v1 v2
  have h2 : v2 = v1 := by
    refine ite_eq_right_iff.mpr fun _ => sealStarts_none 4 fun s hs => ?_
    exact (hseals s (List.mem_range.mp hs)).1
  have hwait : sealsWait (setLks v2 fun l => { l with switchHold := some (p, tick), fallback := back }) = false := by
    have hany : (v2.lks.idq.any fun s => decide (s < 64) && (lst v2 s).signing.isSome) = false := by
      rw [List.any_eq_false]
      intro s _
      rw [h2]
      by_cases hs : s < 64
      · rw [show (lst v1 s).signing = none from (hseals s hs).2]
        simp
      · simp [hs]
    exact (congrArg _ hany).trans (Bool.and_false _)
  rw [idGoes_ready rfl (by rw [h2]; exact hquote) hwait]
  refine ⟨rfl, ?_⟩
  show v2.lks.resp = v.lks.resp
  rw [h2]
  rfl

/-! ### Programs of a plane -/

/-- The SRAM and the cores stay as they are, and a plane without its verified mark does not get one. -/
structure PlaneWorked (p : Nat) (v v' : Vol) : Prop where
  sram : v'.sram = v.sram
  cores : v'.cores = v.cores
  unverified : planeVerified v p = false → planeVerified v' p = false

namespace PlaneWorked

variable {p : Nat} {v v' v'' : Vol}

theorem trans (h : PlaneWorked p v v') (h' : PlaneWorked p v' v'') : PlaneWorked p v v'' :=
  ⟨h'.sram.trans h.sram, h'.cores.trans h.cores, h'.unverified ∘ h.unverified⟩

theorem refl (p : Nat) (v : Vol) : PlaneWorked p v v := ⟨rfl, rfl, id⟩

theorem of_rg (hsram : v'.sram = v.sram) (hcores : v'.cores = v.cores) (h : rg v' (aStat pFlc) = rg v (aStat pFlc)) : PlaneWorked p v v' :=
  ⟨hsram, hcores, fun hv => by rwa [planeVerified, rb, h]⟩

end PlaneWorked

theorem planeUnverify_worked {p : Nat} (hp : p < 32) (v : Vol) (q : Nat) : PlaneWorked p v (planeUnverify v q) where
  sram := planeUnverify_sram v q
  cores := planeUnverify_cores v q
  unverified h := by
    show rb (rbSet v (aStat pFlc) q false) (aStat pFlc) p = false
    rw [rb_rbSet_false v (aStat pFlc) q hp, show rb v (aStat pFlc) p = false from h, Bool.false_and]

/-- A fault of FLC with its event leaves the planes' marks. -/
theorem flcFaults_worked (p : Nat) (v : Vol) (f e : Nat) : PlaneWorked p v (raiseEvent (setFault v pFlc f) pFlc e) :=
  .of_rg (raiseEvent_sram _ _ _) (raiseEvent_cores _ _ _) (by
    rw [rg_raiseEvent_ne _ _ _ (by decide), rg_setFault, if_neg (by decide)])

theorem unitsTry_worked (p : Nat) (nv : Nv) (v : Vol) (a : Nat) (bs : List Byte) : PlaneWorked p v (unitsTry nv v a bs).2.1 := by
  unfold unitsTry
  split
  · exact .trans (v' := { v with free := v.free + (bs.length + 15) / 16 * 16 / 4 }) (.of_rg rfl rfl rfl) (flcFaults_worked p _ 4 1)
  · exact .of_rg rfl rfl rfl

theorem planeProgram_worked {p : Nat} (hp : p < 32) (nv : Nv) (v : Vol) (a : Nat) (bs : List Byte) :
    PlaneWorked p v (planeProgram nv v a bs).2.1 := by
  have hmark := planeUnverify_worked hp v (a / 0x800000)
  unfold planeProgram
  split
  · exact flcFaults_worked p v 0 1
  extract_lets v1
  split
  · exact hmark.trans (flcFaults_worked p v1 1 1)
  · exact hmark.trans (unitsTry_worked p nv v1 a bs)

theorem planeStart_worked (p : Nat) (nv : Nv) (v : Vol) (q : Nat) : PlaneWorked p (planeUnverify v q) (planeStart nv v q).2.1 := by
  unfold planeStart
  extract_lets v1
  split
  · exact .of_rg rfl rfl rfl
  · exact .trans (v' := nextFree v1) (.of_rg rfl rfl rfl) (unitsTry_worked p _ _ _ _)

/-- A plane that takes an image is unverified, whether the image is taken or not. -/
theorem planeStart_unverified {p : Nat} (hp : p < 32) (nv : Nv) (v : Vol) : planeVerified (planeStart nv v p).2.1 p = false :=
  (planeStart_worked p nv v p).unverified (planeUnverify_clears v hp)

theorem unitsTry_passed {nv : Nv} {v : Vol} {a : Nat} {bs : List Byte} (h : Config.flashFails v.free = false) :
    (unitsTry nv v a bs).2.2 = true ∧ (unitsTry nv v a bs).1 = unitsWrite nv a bs := by
  rw [unitsTry, if_neg (by rw [h]; exact Bool.false_ne_true)]
  exact ⟨rfl, rfl⟩

/-- A program that fails its read-back sets FAULT.VERIFY. -/
theorem unitsTry_failed {nv : Nv} {v : Vol} {a : Nat} {bs : List Byte} (h : Config.flashFails v.free = true) :
    (unitsTry nv v a bs).2.2 = false ∧ rb (unitsTry nv v a bs).2.1 (aFault pFlc) 4 = true := by
  rw [unitsTry, if_pos h]
  exact ⟨rfl, FlcIdle.faulted _ (by decide) 1⟩

/-- An image whose erase and manifest succeed stands in the plane. -/
theorem planeStart_taken {nv : Nv} {v : Vol} {p : Nat} (h : (planeStart nv v p).2.2 = true) :
    (planeStart nv v p).1 = unitsWrite (flashErase nv (p * 0x800000) 0x800000) (manifestAt p) v.lks.man := by
  revert h
  unfold planeStart
  extract_lets v1
  split
  · exact fun h => absurd h Bool.false_ne_true
  · rw [unitsTry]
    split
    · exact fun h => absurd h Bool.false_ne_true
    · exact fun _ => rfl

section
variable {nv : Nv} {v : Vol} {a : Nat} {bs : List Byte}

theorem planeProgram_locked (h : probRuns v = true) : (planeProgram nv v a bs).1 = nv ∧ (planeProgram nv v a bs).2.2 = 10 := by
  rw [planeProgram, if_pos h]
  exact ⟨rfl, rfl⟩

theorem planeProgram_filled (h : probRuns v = false) (hblank : flashIsBlank nv a bs.length = false) :
    (planeProgram nv v a bs).1 = nv ∧ (planeProgram nv v a bs).2.2 = 11 := by
  rw [planeProgram, if_neg (by rw [h]; exact Bool.false_ne_true), hblank]
  exact ⟨rfl, rfl⟩

theorem planeProgram_blank (h : probRuns v = false) (hblank : flashIsBlank nv a bs.length = true) :
    planeProgram nv v a bs = ((unitsTry nv (planeUnverify v (a / 0x800000)) a bs).1, (unitsTry nv (planeUnverify v (a / 0x800000)) a bs).2.1,
      wroteStatus (unitsTry nv (planeUnverify v (a / 0x800000)) a bs).2.2) := by
  rw [planeProgram, if_neg (by rw [h]; exact Bool.false_ne_true), hblank]
  rfl

end

/-- The blocks of an image go into a plane one after another, up to the first that is refused or fails (R503). -/
def planeFills (blocks : Nat → List Byte) (p : Nat) (r : Nv × Vol × Nat) (b : Nat) : Nv × Vol × Nat :=
  if r.2.2 ≠ 0 then r else planeProgram r.1 r.2.1 (p * 0x800000 + 4096 * b) (blocks b)

theorem planeFills_foldl {p : Nat} (hp : p < 32) (blocks : Nat → List Byte) (l : List Nat) (r : Nv × Vol × Nat) :
    FlashWritten r.1 (l.foldl (planeFills blocks p) r).1 ∧ PlaneWorked p r.2.1 (l.foldl (planeFills blocks p) r).2.1 := by
  induction l generalizing r with
  | nil => exact ⟨.refl _, .refl _ _⟩
  | cons b l ih =>
    have hstep : FlashWritten r.1 (planeFills blocks p r b).1 ∧ PlaneWorked p r.2.1 (planeFills blocks p r b).2.1 := by
      unfold planeFills
      split
      · exact ⟨.refl _, .refl _ _⟩
      · exact ⟨planeProgram_written _ _ _ _, planeProgram_worked hp _ _ _ _⟩
    rw [List.foldl_cons]
    exact ⟨hstep.1.trans (ih _).1, hstep.2.trans (ih _).2⟩

theorem planeMark_verified (nv : Nv) (v : Vol) {p : Nat} (hp : p < 32) : planeVerified (planeMark nv v p) p = true := by
  show rb (rbSet v (aStat pFlc) p true) (aStat pFlc) p = true
  rw [rb_rbSet_true v (aStat pFlc) hp, decide_eq_true rfl, Bool.or_true]

end Sys2Proof.Machine
end

section
/-! SUPPORT. The messages of the update endpoint, one by one (R500-R505). -/

namespace Sys2Proof.Machine

/-! ### Which messages are taken -/

/-- A message of the operation op is taken: the port is up, Locksmith serves it and the part is neither BLANK nor scrapped; v is the part
with the session's 60 s restarted. -/
structure TakesMessage (nv : Nv) (u v : Vol) (op : Nat) (msg : List Byte) : Prop where
  restarted : v = setLks u fun l => { l with msgAt := wall u }
  up : svcUp u = true
  ready : ready v pLks = true
  blank : lcCode nv ≠ 1
  scrapped : lcCode nv ≠ 5
  formed : messageOk magicUpdate msg = true
  code : byteAt msg 4 = op

section
variable {nv : Nv} {u v : Vol} {msg : List Byte} {op : Nat}

theorem TakesMessage.served (h : TakesMessage nv u v op msg) :
    (!svcUp v || !Machine.ready v pLks || lcCode nv == 5) = false := by
  have hup : svcUp v = true := by rw [h.restarted]; exact h.up
  rw [hup, h.ready, beq_eq_false_iff_ne.mpr h.scrapped]
  rfl

theorem TakesMessage.accepted (h : TakesMessage nv u v op msg) : (!messageOk magicUpdate msg || byteAt msg 4 != op) = false := by
  rw [h.formed, h.code, bne_self_eq_false]
  rfl

end

/-- Every message of the update endpoint with its operation. -/
def updateMessages (msg : List Byte) : List (Instr × Nat) := [(.hello msg, 1), (.begin msg, 2), (.manifest msg, 3), (.block msg, 4),
  (.install msg, 5), (.servicePortVerify msg, 6), (.servicePortActivate msg, 7), (.status msg, 8), (.abort msg, 9), (.servicePortQuote msg, 10)]

/-- The outcome of a command that computes the memories. -/
def outcomeOf (s : State) (r : Nv × Vol) : Out := .next { s with nv := r.1, vol := r.2 }

theorem exec_updateMessage {s : State} {msg : List Byte} {i : Instr} {op : Nat} (h : (i, op) ∈ updateMessages msg) :
    exec i s = outcomeOf s (svcMessage s.nv s.vol op msg) := by
  simp only [updateMessages, List.mem_cons, Prod.mk.injEq, List.not_mem_nil, or_false] at h
  rcases h with ⟨rfl, rfl⟩ | ⟨rfl, rfl⟩ | ⟨rfl, rfl⟩ | ⟨rfl, rfl⟩ | ⟨rfl, rfl⟩ | ⟨rfl, rfl⟩ | ⟨rfl, rfl⟩ | ⟨rfl, rfl⟩ | ⟨rfl, rfl⟩ | ⟨rfl, rfl⟩
  all_goals rfl

section
variable {nv : Nv} {u v : Vol} {msg : List Byte} {op : Nat}

theorem svcMessage_down (h : svcUp u = false) : svcMessage nv u op msg = (nv, u) := by
  simp only [svcMessage, h, Bool.false_eq_true, if_false, Bool.not_false, Bool.true_or, if_true]

/-- What is asked before a message itself is looked at. -/
theorem port_served (hv : v = setLks u fun l => { l with msgAt := wall u }) (hup : svcUp u = true) (hready : ready v pLks = true)
    (hlc : lcCode nv ≠ 5) : (!svcUp v || !ready v pLks || lcCode nv == 5) = false := by
  have hupv : svcUp v = true := by rw [hv]; exact hup
  rw [hupv, hready, beq_eq_false_iff_ne.mpr hlc]
  rfl

theorem svcMessage_malformed (hv : v = setLks u fun l => { l with msgAt := wall u }) (hup : svcUp u = true) (hready : ready v pLks = true)
    (hlc : lcCode nv ≠ 5) (hbad : messageOk magicUpdate msg = false ∨ byteAt msg 4 ≠ op) :
    svcMessage nv u op msg = (nv, svcAnswer v msg 1 []) := by
  have hreject : (!messageOk magicUpdate msg || byteAt msg 4 != op) = true := by
    rcases hbad with h | h
    · rw [h]; rfl
    · rw [bne_iff_ne.mpr h, Bool.or_true]
  simp only [svcMessage, if_pos hup, ← hv, port_served hv hup hready hlc, hreject, Bool.false_eq_true, if_false, if_true]

theorem svcMessage_unprovisioned (hv : v = setLks u fun l => { l with msgAt := wall u }) (hup : svcUp u = true) (hready : ready v pLks = true)
    (hlc : lcCode nv = 1) (hok : messageOk magicUpdate msg = true) (hop : byteAt msg 4 = op) :
    svcMessage nv u op msg = (nv, svcAnswer v msg 13 []) := by
  have hserved := port_served hv hup hready (hlc.trans_ne (by decide))
  have haccept : (!messageOk magicUpdate msg || byteAt msg 4 != op) = false := by rw [hok, hop, bne_self_eq_false]; rfl
  simp only [svcMessage, if_pos hup, ← hv, hserved, haccept, Bool.false_eq_true, if_false, if_pos hlc]

/-! ### HELLO, BEGIN, STATUS, ABORT -/

theorem svcMessage_hello (h : TakesMessage nv u v 1 msg) : svcMessage nv u 1 msg
    = (nv, svcAnswer (setLks (sessionEnds v) fun l => { l with session := true, phase := 1 }) msg 0 (helloBytes nv v)) := by
  simp only [svcMessage, if_pos h.up, ← h.restarted, h.served, h.accepted, Bool.false_eq_true, if_false, if_neg h.blank, if_true]

theorem svcMessage_begin (h : TakesMessage nv u v 2 msg) (hlen : (msg.drop 16).length = 4) : svcMessage nv u 2 msg
    = if v.lks.phase ≠ 1 then (nv, svcAnswer v msg 2 [])
      else if decide (byteAt (msg.drop 16) 0 % 2 = 1) = false ∧ probRuns v = true then (nv, svcAnswer v msg 10 [])
      else if decide (byteAt (msg.drop 16) 0 % 2 = 1) = true ∧ ldgMounted v = false then (nv, svcAnswer v msg 12 [])
      else (nv, svcAnswer (setLks v fun l => { l with phase := 2, staged := decide (byteAt (msg.drop 16) 0 % 2 = 1), man := [], stored := [] })
        msg 0 []) := by
  simp only [svcMessage, if_pos h.up, ← h.restarted, h.served, h.accepted, Bool.false_eq_true, if_false, if_neg h.blank, if_true,
    Nat.reduceEqDiff, hlen, ne_eq, not_true_eq_false, Bool.and_eq_true, Bool.not_eq_true']

theorem svcMessage_status (h : TakesMessage nv u v 8 msg) : svcMessage nv u 8 msg
    = (nv, svcAnswer v msg 0 ([BitVec.ofNat 8 (svcPhase v), 0, 0, 0] ++ leBytes 4 v.lks.stored.length
      ++ leBytes 4 (if probRuns v then secsTo v v.lks.probEnd else 0))) := by
  simp only [svcMessage, if_pos h.up, ← h.restarted, h.served, h.accepted, Bool.false_eq_true, if_false, if_neg h.blank, if_true, Nat.reduceEqDiff]

theorem svcMessage_abort (h : TakesMessage nv u v 9 msg) : svcMessage nv u 9 msg = (nv, svcAnswer (sessionEnds v) msg 0 []) := by
  simp only [svcMessage, if_pos h.up, ← h.restarted, h.served, h.accepted, Bool.false_eq_true, if_false, if_neg h.blank, if_true, Nat.reduceEqDiff]

/-! ### MANIFEST -/

theorem svcMessage_manifest (h : TakesMessage nv u v 3 msg) : svcMessage nv u 3 msg = svcManifest nv v msg := by
  simp only [svcMessage, if_pos h.up, ← h.restarted, h.served, h.accepted, Bool.false_eq_true, if_false, if_neg h.blank, if_true, Nat.reduceEqDiff]

/-- A piece of the manifest arrives in order; `man` is the manifest with it, w the part that holds it. -/
structure ManifestPiece (v : Vol) (msg man : List Byte) (w : Vol) : Prop where
  phase : v.lks.phase = 2
  some : 1 ≤ ((msg.drop 16).drop 4).length
  fits : ((msg.drop 16).drop 4).length ≤ 4096
  next : (leWord (msg.drop 16) 0).toNat ≤ v.lks.man.length
  whole : man = v.lks.man.take (leWord (msg.drop 16) 0).toNat ++ (msg.drop 16).drop 4
    ++ v.lks.man.drop ((leWord (msg.drop 16) 0).toNat + ((msg.drop 16).drop 4).length)
  held : w = setLks v fun l => { l with man := man }

section
variable {man : List Byte} {w : Vol}

theorem ManifestPiece.inOrder (h : ManifestPiece v msg man w) :
    ¬ v.lks.phase ≠ 2 ∧ ¬ (((msg.drop 16).drop 4).isEmpty = true ∨ 4096 < ((msg.drop 16).drop 4).length)
      ∧ ¬ v.lks.man.length < (leWord (msg.drop 16) 0).toNat := by
  have hsome := h.some
  have hfits := h.fits
  have hnext := h.next
  refine ⟨not_not.mpr h.phase, ?_, by omega⟩
  rw [List.isEmpty_iff_length_eq_zero]
  omega

theorem manTotal_none {m : List Byte} (h : manTotal m = none) : m.length < 32 := by
  unfold manTotal at h
  split at h
  · assumption
  · cases h

theorem manTotal_some {m : List Byte} {n : Nat} (h : manTotal m = some n) : 32 ≤ m.length ∧ n = 608 + 48 * manN m := by
  unfold manTotal at h
  split at h
  · cases h
  · exact ⟨by omega, (Option.some.inj h).symm⟩

/-- What a piece of the manifest brings about: more is awaited, or the whole manifest is checked and starts the update. -/
theorem svcManifest_eq (h : ManifestPiece v msg man w) : svcManifest nv v msg
    = if man.length < 32 then (nv, svcAnswer w msg 0 [])
      else if manN man = 0 ∨ 2016 < manN man ∨ 608 + 48 * manN man < man.length then
        (nv, svcAnswer (setLks w fun l => { l with man := [] }) msg 1 [])
      else if man.length < 608 + 48 * manN man then (nv, svcAnswer w msg 0 [])
      else if manArrived nv w ≠ 0 then (nv, svcAnswer (setLks w fun l => { l with man := [] }) msg (manArrived nv w) [])
      else if v.lks.staged then (nv, svcAnswer (setLks w fun l => { l with phase := 3, stored := [] }) msg 0 [])
      else ((planeStart nv w (1 - activePlane v)).1,
        if (planeStart nv w (1 - activePlane v)).2.2
          then svcAnswer (setLks (planeStart nv w (1 - activePlane v)).2.1 fun l => { l with phase := 3, stored := [] }) msg 0 []
          else svcAnswer (setLks (planeStart nv w (1 - activePlane v)).2.1 fun l => { l with man := [] }) msg 11 []) := by
  obtain ⟨hphase, hdata, hoff⟩ := h.inOrder
  have hstaged : w.lks.staged = v.lks.staged := by rw [h.held]; rfl
  have hplane : activePlane w = activePlane v := by rw [h.held]; rfl
  have hheld := h.held
  rw [h.whole] at hheld
  fun_cases svcManifest nv v msg
  case case1 hno => exact absurd hno hphase
  case case2 hno => exact absurd hno hdata
  case case3 hno => exact absurd hno hoff
  case case4 m u hnone =>
    obtain rfl : w = u := hheld
    obtain rfl : man = m := h.whole
    exact (if_pos (manTotal_none hnone)).symm
  case case5 m u n htotal hbad =>
    obtain rfl : w = u := hheld
    obtain rfl : man = m := h.whole
    obtain ⟨hlong, rfl⟩ := manTotal_some htotal
    rw [if_neg (Nat.not_lt.mpr hlong), if_pos hbad]
  case case6 m u n htotal hgood hshort =>
    obtain rfl : w = u := hheld
    obtain rfl : man = m := h.whole
    obtain ⟨hlong, rfl⟩ := manTotal_some htotal
    rw [if_neg (Nat.not_lt.mpr hlong), if_neg hgood, if_pos hshort]
  case case7 m u n htotal hgood hfull st hst =>
    obtain rfl : w = u := hheld
    obtain rfl : man = m := h.whole
    obtain ⟨hlong, rfl⟩ := manTotal_some htotal
    rw [if_neg (Nat.not_lt.mpr hlong), if_neg hgood, if_neg hfull, if_pos hst]
  case case8 m u n htotal hgood hfull st hst nv1 v1 hstart =>
    obtain rfl : w = u := hheld
    obtain rfl : man = m := h.whole
    obtain ⟨hlong, rfl⟩ := manTotal_some htotal
    rw [if_neg (Nat.not_lt.mpr hlong), if_neg hgood, if_neg hfull, if_neg hst]
    rw [hstaged, hplane] at hstart
    split at hstart
    · next hs =>
      obtain ⟨rfl, rfl⟩ : nv = nv1 ∧ u = v1 := by simpa using hstart
      rw [if_pos hs]
    · next hs => rw [if_neg hs, hstart, if_pos rfl]
  case case9 m u n htotal hgood hfull st hst nv1 v1 hstart =>
    obtain rfl : w = u := hheld
    obtain rfl : man = m := h.whole
    obtain ⟨hlong, rfl⟩ := manTotal_some htotal
    rw [if_neg (Nat.not_lt.mpr hlong), if_neg hgood, if_neg hfull, if_neg hst]
    rw [hstaged, hplane] at hstart
    split at hstart
    · simp at hstart
    · next hs => rw [if_neg hs, hstart, if_neg Bool.false_ne_true]

/-- A manifest that is not yet whole is kept. -/
theorem svcManifest_partial (h : ManifestPiece v msg man w)
    (hpart : man.length < 32 ∨ 1 ≤ manN man ∧ manN man ≤ 2016 ∧ man.length < 608 + 48 * manN man) :
    svcManifest nv v msg = (nv, svcAnswer w msg 0 []) := by
  rw [svcManifest_eq h]
  by_cases hshort : man.length < 32
  · rw [if_pos hshort]
  · obtain ⟨h1, h2, h3⟩ := hpart.resolve_left hshort
    rw [if_neg hshort, if_neg (by omega), if_pos h3]

/-- A whole manifest is checked; one that passes starts the update. -/
theorem svcManifest_whole (h : ManifestPiece v msg man w) (h1 : 1 ≤ manN man) (h2 : manN man ≤ 2016) (hlen : man.length = 608 + 48 * manN man) :
    svcManifest nv v msg
      = if manArrived nv w ≠ 0 then (nv, svcAnswer (setLks w fun l => { l with man := [] }) msg (manArrived nv w) [])
        else if v.lks.staged then (nv, svcAnswer (setLks w fun l => { l with phase := 3, stored := [] }) msg 0 [])
        else ((planeStart nv w (1 - activePlane v)).1,
          if (planeStart nv w (1 - activePlane v)).2.2
            then svcAnswer (setLks (planeStart nv w (1 - activePlane v)).2.1 fun l => { l with phase := 3, stored := [] }) msg 0 []
            else svcAnswer (setLks (planeStart nv w (1 - activePlane v)).2.1 fun l => { l with man := [] }) msg 11 []) := by
  rw [svcManifest_eq h, if_neg (by omega), if_neg (by omega), if_neg (by omega)]

end

/-! ### BLOCK -/

/-- The number, the ciphertext and the tag of a BLOCK message. -/
abbrev blockNo (msg : List Byte) : Nat := (leWord (msg.drop 16) 0).toNat
abbrev blockText (msg : List Byte) : List Byte := ((msg.drop 16).drop 4).take 4096
abbrev blockTag (msg : List Byte) : List Byte := ((msg.drop 16).drop 4104).take 16

/-- The plain block, where the manifest's key opens it (R499). -/
def blockOpened (v : Vol) (msg : List Byte) : Option (List Byte) :=
  (manKey v v.lks.man).bind fun k =>
    Config.gcmOpen k ((v.lks.man.drop 16).take 8 ++ beBytes 4 (blockNo msg)) ((v.lks.man.drop 8).take 24) (blockText msg) (blockTag msg)

theorem blockOpened_isNone (v : Vol) (msg : List Byte) : (blockOpened v msg).isNone
    = match manKey v v.lks.man with
      | some k => (Config.gcmOpen k ((v.lks.man.drop 16).take 8 ++ beBytes 4 (blockNo msg)) ((v.lks.man.drop 8).take 24)
        (blockText msg) (blockTag msg)).isNone
      | none => true := by
  unfold blockOpened
  cases manKey v v.lks.man
  · rfl
  · rfl

/-- The block is among those stored. -/
def blockKept (v : Vol) (msg : List Byte) : Vol := setLks v fun l => { l with stored := l.stored ++ [blockNo msg] }

theorem svcBlock_eq (hphase : v.lks.phase = 3) (hlen : (msg.drop 16).length = 4120) (hno : blockNo msg < manN v.lks.man) :
    svcBlock nv v msg
      = if leWord (msg.drop 16) 4100 ≠ crc32c (blockText msg ++ blockTag msg) ∨ (blockOpened v msg).isNone then (nv, svcAnswer v msg 8 [])
        else if Config.sha384 (blockText msg) ≠ (v.lks.man.drop (512 + 48 * blockNo msg)).take 48 then (nv, svcAnswer v msg 9 [])
        else if v.lks.stored.contains (blockNo msg) then (nv, svcAnswer v msg 0 [])
        else if v.lks.staged then
          if ldgMounted v then
            (nv, if (stagingWrite nv (nextFree v) (blockNo msg) (blockText msg) (!Config.flashFails v.free)).2
              then svcAnswer (blockKept (stagingWrite nv (nextFree v) (blockNo msg) (blockText msg) (!Config.flashFails v.free)).1 msg) msg 0 []
              else svcAnswer (stagingWrite nv (nextFree v) (blockNo msg) (blockText msg) (!Config.flashFails v.free)).1 msg 11 [])
          else (nv, svcAnswer v msg 12 [])
        else if v.flc.op ≠ 0 then (nv, svcAnswer v msg 14 [])
        else ((planeProgram nv v ((1 - activePlane v) * 0x800000 + 4096 * blockNo msg) (blockText msg)).1,
          svcAnswer (if (planeProgram nv v ((1 - activePlane v) * 0x800000 + 4096 * blockNo msg) (blockText msg)).2.2 = 0
            then blockKept (planeProgram nv v ((1 - activePlane v) * 0x800000 + 4096 * blockNo msg) (blockText msg)).2.1 msg
            else (planeProgram nv v ((1 - activePlane v) * 0x800000 + 4096 * blockNo msg) (blockText msg)).2.1) msg
            (planeProgram nv v ((1 - activePlane v) * 0x800000 + 4096 * blockNo msg) (blockText msg)).2.2 []) := by
  have hisNone := blockOpened_isNone v msg
  have hequal {x y : List Byte} (h : ¬ (!(x == y)) = true) : x = y := by simpa using h
  fun_cases svcBlock nv v msg
  case case1 h => exact absurd hphase h
  case case2 h => exact absurd hlen h
  case case3 h => exact absurd hno (Nat.not_lt.mpr h)
  case case4 hcrc => rw [if_pos (Or.inl hcrc)]
  case case5 hopen => rw [if_pos (Or.inr (hisNone.trans hopen))]
  case case6 hcrc hopen hbad =>
    have hsound := not_or.mpr ⟨hcrc, fun h => hopen (hisNone.symm.trans h)⟩
    rw [if_neg hsound, if_pos (beq_eq_false_iff_ne.mp (Bool.not_eq_true' _ ▸ hbad))]
  case case7 hcrc hopen hok hknown =>
    have hsound := not_or.mpr ⟨hcrc, fun h => hopen (hisNone.symm.trans h)⟩
    rw [if_neg hsound, if_neg (not_not.mpr (hequal hok)), if_pos hknown]
  case case8 hcrc hopen hok hknown haway =>
    have hsound := not_or.mpr ⟨hcrc, fun h => hopen (hisNone.symm.trans h)⟩
    obtain ⟨hstaged, hmounted⟩ := Bool.and_eq_true_iff.mp haway
    rw [if_neg hsound, if_neg (not_not.mpr (hequal hok)), if_neg hknown, if_pos hstaged,
      if_neg (by simpa using hmounted)]
  case case9 hcrc hopen hok hknown _ hbusy =>
    have hsound := not_or.mpr ⟨hcrc, fun h => hopen (hisNone.symm.trans h)⟩
    obtain ⟨hdirect, hop⟩ := Bool.and_eq_true_iff.mp hbusy
    rw [if_neg hsound, if_neg (not_not.mpr (hequal hok)), if_neg hknown,
      if_neg (by simpa using hdirect), if_pos (bne_iff_ne.mp hop)]
  case case10 hcrc hopen hok hknown hhere _ kept hstaged r =>
    have hsound := not_or.mpr ⟨hcrc, fun h => hopen (hisNone.symm.trans h)⟩
    have hmounted : ldgMounted v = true := by simpa [hstaged] using hhere
    rw [if_neg hsound, if_neg (not_not.mpr (hequal hok)), if_neg hknown, if_pos hstaged, if_pos hmounted]
    rfl
  case case11 hcrc hopen hok hknown _ hidle kept hdirect nv1 v1 st hprogram =>
    have hsound := not_or.mpr ⟨hcrc, fun h => hopen (hisNone.symm.trans h)⟩
    have hop : ¬ v.flc.op ≠ 0 := by simpa [hdirect] using hidle
    rw [if_neg hsound, if_neg (not_not.mpr (hequal hok)), if_neg hknown, if_neg hdirect, if_neg hop]
    rw [show planeProgram nv v ((1 - activePlane v) * 0x800000 + 4096 * blockNo msg) (blockText msg) = (nv1, v1, st) from hprogram]
    rfl

theorem svcMessage_block (h : TakesMessage nv u v 4 msg) : svcMessage nv u 4 msg = svcBlock nv v msg := by
  simp only [svcMessage, if_pos h.up, ← h.restarted, h.served, h.accepted, Bool.false_eq_true, if_false, if_neg h.blank, if_true, Nat.reduceEqDiff]

/-! ### INSTALL and VERIFY -/

theorem svcMessage_install (h : TakesMessage nv u v 5 msg) : svcMessage nv u 5 msg = svcInstall nv v msg := by
  simp only [svcMessage, if_pos h.up, ← h.restarted, h.served, h.accepted, Bool.false_eq_true, if_false, if_neg h.blank, if_true, Nat.reduceEqDiff]

/-- The staged image is copied into plane p: its plane starts, and its blocks follow. -/
def planeInstalls (nv : Nv) (v : Vol) (p : Nat) : Nv × Vol × Nat :=
  (List.range (manN v.lks.man)).foldl (planeFills (stagingUnit v) p)
    ((planeStart nv v p).1, (planeStart nv v p).2.1, wroteStatus (planeStart nv v p).2.2)

theorem planeInstalls_eq (nv : Nv) (v : Vol) (p : Nat) : planeInstalls nv v p = (List.range (manN v.lks.man)).foldl (fun r b =>
    if r.2.2 ≠ 0 then r else planeProgram r.1 r.2.1 (p * 0x800000 + 4096 * b) (stagingUnit v b))
      ((planeStart nv v p).1, (planeStart nv v p).2.1, wroteStatus (planeStart nv v p).2.2) := by
  have hstep : planeFills (stagingUnit v) p = fun r b =>
    if r.2.2 ≠ 0 then r else planeProgram r.1 r.2.1 (p * 0x800000 + 4096 * b) (stagingUnit v b) := rfl
  rw [planeInstalls, hstep]

theorem svcInstall_eq (hprob : probRuns v = false) (hphase : v.lks.phase = 3) (hstaged : v.lks.staged = true)
    (hstored : manN v.lks.man ≤ v.lks.stored.length) (hmounted : ldgMounted v = true) (hop : v.flc.op = 0) :
    svcInstall nv v msg = ((planeInstalls nv v (1 - activePlane v)).1,
      svcAnswer (if (planeInstalls nv v (1 - activePlane v)).2.2 = 0
        then setLks (planeInstalls nv v (1 - activePlane v)).2.1 fun l => { l with phase := 4 }
        else (planeInstalls nv v (1 - activePlane v)).2.1) msg (planeInstalls nv v (1 - activePlane v)).2.2 []) := by
  have hready : ¬ (v.lks.phase ≠ 3 ∨ (!v.lks.staged) = true ∨ v.lks.stored.length < manN v.lks.man) := by
    rw [hstaged]
    simp [hphase, hstored]
  fun_cases svcInstall nv v msg
  case case1 h => exact absurd h (by rw [hprob]; exact Bool.false_ne_true)
  case case2 h => exact absurd h hready
  case case3 h => exact absurd h (by rw [hmounted]; exact Bool.false_ne_true)
  case case4 h => exact absurd hop h
  case case5 p r nv1 v1 st hfold =>
    rw [show planeInstalls nv v (1 - activePlane v) = (nv1, v1, st) from hfold]

/-- An installed image leaves OTP, the SRAM and the cores, and its plane unverified. -/
theorem planeInstalls_kept {p : Nat} (hp : p < 32) (nv : Nv) (v : Vol) : (planeInstalls nv v p).1.otp = nv.otp
    ∧ planeVerified (planeInstalls nv v p).2.1 p = false ∧ (planeInstalls nv v p).2.1.sram = v.sram
    ∧ (planeInstalls nv v p).2.1.cores = v.cores := by
  obtain ⟨hnv, hwork⟩ := planeFills_foldl hp (stagingUnit v) (List.range (manN v.lks.man))
    ((planeStart nv v p).1, (planeStart nv v p).2.1, wroteStatus (planeStart nv v p).2.2)
  have hstart := planeStart_worked p nv v p
  exact ⟨((planeStart_written nv v p).trans hnv).otp, hwork.unverified (planeStart_unverified hp nv v), hwork.sram.trans hstart.sram,
    hwork.cores.trans hstart.cores⟩

theorem svcMessage_verifyLocked (h : TakesMessage nv u v 6 msg) (hprob : probRuns v = true) :
    svcMessage nv u 6 msg = (nv, svcAnswer v msg 10 []) := by
  simp only [svcMessage, if_pos h.up, ← h.restarted, h.served, h.accepted, Bool.false_eq_true, if_false, if_neg h.blank, if_true,
    Nat.reduceEqDiff, hprob]

/-- The status of VERIFY: the inactive plane is held by a command of FLC, or its image is checked. -/
def verifyStatus (nv : Nv) (v : Vol) : Nat :=
  if v.flc.op ≠ 0 ∧ v.flc.op ≠ 4 ∧ v.flc.addr / 0x800000 = 1 - activePlane v then 17 else planeStatus nv v (1 - activePlane v)

theorem verifyInactive_eq (hprob : probRuns v = false) :
    verifyInactive nv v = (if verifyStatus nv v = 0 then planeMark nv v (1 - activePlane v) else v, verifyStatus nv v) := by
  rw [verifyInactive, if_neg (by rw [hprob]; exact Bool.false_ne_true)]
  rfl

theorem svcMessage_verify (h : TakesMessage nv u v 6 msg) (hprob : probRuns v = false)
    (hphase : v.lks.phase = 4 ∨ v.lks.phase = 3 ∧ v.lks.staged = false ∧ manN v.lks.man ≤ v.lks.stored.length) :
    svcMessage nv u 6 msg = (nv, if verifyStatus nv v = 0
      then svcAnswer (setLks (planeMark nv v (1 - activePlane v)) fun l => { l with phase := 5 }) msg 0 []
      else svcAnswer v msg (verifyStatus nv v) []) := by
  have hmay : (decide (v.lks.phase = 4) || (decide (v.lks.phase = 3) && !v.lks.staged && decide (manN v.lks.man ≤ v.lks.stored.length))) = true := by
    rcases hphase with hp | ⟨hp, hs, hl⟩
    · simp [hp]
    · simp [hp, hs, hl]
  simp only [svcMessage, if_pos h.up, ← h.restarted, h.served, h.accepted, Bool.false_eq_true, if_false, if_neg h.blank, if_true,
    Nat.reduceEqDiff, hprob, hmay, verifyInactive_eq hprob]
  split
  · next hst => rw [hst]
  · rfl

/-! ### ACTIVATE -/

theorem svcMessage_activate (h : TakesMessage nv u v 7 msg) (hlen : (msg.drop 16).length = 8) : svcMessage nv u 7 msg
    = if v.lks.phase ≠ 5 then (nv, svcAnswer v msg 2 [])
      else if activateStatus nv v ≠ 0 then (nv, svcAnswer v msg (activateStatus nv v) [])
      else activateGo nv (svcAnswer v msg 0 []) ((leWord (msg.drop 16) 0).toNat + (leWord (msg.drop 16) 4).toNat * 2 ^ 32) := by
  simp only [svcMessage, if_pos h.up, ← h.restarted, h.served, h.accepted, Bool.false_eq_true, if_false, if_neg h.blank, if_true,
    Nat.reduceEqDiff, hlen, ne_eq, not_true_eq_false]

theorem activateGo_recovery {tick : Nat} (h : v.lks.recovery = true) :
    activateGo nv v tick = (writeImageState nv (1 - activePlane v) 1 (activePlane v), wholeReset v 6 none) := by
  rw [activateGo, if_pos h]

theorem activateGo_normal {tick : Nat} (h : v.lks.recovery = false) :
    activateGo nv v tick = switchStarts nv v (1 - activePlane v) tick false := by
  rw [activateGo, if_neg (by rw [h]; exact Bool.false_ne_true)]

/-- An accepted ACTIVATE outside recovery: Ledger holds its ring and the switch waits, at once for its boundary where no seal and no QUOTE
waits. -/
structure Activated (nv : Nv) (v : Vol) (msg : List Byte) (tick : Nat) (r : Nv × Vol) : Prop where
  waits : switchWaits r.2 = true
  forward : r.2.lks.fallback = false
  held : r.2.ldg.held = true
  otp : r.1.otp = nv.otp
  sram : r.2.sram = v.sram
  atOnce : v.lks.quoteQ = none → (∀ j, j < 64 → (lst v j).segTicks = none ∧ (lst v j).signing = none) →
    r.2.lks.switchTo = some (1 - activePlane v, tick) ∧ r.2.lks.resp = response magicUpdate msg 0 0 []

theorem activateGo_activated {tick : Nat} (h : v.lks.recovery = false) : Activated nv v msg tick (activateGo nv (svcAnswer v msg 0 []) tick) := by
  obtain ⟨w, hw⟩ : ∃ w, svcAnswer v msg 0 [] = w := ⟨_, rfl⟩
  have hset : w = setLks v fun l => { l with resp := response magicUpdate msg 0 0 [] } := hw.symm
  have hrec : w.lks.recovery = false := by rw [hset]; exact h
  have hplane : activePlane w = activePlane v := by rw [hset]; rfl
  rw [hw, activateGo_normal hrec, hplane]
  obtain ⟨hwaits, hback, hheld, hsram⟩ := switchStarts_waits nv w (1 - activePlane v) tick false
  refine ⟨hwaits, hback, hheld, (switchStarts_written nv w _ tick false).otp, hsram.trans (by rw [hset]; rfl), fun hquote hseals => ?_⟩
  have hquote' : w.lks.quoteQ = none := by rw [hset]; exact hquote
  have hseals' : ∀ j, j < 64 → (lst w j).segTicks = none ∧ (lst w j).signing = none := by rw [hset]; exact hseals
  obtain ⟨hto, hresp⟩ := switchStarts_ready (nv := nv) (p := 1 - activePlane v) (tick := tick) (back := false) hquote' hseals'
  exact ⟨hto, hresp.trans (by rw [hset]; rfl)⟩

/-! ### QUOTE -/

theorem svcMessage_quote (h : TakesMessage nv u v 10 msg) (hlen : (msg.drop 16).length = 32) : svcMessage nv u 10 msg
    = if canSign v then idGoes nv (setLks v fun l => { l with quoteQ := some msg, idq := l.idq ++ [65] })
      else (nv, svcAnswer v msg 3 []) := by
  have hswap : (if (!canSign v) = true then (nv, svcAnswer v msg 3 [])
      else idGoes nv (setLks v fun l => { l with quoteQ := some msg, idq := l.idq ++ [65] }))
      = if canSign v then idGoes nv (setLks v fun l => { l with quoteQ := some msg, idq := l.idq ++ [65] })
        else (nv, svcAnswer v msg 3 []) := by
    cases canSign v
    · rfl
    · rfl
  simp only [svcMessage, if_pos h.up, ← h.restarted, h.served, h.accepted, Bool.false_eq_true, if_false, if_neg h.blank,
    Nat.reduceEqDiff, hlen, ne_eq, not_true_eq_false, hswap]

/-- The part with a QUOTE of the service port queued. -/
abbrev quoteQueued (v : Vol) (msg : List Byte) : Vol := setLks v fun l => { l with quoteQ := some msg, idq := l.idq ++ [65] }

/-- The QUOTE leaves the queue, which was empty before it. -/
theorem quoteQueued_leaves (hidq : v.lks.idq = []) (hquote : v.lks.quoteQ = none) :
    setLks (quoteQueued v msg) (fun l => { l with quoteQ := none, idq := l.idq.filter (· != 65) }) = v := by
  have hempty : (v.lks.idq ++ [65]).filter (· != 65) = v.lks.idq := by rw [hidq]; rfl
  have hlks : (quoteQueued v msg).lks.idq = v.lks.idq ++ [65] := rfl
  rw [setLks, hlks, hempty, ← hquote]
  rfl

theorem quoteSent_queued (hup : svcUp v = true) (hsign : canSign v = true) (hidq : v.lks.idq = []) (hquote : v.lks.quoteQ = none) :
    quoteSent nv (quoteQueued v msg) = svcAnswer (nextFree (devLook nv v 3)) msg 0 (quoteBytes nv v (msg.drop 16)) := by
  rw [quoteSent, show (quoteQueued v msg).lks.quoteQ = some msg from rfl]
  dsimp only
  rw [quoteQueued_leaves hidq hquote, hup, hsign]
  rfl

/-- The operations of a part with a queued QUOTE go on with the first in the queue. -/
theorem idGoes_queued (hsign : canSign v = true) (hhold : v.lks.switchHold = none) {n : Nat} (hnext : idNext (quoteQueued v msg) = some n) :
    ∃ k, idGoes nv (quoteQueued v msg) = if n = 65 then idSteps k nv (quoteSent nv (quoteQueued v msg)) else (nv, quoteQueued v msg) := by
  obtain ⟨k, hk⟩ : ∃ k, (quoteQueued v msg).lks.idq.length
      + ((List.range 64).map fun s => 2 + (lst (quoteQueued v msg) s).segHash.length).sum = k + 1 := by
    refine Nat.exists_eq_succ_of_ne_zero ?_
    rw [show (quoteQueued v msg).lks.idq = v.lks.idq ++ [65] from rfl, List.length_append, List.length_singleton]
    omega
  have hholdq : (quoteQueued v msg).lks.switchHold = none := hhold
  have hsignq : canSign (quoteQueued v msg) = true := hsign
  refine ⟨k, ?_⟩
  rw [idGoes, show (quoteQueued v msg).lks.quoteQ = some msg from rfl, Option.isNone_some, Bool.and_false, if_neg Bool.false_ne_true, hk,
    idSteps, hholdq, hsignq, hnext]
  simp

/-- With no operation requested before it, the QUOTE is answered at once. -/
theorem idGoes_quoteFirst (hup : svcUp v = true) (hsign : canSign v = true) (hidq : v.lks.idq = []) (hquote : v.lks.quoteQ = none)
    (hhold : v.lks.switchHold = none) :
    idGoes nv (quoteQueued v msg) = (nv, svcAnswer (nextFree (devLook nv v 3)) msg 0 (quoteBytes nv v (msg.drop 16))) := by
  have hnext : idNext (quoteQueued v msg) = some 65 := by
    rw [idNext, show (quoteQueued v msg).lks.idq = v.lks.idq ++ [65] from rfl, hidq]
    rfl
  obtain ⟨k, hk⟩ := idGoes_queued (nv := nv) hsign hhold hnext
  rw [hk, if_pos rfl, quoteSent_queued hup hsign hidq hquote]
  have hlook : (devLook nv v 3).lks = v.lks := by
    unfold devLook
    split
    · rfl
    · rfl
  refine idSteps_rest k nv ?_ ?_
  · rw [(svcAnswer_kept _ _ _ _).switchHold, ← hhold, ← hlook]
    rfl
  · show (devLook nv v 3).lks.quoteQ = none
    rw [hlook, hquote]

/-- Behind the signature of a seal, the QUOTE waits. -/
theorem idGoes_quoteWaits (hsign : canSign v = true) (hhold : v.lks.switchHold = none) {n : Nat} (hnext : idNext v = some n) (hn : n < 65) :
    idGoes nv (quoteQueued v msg) = (nv, quoteQueued v msg) := by
  have hfirst : idNext (quoteQueued v msg) = some n := by
    rw [idNext, show (quoteQueued v msg).lks.idq = v.lks.idq ++ [65] from rfl, List.find?_append,
      show (v.lks.idq.find? fun s => decide (64 ≤ s) || (lst (quoteQueued v msg) s).signing.isSome) = some n from hnext]
    rfl
  obtain ⟨k, hk⟩ := idGoes_queued (nv := nv) hsign hhold hfirst
  rw [hk, if_neg (by omega)]

end

end Sys2Proof.Machine
end

section
/-! PROOFS. The messages of the update endpoint (O54). -/

namespace Sys2Proof

open Sys2Proof.Machine

/-- Settles O54: each message by its rule above. -/
theorem updateMessagesAct : Obligations.UpdateMessagesAct := by
  intro s msg v nv pay l p then' tells all
  have hexec {i : Instr} {op : Nat} (h : (i, op) ∈ updateMessages msg) : exec i s = outcomeOf s (svcMessage nv s.vol op msg) :=
    exec_updateMessage h
  have hp : p < 32 := by
    have : p ≤ 1 := Nat.sub_le _ _
    omega
  refine ⟨fun hdown i op hi => ?_, fun hup hready hlc i op hi => ⟨fun hbad => ?_, fun hok hop hblank => ?_⟩, fun hup hready hlc1 hlc4 hok => ?_⟩
  · rw [hexec hi, svcMessage_down hdown]
    rfl
  · rw [hexec hi, svcMessage_malformed (v := v) rfl hup hready hlc hbad]
    rfl
  · rw [hexec hi, svcMessage_unprovisioned (v := v) rfl hup hready hblank hok hop]
    rfl
  have htakes {op : Nat} (hop : byteAt msg 4 = op) : TakesMessage nv s.vol v op msg :=
    ⟨rfl, hup, hready, by omega, by omega, hok, hop⟩
  refine ⟨fun hop => ?_, fun hop hlen => ?_, ?_, ⟨fun hop hphase hlen hno => ?_, ?_, ?_, ?_⟩,
    fun hop hprob hphase hstaged hstored hmounted hflc => ?_, fun hop hprob => ?_, fun hop hprob hphase => ?_, fun hop hlen => ?_,
    fun hop => ?_, fun hop => ?_, fun hop hlen => ?_⟩
  · show outcomeOf s (svcMessage nv s.vol 1 msg) = _
    rw [svcMessage_hello (htakes hop)]
    rfl
  · intro staged
    show outcomeOf s (svcMessage nv s.vol 2 msg) = _
    rw [svcMessage_begin (htakes hop) hlen]
    simp only [apply_ite (outcomeOf s)]
    rfl
  · intro data off man w hop hphase hsome hfits hnext
    have hpiece : ManifestPiece v msg man w := ⟨hphase, hsome, hfits, hnext, rfl, rfl⟩
    have heq : exec (.manifest msg) s = outcomeOf s (svcMessage nv s.vol 3 msg) := rfl
    rw [svcMessage_manifest (htakes hop)] at heq
    refine ⟨fun hpart => ?_, fun h1 h2 hlen => ⟨fun hst => ?_, fun hst hstaged => ?_, fun hst hstaged => ?_⟩⟩
    · rw [heq, svcManifest_partial hpiece hpart]
      rfl
    · rw [heq, svcManifest_whole hpiece h1 h2 hlen, if_pos hst]
      rfl
    · rw [heq, svcManifest_whole hpiece h1 h2 hlen, if_neg (not_not.mpr hst), if_pos hstaged]
      rfl
    · have hdirect : ¬ v.lks.staged = true := by rw [show v.lks.staged = false from hstaged]; exact Bool.false_ne_true
      refine ⟨?_, planeStart_taken, planeStart_unverified hp nv w⟩
      rw [heq, svcManifest_whole hpiece h1 h2 hlen, if_neg (not_not.mpr hst), if_neg hdirect]
      rfl
  · show outcomeOf s (svcMessage nv s.vol 4 msg) = _
    rw [svcMessage_block (htakes hop), svcBlock_eq hphase hlen hno]
    simp only [apply_ite (outcomeOf s)]
    rfl
  · exact fun hprob => planeProgram_locked hprob
  · exact fun hprob hblank => planeProgram_filled hprob hblank
  · exact fun hprob hblank => ⟨planeProgram_blank hprob hblank, fun hgood => unitsTry_passed hgood, fun hbad => unitsTry_failed hbad⟩
  · show ∃ nv' v' st, outcomeOf s (svcMessage nv s.vol 5 msg) = _ ∧ _
    have hkept := planeInstalls_kept hp nv v
    have hfold := planeInstalls_eq nv v p
    obtain ⟨⟨nv', v', st⟩, hr⟩ : ∃ r, planeInstalls nv v p = r := ⟨_, rfl⟩
    rw [hr] at hkept hfold
    rw [svcMessage_install (htakes hop), svcInstall_eq hprob hphase hstaged hstored hmounted hflc, hr]
    exact ⟨nv', v', st, rfl, hfold, hkept⟩
  · show outcomeOf s (svcMessage nv s.vol 6 msg) = _
    rw [svcMessage_verifyLocked (htakes hop) hprob]
    rfl
  · intro st
    have heq : exec (.servicePortVerify msg) s = outcomeOf s (svcMessage nv s.vol 6 msg) := rfl
    rw [svcMessage_verify (htakes hop) hprob hphase] at heq
    refine ⟨fun (hst : verifyStatus nv v ≠ 0) => ?_, fun (hst : verifyStatus nv v = 0) => ?_, planeMark_verified nv v hp⟩
    · rw [heq, if_neg hst]
      rfl
    · rw [heq, if_pos hst]
      rfl
  · intro tick
    have heq : exec (.servicePortActivate msg) s = outcomeOf s (svcMessage nv s.vol 7 msg) := rfl
    rw [svcMessage_activate (htakes hop) hlen, show (leWord (msg.drop 16) 0).toNat + (leWord (msg.drop 16) 4).toNat * 2 ^ 32 = tick from rfl] at heq
    refine ⟨fun hphase => ?_, fun hphase hst => ?_, fun hphase hst hrec => ?_, fun hphase hst hrec => ?_⟩
    · rw [heq, if_pos hphase]
      rfl
    · rw [heq, if_neg (not_not.mpr hphase), if_pos hst]
      rfl
    · rw [heq, if_neg (not_not.mpr hphase), if_neg (not_not.mpr hst), activateGo_recovery (v := svcAnswer v msg 0 []) hrec]
      rfl
    · have hgo : Activated nv v msg tick (activateGo nv (svcAnswer v msg 0 []) tick) := activateGo_activated hrec
      rw [heq, if_neg (not_not.mpr hphase), if_neg (not_not.mpr hst)]
      obtain ⟨r, hr⟩ : ∃ r, activateGo nv (svcAnswer v msg 0 []) tick = r := ⟨_, rfl⟩
      rw [hr] at hgo ⊢
      exact ⟨_, rfl, hgo.waits, hgo.forward, hgo.held, hgo.otp, hgo.sram, hgo.atOnce⟩
  · show outcomeOf s (svcMessage nv s.vol 8 msg) = _
    rw [svcMessage_status (htakes hop)]
    rfl
  · show outcomeOf s (svcMessage nv s.vol 9 msg) = _
    rw [svcMessage_abort (htakes hop)]
    rfl
  · have heq : exec (.servicePortQuote msg) s = outcomeOf s (svcMessage nv s.vol 10 msg) := rfl
    rw [svcMessage_quote (htakes hop) hlen] at heq
    refine ⟨fun hsign => ?_, fun hsign hidq hquote hhold => ?_, fun n hsign hnext hn hhold => ?_⟩
    · rw [heq, hsign]
      rfl
    · rw [heq, if_pos hsign, idGoes_quoteFirst (v := v) hup hsign hidq hquote hhold]
      rfl
    · rw [heq, if_pos hsign, idGoes_quoteWaits hsign hhold hnext hn]
      rfl

end Sys2Proof
end
